-- ==== Sys2Proof/Word.lean ====
section
/-! DEFINITION. The words of the GZ9320: registers and samples (32 bits), device time (64 bits), channel addresses
(16 bits), and the sparse tables (sorted key and value lists) that the state is made of. -/
namespace Sys2Proof

/-- A 32-bit register word or Q1.31 sample word (Numbers, formats and fields, 00_scope). -/
abbrev Word := BitVec 32
/-- One byte of a memory image. -/
abbrev Byte := BitVec 8
/-- Device time in ns, 64 bits (R45). -/
abbrev DT := BitVec 64
/-- A tick count modulo 2^32 (R51). -/
abbrev TS := BitVec 32
/-- A 16-bit channel address: class in bits 15..10, index in bits 9..0 (R8). -/
abbrev ChAddr := BitVec 16
/-- A host or device DRAM byte address, 64 bits. -/
abbrev Addr := BitVec 64

/-- A sparse table: keys strictly rising, one entry a key. -/
abbrev SMap (α : Type) := List (Nat × α)

end Sys2Proof
end

