-- ==== Sys2Proof/Syntax.lean ====
section
/-! DEFINITION. The commands and events of the GZ9320: one constructor of `Instr` for each row of the table of
operations and events, with the operands that the manual's payload tables and event parameters give it. -/
namespace Sys2Proof

/-- The header of a descriptor (Table HR-5) with the ring it lies in. The opcode is the constructor's own. -/
structure Hdr where
  ring   : Nat
  timed  : Bool
  late   : Nat      -- LATE policy, flags bits 2..1 (Table TK-7)
  want   : Bool
  chain  : Bool
  rsv    : Bool     -- a reserved flag bit or a reserved byte of the payload is not zero (R10, R328)
  tag    : BitVec 8
  target : TS
  deriving DecidableEq, Repr

structure ClockLeaderP where
  kind  : Nat
  index : Nat
  bw    : Nat
  deriving DecidableEq, Repr

structure WallSetP where
  dA   : DT
  vA   : BitVec 64
  r    : Word
  mode : Nat
  deriving DecidableEq, Repr

structure SleepP where
  maxState : Nat
  hasUntil : Bool
  untilDt  : DT
  deriving DecidableEq, Repr

/-- AIN_SET and PDM_SET (Table AI-9): channel, field mask, configuration image. -/
structure CfgSetP where
  chan  : Nat
  mask  : BitVec 16
  image : Word
  deriving DecidableEq, Repr

/-- AOUT_SET and SPK_SET (Table AO-10): sink address, field mask, configuration image. -/
structure SinkSetP where
  sink  : ChAddr
  mask  : BitVec 16
  image : Word
  deriving DecidableEq, Repr

structure SpkMeasP where
  chan    : Nat
  op      : Nat
  timeout : TS
  calTemp : BitVec 16
  deriving DecidableEq, Repr

structure SpkWatchP where
  chan    : Nat       -- 0, 1, or 255 for both
  mask    : BitVec 8
  timeout : TS
  deriving DecidableEq, Repr

structure RouteSetP where
  sink   : ChAddr
  source : ChAddr
  ramp   : Nat
  deriving DecidableEq, Repr

structure FaderP where
  lane : Nat          -- 65535 for a bus gain
  bus  : Nat
  word : Word
  len  : Nat
  deriving DecidableEq, Repr

structure ToneSetP where
  tone  : Nat
  wave  : Nat
  ramp  : Nat
  freq  : Word        -- Hz, Q24.8
  level : Word        -- peak, Q1.31
  deriving DecidableEq, Repr

structure TrailCommitP where
  mask : BitVec 16
  s    : Nat
  deriving DecidableEq, Repr

/-- FX_COMMIT and CLIP_COMMIT (Table FX-6); table 0 clip, 1 envelope. -/
structure TableCommitP where
  first : Nat
  count : Nat
  table : Nat
  deriving DecidableEq, Repr

structure ClipStartP where
  voice : Nat
  entry : Nat
  start : Nat
  pitch : Nat         -- Q8.24
  gain  : BitVec 24   -- Q3.20
  env   : Nat
  steal : Bool
  deriving DecidableEq, Repr

structure ClipCtrlP where
  voice   : Nat
  op      : Nat
  value   : Word
  len     : Nat
  timeout : TS
  deriving DecidableEq, Repr

structure LoopSetP where
  rec_   : Nat
  op     : Nat
  en     : Bool
  fmt    : Nat
  loop   : Bool
  frames : Nat
  base   : Addr
  deriving DecidableEq, Repr

structure LoopCommitP where
  rec_    : Nat
  preroll : Bool
  a       : TS
  b       : TS
  base    : Addr
  cap     : Nat
  deriving DecidableEq, Repr

structure BlkP where
  host : Addr         -- host source or destination; BLK_FILL: unused
  word : Word         -- BLK_FILL: the fill word
  dram : Addr
  len  : Nat
  deriving DecidableEq, Repr

structure SapSetP where
  port  : Nat
  dir   : Nat         -- 0 receive, 1 transmit
  mask  : BitVec 16
  cfg   : Word
  frame : Word
  slots : Word
  phase : Nat
  run   : Bool
  deriving DecidableEq, Repr

structure GroveSetP where
  grove : Nat
  op    : Nat
  ports : BitVec 16
  rings : BitVec 64
  first : Nat
  count : Nat
  deriving DecidableEq, Repr

structure StreamCtrlP where
  first   : Nat
  count   : Nat
  op      : Nat
  timeout : TS
  deriving DecidableEq, Repr

structure NetSyncP where
  dt  : DT
  net : BitVec 64
  r   : Word
  tag : Word
  deriving DecidableEq, Repr

structure NtxP where
  addr  : Addr
  len   : Nat
  mac   : Nat
  tsreq : Bool
  queue : Nat
  deriving DecidableEq, Repr

structure NrxP where
  addr : Addr
  len  : Nat
  deriving DecidableEq, Repr

/-- HPB_DATA and HCP_DATA (Table HR-11). -/
structure HostDataP where
  addr : Addr
  n    : Nat
  deriving DecidableEq, Repr

structure ListenSetP where
  op     : Nat
  en     : Bool
  awake  : Bool
  mode   : Nat
  source : ChAddr
  wmask  : BitVec 16
  deriving DecidableEq, Repr

structure ListenWaitP where
  mask    : BitVec 16
  timeout : TS
  deriving DecidableEq, Repr

structure PrerollReadP where
  addr : Addr
  n    : Nat
  from_ : DT
  deriving DecidableEq, Repr

structure BlzMarkP where
  p0  : Word
  p1  : Word
  p2  : Word
  sev : Nat
  deriving DecidableEq, Repr

/-- The facts of a signed image header that the checks of R492 read (Table HW-3), and what the cryptographic checks
of it find. The image itself lies in host memory or DRAM, outside the device's own state. -/
structure ImageFacts where
  magicOk : Bool
  version : Word
  arb     : Nat
  len     : Nat
  lock    : Bool                       -- configuration images: bit 0 of header byte 20 (R494)
  keyHash : BitVec 384                 -- SHA-384 of the signing public key
  sigOk   : Bool                       -- the ECDSA P-384 signature verifies
  hash    : BitVec 256                 -- first 32 bytes of the image's SHA-384 (R495)
  entries : List (Nat × Word)          -- configuration body: BAR0 offset and value, in order (R494)
  deriving DecidableEq, Repr

structure FwActivateP where
  addr  : Addr
  len   : Nat
  image : ImageFacts
  deriving DecidableEq, Repr

/-- KEY_LOAD (Table HW-7) with what unwrapping the blob of Table HW-4 finds. -/
structure KeyLoadP where
  slot   : Nat
  blocks : Nat
  blob   : Addr
  base   : Addr
  opens  : Bool
  lib    : BitVec 64
  key    : BitVec 256
  nonce  : BitVec 64
  deriving DecidableEq, Repr

structure AttestP where
  op      : Nat
  addr    : Addr
  keyHash : BitVec 384
  challenge : BitVec 384
  deriving DecidableEq, Repr

structure ConfigLoadP where
  addr  : Addr
  len   : Nat
  image : ImageFacts
  deriving DecidableEq, Repr

/-- DEBUG_UNLOCK with the token of Table HW-6. -/
structure DebugUnlockP where
  addr    : Addr
  devId   : BitVec 128
  nonce   : BitVec 64
  expiry  : DT
  scope   : BitVec 8
  keyHash : BitVec 384
  sigOk   : Bool
  deriving DecidableEq, Repr

/-- The payload of a descriptor: one constructor an opcode of Table HR-10. -/
inductive Cmd where
  | clockLeader (p : ClockLeaderP)
  | houseRate (rate : Nat)
  | timeWallSet (p : WallSetP)
  | perfLevel (level : Nat)
  | sleep (p : SleepP)
  | ainSet (p : CfgSetP)
  | pdmSet (p : CfgSetP)
  | aoutSet (p : SinkSetP)
  | spkSet (p : SinkSetP)
  | spkMeas (p : SpkMeasP)
  | spkWatch (p : SpkWatchP)
  | routeSet (p : RouteSetP)
  | thkSwap (mode : Nat)
  | thkFader (p : FaderP)
  | toneSet (p : ToneSetP)
  | trailCommit (p : TrailCommitP)
  | fxCommit (p : TableCommitP)
  | clipCommit (p : TableCommitP)
  | clipStart (p : ClipStartP)
  | clipCtrl (p : ClipCtrlP)
  | loopSet (p : LoopSetP)
  | loopCommit (p : LoopCommitP)
  | blkLoad (p : BlkP)
  | blkUnload (p : BlkP)
  | blkFill (p : BlkP)
  | sapSet (p : SapSetP)
  | groveSet (p : GroveSetP)
  | groveStart (grove : Nat)
  | groveStop (grove : Nat)
  | streamCtrl (p : StreamCtrlP)
  | netSync (p : NetSyncP)
  | ntxFrame (p : NtxP)
  | nrxBuf (p : NrxP)
  | nop
  | hpbData (p : HostDataP)
  | hcpData (p : HostDataP)
  | listenSet (p : ListenSetP)
  | listenWait (p : ListenWaitP)
  | prerollRead (p : PrerollReadP)
  | blzMark (p : BlzMarkP)
  | fwActivate (p : FwActivateP)
  | firebreakCtrl (op : Nat)
  | keyLoad (p : KeyLoadP)
  | keyClear (slot : Nat)
  | attest (p : AttestP)
  | configLoad (p : ConfigLoadP)
  | debugUnlock (p : DebugUnlockP)
  | undefined (opcode : Nat)      -- an opcode that Table HR-10 does not list: INVALID (R345)
  deriving DecidableEq, Repr

/-- A descriptor as a ring slot holds it, with its PHASE bit (Table HR-5, R316). -/
structure Desc where
  hdr   : Hdr
  phase : Bool
  cmd   : Cmd
  deriving DecidableEq, Repr

/-- What the plant and the DMA engine bring to a tick boundary: the captured DT (R49), the decimated samples of the
tick's sources (`adc` and `pdm` addresses in Q2.30, ahead of level processing; Trail channels and `sense` addresses in
Q1.31), the descriptors that the DMA of the closing tick's phase 7 read
from ring slots, the host playback frames the mover read, the edges of WCLK_IN, the mic-bias currents, and whether the
active control core hangs, so that it performed no phase of the tick that closes. -/
structure TickIn where
  dt        : DT
  samples   : List (Nat × Word)
  fetched   : List (Nat × Desc)
  playback  : List (Nat × List (List Word))   -- ring, frames of channels
  wclk      : List DT                         -- rising edges of WCLK_IN in the tick that closes (R36)
  aclip     : List Nat                        -- inputs within 0.5 dB of their conversion rail (R96)
  bias      : List (Nat × Nat)                -- input, microampere (R82)
  hung      : Bool                            -- R464
  starved   : List (Nat × List Nat)           -- kernel taps whose frames the DRAM has not delivered, by voice, and by
                                              -- 256 + tail slot (R233)
  ce        : Nat × Nat                       -- codewords that reads corrected in the tick: DRAM, SRAM (R462)
  deriving DecidableEq, Repr

/-- What the plant brings to a step boundary: the Trail-tap samples (Q2.30; for PDM the fractions of ones on
the rising edges, 2p, and the falling edges, 2p + 1), the merge interpolators' values for the buses,
the values that the loudspeaker interpolators give the modulator in each carrier period of the step (channel, values
as parts of full scale), and the measured BST_OUT and PVDD. -/
structure StepIn where
  dt      : DT
  samples : List (Nat × Word)
  merges  : List (Nat × Word)
  mods    : List (Nat × List Word)
  bstMv   : Nat
  pvddMv  : Nat
  deriving DecidableEq, Repr

/-- One BCLK period of a serial port's input lines from a frame-sync edge on: the level of frame sync, and the data line at the
rising and at the falling edge of BCLK (R252, R253). -/
structure SapBit where
  fs   : Bool
  rise : Bool
  fall : Bool
  deriving DecidableEq, Repr

/-- How a two-wire transaction ended (R368 to R370): at its STOP with every byte taken or not, the PEC byte of a write, or
the one that the controller took of a read, and the DT of the STOP. -/
structure Tx where
  complete : Bool
  pec      : Option (BitVec 8)
  dt       : DT
  deriving DecidableEq, Repr

/-- A received AAF or other frame as the MAC hands it over (R294). -/
structure Packet where
  mac      : Nat
  dt       : DT
  streamId : BitVec 64
  dest     : BitVec 48
  fmt      : Nat
  chans    : Nat
  rate     : Nat
  seq      : BitVec 8
  tv       : Bool
  stamp    : Word
  more     : List Word        -- a CRF packet's further time stamps
  vlan     : Option (BitVec 16)  -- the TCI of its VLAN tag
  frames   : List (List Word)
  fcsOk    : Bool
  isStream : Bool       -- an AVTP stream frame; otherwise a frame for the NRX rings
  isGptp   : Bool
  len      : Nat
  deriving DecidableEq, Repr

/-- The samples of one hop of the listening stream (R415, R423), oldest first, with the DT of the hop's end and the DT at which its
decisions are taken. -/
structure HopIn where
  dt      : DT
  done    : DT
  samples : List Word
  deriving DecidableEq, Repr

/-- A user of a memory codeword (Table FT-1). -/
inductive MemUser where
  | delayLine (slot : Nat)
  | clipData (voice : Nat)
  | loopRing (recorder : Nat)
  | takePlay (recorder : Nat)
  | listener (ctx : Nat)
  | blkUnload (ring moved : Nat)
  | saveCopy
  | scrub
  deriving DecidableEq, Repr

/-- A protected SRAM word (Table FT-1). -/
inductive SramWord where
  | node (lane bus : Nat)
  | busGain (bus : Nat)
  | shadow (off : Nat)
  | interchange (src : Nat)
  | fxState (slot : Nat)
  | trailState (ch : Nat)
  | clipState (voice : Nat)
  | delayLine (slot : Nat)
  | pendingEntry (ring tag : Nat)
  | coreMem (core : Nat)
  | coreCode (core : Nat)
  | blazeSlot (slot : Nat)
  deriving DecidableEq, Repr

/-- Members of a Grove (R274). -/
inductive Member where
  | port (p d : Nat)
  | ctx (n : Nat)
  | ring (r : Nat)
  deriving DecidableEq, Repr

/-- A command with the tick in which pickup took it (R343). -/
structure PickedHdr where
  h      : Hdr
  picked : TS
  deriving DecidableEq, Repr

/-- A level that a detect pin has held without a break, from one DT to another (R101). -/
structure PinHeld where
  since : DT
  dt    : DT
  deriving DecidableEq, Repr

/-- The commands and events: one constructor a row of the table. -/
inductive Instr where
  | tickBoundary (x : TickIn)
  | stepBoundary (x : StepIn)
  | timedCommit (ring tag : Nat)
  | waitTimeout
  | doorbellReturn (page : List (Nat × Nat))
  | doorbellLate (dt : DT)
  | leaderLock (dt : DT)
  | leaderRange (dt : DT)
  | wclkInLoss (dt : DT)
  | mclkLoss (dt : DT)
  | housePllLock (dt : DT)
  | rateChangeStop (dt : DT)
  | rateChangeResume (dt : DT)
  | xoRatioMeasure (cycles : Nat)
  | slewEnd (wall : Bool) (dt : DT)
  | gptpSync (dt : DT) (net : BitVec 64) (r : Word) (gm : BitVec 64)
  | netSyncLoss (dt : DT)
  | gptpRoleChange (role : Nat) (asCapable : Bool) (dt : DT)
  | budgetOverrun (engine : Nat)
  | clockLeader (h : Hdr) (p : ClockLeaderP)
  | houseRate (h : Hdr) (rate : Nat)
  | timeWallSet (h : Hdr) (p : WallSetP)
  | perfLevel (h : Hdr) (level : Nat)
  | sleep (h : Hdr) (p : SleepP)
  | ainSet (h : Hdr) (p : CfgSetP)
  | pdmSet (h : Hdr) (p : CfgSetP)
  | aoutSet (h : Hdr) (p : SinkSetP)
  | spkSet (h : Hdr) (p : SinkSetP)
  | spkMeas (h : Hdr) (p : SpkMeasP)
  | spkWatch (h : Hdr) (p : SpkWatchP)
  | routeSet (h : Hdr) (p : RouteSetP)
  | thkSwap (h : Hdr) (mode : Nat)
  | thkFader (h : Hdr) (p : FaderP)
  | toneSet (h : Hdr) (p : ToneSetP)
  | trailCommit (h : Hdr) (p : TrailCommitP)
  | fxCommit (h : Hdr) (p : TableCommitP)
  | clipCommit (h : Hdr) (p : TableCommitP)
  | clipStart (h : Hdr) (p : ClipStartP)
  | clipCtrl (h : Hdr) (p : ClipCtrlP)
  | loopSet (h : Hdr) (p : LoopSetP)
  | loopCommit (h : Hdr) (p : LoopCommitP)
  | blkLoad (h : Hdr) (p : BlkP)
  | blkUnload (h : Hdr) (p : BlkP)
  | blkFill (h : Hdr) (p : BlkP)
  | blkTransferEnd (ring moved corrected : Nat) (data : List Byte)
  | sapSet (h : Hdr) (p : SapSetP)
  | groveSet (h : Hdr) (p : GroveSetP)
  | groveStart (h : Hdr) (grove : Nat)
  | groveStop (h : Hdr) (grove : Nat)
  | streamCtrl (h : Hdr) (p : StreamCtrlP)
  | netSync (h : Hdr) (p : NetSyncP)
  | ntxFrame (h : Hdr) (p : NtxP)
  | nrxBuf (h : Hdr) (p : NrxP)
  | nop (c : PickedHdr)
  | hpbData (h : Hdr) (p : HostDataP)
  | hcpData (h : Hdr) (p : HostDataP)
  | listenSet (h : Hdr) (p : ListenSetP)
  | listenWait (h : Hdr) (p : ListenWaitP)
  | prerollRead (h : Hdr) (p : PrerollReadP)
  | blzMark (h : Hdr) (p : BlzMarkP)
  | fwActivate (h : Hdr) (p : FwActivateP)
  | firebreakCtrl (h : Hdr) (op : Nat)
  | keyLoad (h : Hdr) (p : KeyLoadP)
  | keyClear (h : Hdr) (slot : Nat)
  | attest (h : Hdr) (p : AttestP)
  | configLoad (h : Hdr) (p : ConfigLoadP)
  | debugUnlock (h : Hdr) (p : DebugUnlockP)
  | gainMoveIncrement (input : Nat)
  | ainFeSwitch (input : Nat)
  | ainFeSettled (input : Nat)
  | ainFiltSwitch (pdm : Bool) (chan : Nat)
  | biasLimit (input : Nat) (dt : DT)
  | biasOff (input : Nat) (dt : DT)
  | pdmStuck (chan level : Nat) (dt : DT)
  | pdmRecover (chan : Nat) (dt : DT)
  | modReset (input : Nat) (dt : DT)
  | ainJackIn (jack : Nat) (pin : PinHeld)
  | ainJackOut (jack : Nat) (pin : PinHeld)
  | aoutSeqSwitch (chan : Nat)
  | aoutStageSettled (chan : Nat)
  | rangeWrite (value : Word)
  | cpFault (mv : Int) (dt : DT)
  | outputShort (chan : Nat) (dt : DT)
  | avddLoss (dt : DT)
  | vio1Loss (dt : DT)
  | avddValid (dt : DT)
  | vcmRampEnd (dt : DT)
  | vio1Valid (dt : DT)
  | hpPlugDetect (jack : Nat) (dt : DT)
  | hpIdentify (jack ohms mvSlv mvRing2 : Nat) (dt : DT)
  | hpMeasure (jack zl zr : Nat) (dt : DT)
  | hpPresent (jack : Nat) (dt : DT)
  | hpInsertAfterWake (jack : Nat) (dt : DT)
  | hpRemove (jack : Nat) (dt : DT)
  | hpBtnPress (jack microamps : Nat) (dt : DT)
  | hpBtnRelease (jack : Nat) (dt : DT)
  | boostReady (chan : Nat)
  | spkLimitEvent (chan : Nat) (dt : DT)
  | spkBroadbandShort (chan milliohms : Nat) (dt : DT)
  | spkClampRelease (bstMv : Nat)
  | spkRetryAttempt (chan : Nat) (dt : DT)
  | spkProbeEnd (chan milliohms : Nat) (dt : DT)
  | spkPilotWindow (chan : Nat) (valid : Bool) (milliohms nanohenry : Nat) (dt : DT)
  | spkPmeanUpdate (mw0 mw1 : Nat) (dt : DT)
  | spkCapTrip (chan mw : Nat) (dt : DT)
  | spkBstOvp (comparator mv : Nat) (dt : DT)
  | pvddFault (isOver : Bool) (mv : Nat) (dt : DT)
  | pvddReturn (dt : DT)
  | dieThermal (tenths : Int) (dt : DT)
  | meterReport (ok : Bool)
  | meterEnable (value : Word)
  | clipTagFail (voice block : Nat)
  | loopCopyDone (recorder moved : Nat) (dt : DT)
  | dramUe (user : MemUser) (addr : Addr) (dt : DT)
  | sramUe (word : SramWord) (addr : Nat) (dt : DT)
  | memScrubPeriodEnd (linesLeft : Nat) (dt : DT)
  | sapFrameRx (port : Nat) (edge : DT) (bclks : Nat) (line : List SapBit)
  | sapFrameTx (port : Nat) (edge : DT) (bclks : Nat)
  | sapSeqApply (port dir : Nat)
  | sapLock (port dir : Nat)
  | sapClkLoss (port dir : Nat) (dt : DT)
  | sapClkReturn (port dir : Nat) (dt : DT)
  | sapRateJump (port dir : Nat) (rate : Word) (dt : DT)
  | sapRateMeasure (port dir : Nat) (spanNs : Nat)
  | asrcLock (user : Member) (rate : Word)
  | groveMemberJoin (grove : Nat) (m : Member)
  | netPacketRx (p : Packet)
  | netRealign (ctx : Nat)
  | netStreamLoss (ctx : Nat) (dt : DT)
  | ntxEgress (ring : Nat) (dt : DT)
  | netLinkUp (mac speed : Nat)
  | netLinkDown (mac : Nat)
  | netPhyInt (mac : Nat) (dt : DT)
  | mdioGo (value : Word)
  | mdioDone (data : BitVec 16)
  | mdioLinkMonitor (mac speed : Nat)
  | netCtxSel (ctx : Word)
  | ringEnable (ring : Nat) (cfg : Word)
  | ringDisable (ring : Nat) (cfg : Word)
  | hostDmaFail (ring moved : Nat) (ringMemory : Bool) (data : List Byte)
  | hstNudge (dt : DT)
  | pcieLinkDown (l2 : Bool) (dt : DT)
  | pcieLinkUp (speed width : Nat) (dt : DT)
  | busMasterDisable (dt : DT)
  | perstAssert (dt : DT)
  | perstRelease (dt : DT)
  | barAccessInGlade (dt : DT)
  | pcieL12Exit (dt : DT)
  | registerWrite (off : Nat) (value : Word) (aligned32 : Bool)
  | apertureWrite (off : Nat) (lo : Word) (hi : Option Word) (aligned : Bool)
  | run (value : Word)
  | timeSnap
  | timeDtRead (target : Bool)
  | timeTickRead (target : Bool)
  | fltLoRead (counter : Nat)
  | clipClr (value : Word)
  | peakClr (value : Word)
  | blzRelease (seq : Word)
  | blzWinSeq (seq : Word)
  | drainEnable (value : Word)
  | avClr
  | dumpNow
  | dumpClr
  | rangerRst
  | devReset (dt : DT)
  | lock
  | bootOrder
  | hwdBootDone (image : ImageFacts)
  | cfgOrder (image : ImageFacts)
  | gpioCfgWrite (pin : Nat) (value : Word)
  | sapxCfgWrite (value : Word)
  | gpioSet (value : Word)
  | gpioClr (value : Word)
  | status (tx : Tx)
  | ident (tx : Tx)
  | dt (tx : Tx)
  | alert (tx : Tx)
  | regAddr (w : Option Word) (tx : Tx)
  | regData (w : Option Word) (tx : Tx)
  | logPtr (w : Option Word) (tx : Tx)
  | dumpPtr (w : Option Word) (tx : Tx)
  | logRead (tx : Tx)
  | dumpRead (tx : Tx)
  | wake (tx : Tx)
  | smbusAddressWake (dt : DT)
  | arm (code : BitVec 8) (tx : Tx)
  | armExpire (dt : DT)
  | recover (action : BitVec 8) (tx : Tx)
  | alertResponse (won : Bool)
  | twbAbandon (cmd : BitVec 8) (dt : DT)
  | twbSdaRelease (cmd : BitVec 8)
  | twbBusTimeout (sdaHeld : Bool) (cmd : BitVec 8) (dt : DT)
  | shadeExit (source : Nat) (dt : DT)
  | levelRaiseSwitch
  | vsettleEnd
  | sleepVoteTurn
  | sleepLinkHoldEnd (linkAway : Bool)
  | hardwareEntry (dt : DT)
  | hardwareEntryEnd (dt : DT)
  | canopyTimer (dt : DT)
  | gpioWakeLevel (pin : Nat) (dt : DT)
  | sapWakeActivity (port : Nat) (dt : DT)
  | sapWakePattern (port : Nat) (dt : DT)
  | exitStepReady (badBanks : BitVec 12) (saveUe : Bool) (dt : DT)
  | exitStepTimeout (dt : DT)
  | wakeBoundary (dt : DT)
  | coldStart (sel : BitVec 3)
  | vsysLoss (canopy : Bool)
  | resetNAssert (dt : DT)
  | resetNRelease (sel : BitVec 3) (dt : DT)
  | coreSupplyLoss (dt : DT)
  | vio2Loss
  | dramSupplyLoss (vddq : Bool)
  | dramSupplyValid (vddq : Bool)
  | lsnHop (x : HopIn)
  | prerollBlock (samples : List Word) (dt : DT)
  | lsnStop (dt : DT)
  | blzCommit (dt : DT)
  | blzSealWrite (dt : DT)
  | rateLimitSecondEnd (code key : Nat) (dt : DT)
  | heartbeatWindow (hbA hbB : Option TS) (rangerMoved : Bool) (dt : DT)
  | coreException (core : Nat) (memory : Bool) (dt : DT)
  | coppiceFirstPickup (dt : DT)
  | coppiceRetry (dt : DT)
  | standbyReady
  | fwHandover
  | fwProbationEnd (dt : DT)
  | rangerLoss (dt : DT)
  | rangerReloadDone
  | debugExpire (dt : DT)
  | busMasterEnable
  | vio2Valid (high : Bool)
  | coreSupplyReturn (dt : DT)
  | biasLimitEnd (input : Nat) (dt : DT)
  | netPps (dt : DT)
  | gpioPulseEnd (pin : Nat) (dt : DT)
  deriving DecidableEq, Repr

end Sys2Proof
end

