-- ==== Sys2Proof/Config.lean ====
section
/-! DEFINITION. What one part fixes and what the manual leaves open: the fuses of the part, the cryptographic
functions, and the free values. A constant with no body here is a value that nothing in the model constrains. -/
namespace Sys2Proof.Config

/-- A value that the manual leaves open and on which nothing else is said: the n-th such value of a run. The state
counts them, so that each is a fresh value. -/
opaque freeValue : Nat → Nat

/-- Is this exact result rounded up? The manual states the result and not the rounding of its last place. -/
opaque roundsUp : Rat → Bool

/-- How far a level lies from its exact value, where the manual states the level and not its arithmetic; it is taken up to
2^−24 in either direction. -/
opaque residue : Rat → Rat

/-- TIME_TICK_PER before there are 1,024 ticks to average over, from the boundaries so far (R50 states no value). -/
opaque tickPerEarly : List (BitVec 64) → BitVec 32

/-- The levels of the GPIO pins and of the serial port pins that the device does not drive, at the n-th observation. -/
opaque gpioPins : Nat → Nat
opaque sapxPins : Nat → Nat

/-- Word i of a slot of the Blaze window that has been released, at the n-th observation: the manual states no contents. -/
opaque windowOpen : Nat → Nat → BitVec 32

/-- Where the pole and the gain of DC removal lie in the range that a first-order high-pass of the stated corner leaves:
corner code, sample rate; taken from 0 to 1 (R94). -/
opaque dcPole : Nat → Nat → Rat
opaque dcGain : Nat → Nat → Rat

/-- How far the power cap lowers its factor in one update, in dB: the manual states only "up to 6 dB per 100 ms"
(R158). The arguments are the measure and the limit in mW. -/
opaque capFall : Nat → Nat → Rat

/-- A word of a Deadfall dump whose layout or contents the manual does not give (R478): DT of the cause, word index. -/
opaque dumpOpen : Nat → Nat → BitVec 32

/-- The next word of the maximal-length generator of the noise tones: the manual names no polynomial (R189). -/
opaque noiseNext : Nat → Nat

/-- The pink-noise filter's output for a tone from its generator's word (R189). -/
opaque pink : Nat → Nat → Int

/-- What the 64-bit output history of a biquad holds where a result exceeds it; the manual does not say (R195). -/
opaque histOverflow : Int → Int

/-- A coefficient of the windowed-sinc kernel: phase, tap, and the step from which its length and its cutoff follow. The manual
states the response that the kernel meets and not its coefficients (R226). -/
opaque kernelTap : Nat → Nat → Nat → Rat

/-- Is the Hann window of the listening transforms the symmetric one? The manual does not say (R424, R425). -/
opaque hannSymmetric : Bool

/-- AES-256-GCM's key stream (R234, R497): key, IV, byte of the block. A plaintext byte is the ciphertext byte XOR this one. -/
opaque gcmStream : BitVec 256 → BitVec 96 → Nat → Byte

/-- The P-384 public key, as an uncompressed point, of the private key that 48 bytes of derived material give (R490). -/
opaque p384Public : BitVec 384 → BitVec 776

/-- An ECDSA P-384 signature: key material, message, and which signature of a run it is. -/
opaque p384Sign : BitVec 384 → List Byte → Nat → BitVec 768

/-- A sample that the ASRC gives (R264): direction or context, slot, tick count. -/
opaque asrcValue : Nat → Nat → Nat → Int

end Sys2Proof.Config
end

