-- ==== Sys2Proof/Machine/Regs.lean ====
section
/-! DEFINITION. The registers of BAR0 (R509): the offset of every register, the place of every field, and for each
register its reset value and its writable fields with access type and range, as the register tables of the manual
state them. -/
namespace Sys2Proof.Machine

/-- A field of a register: the BAR0 offset of its register, its lowest bit and its width. -/
structure Field where
  off : Nat
  lo  : Nat
  w   : Nat
  deriving DecidableEq, Repr

/-- Access types of the writable fields (Table SC-3). -/
inductive Acc where
  | rw | rwl | w1c | w1s
  deriving DecidableEq, Repr

/-- What a field accepts on a write (R12): every value, codes up to a bound or between two bounds (any other value is
bad and leaves the field), values clamped into a range, or a source address that R8 and R26 allow, with no source. -/
inductive Range where
  | any
  | max (hi : Nat)
  | range (lo hi : Nat)
  | clamp (lo hi : Nat)
  | source
  deriving DecidableEq, Repr

/-- A writable field of a register. -/
structure FldDef where
  lo  : Nat
  w   : Nat
  acc : Acc
  rng : Range
  deriving DecidableEq, Repr

/-- A register, or a run of like registers, with its reset value. -/
structure RegDef where
  off    : Nat
  count  : Nat
  stride : Nat
  reset  : Nat
  flds   : List FldDef
  deriving DecidableEq, Repr

/-! ## Offsets -/

abbrev Reg.CLK_CTRL : Nat := 0x01000
abbrev Reg.CLK_STATUS : Nat := 0x01004
abbrev Reg.CLK_LEADER : Nat := 0x01008
abbrev Reg.CLK_DCO : Nat := 0x0100C
abbrev Reg.CLK_HOLD : Nat := 0x01010
abbrev Reg.CLK_LERR : Nat := 0x01014
abbrev Reg.CLK_SETPT : Nat := 0x01018
abbrev Reg.TIME_DT_LO : Nat := 0x02000
abbrev Reg.TIME_DT_HI : Nat := 0x02004
abbrev Reg.TIME_TS32 : Nat := 0x02008
abbrev Reg.TIME_STATUS : Nat := 0x0200C
abbrev Reg.TIME_SNAP : Nat := 0x02010
abbrev Reg.TIME_SNAP_TS32 : Nat := 0x02014
abbrev Reg.TIME_SNAP_DT_LO : Nat := 0x02018
abbrev Reg.TIME_SNAP_DT_HI : Nat := 0x0201C
abbrev Reg.TIME_SNAP_NET_LO : Nat := 0x02020
abbrev Reg.TIME_SNAP_NET_HI : Nat := 0x02024
abbrev Reg.TIME_SNAP_WALL_LO : Nat := 0x02028
abbrev Reg.TIME_SNAP_WALL_HI : Nat := 0x0202C
abbrev Reg.TIME_SNAP_STATUS : Nat := 0x02030
abbrev Reg.TIME_TICK_TS32 : Nat := 0x02034
abbrev Reg.TIME_TICK_DT_LO : Nat := 0x02038
abbrev Reg.TIME_TICK_DT_HI : Nat := 0x0203C
abbrev Reg.TIME_TICK_PER : Nat := 0x02040
abbrev Reg.TIME_NET_STEP : Nat := 0x02044
abbrev Reg.TIME_WALL_SLEWMAX : Nat := 0x02048
abbrev Reg.TIME_HIST_HEAD : Nat := 0x0204C
abbrev Reg.TIME_NET_MAP (n : Nat) : Nat := 0x02050 + 4 * n
abbrev Reg.TIME_WALL_MAP (n : Nat) : Nat := 0x02064 + 4 * n
abbrev Reg.TIME_XO_RATIO : Nat := 0x02078
abbrev Reg.TIME_HIST (n : Nat) : Nat := 0x02400 + 4 * n
abbrev Reg.AIN_PDM_CFG : Nat := 0x04000
abbrev Reg.AIN_STATUS : Nat := 0x04004
abbrev Reg.AIN_CLIP : Nat := 0x04008
abbrev Reg.AIN_FAULT : Nat := 0x0400C
abbrev Reg.AIN_JACK_CFG : Nat := 0x04010
abbrev Reg.AIN_CFG (n : Nat) : Nat := 0x04040 + 4 * n
abbrev Reg.AIN_CFG8 (n : Nat) : Nat := 0x04060 + 4 * n
abbrev Reg.AIN_CLIPCNT (n : Nat) : Nat := 0x04080 + 4 * n
abbrev Reg.AIN_PDMCH (n : Nat) : Nat := 0x040C0 + 4 * n
abbrev Reg.AIN_BIASMON (n : Nat) : Nat := 0x04100 + 4 * n
abbrev Reg.AOUT_STATUS : Nat := 0x05000
abbrev Reg.AOUT_JACK_CFG : Nat := 0x05004
abbrev Reg.AOUT_FAULT : Nat := 0x05008
abbrev Reg.AOUT_BTN : Nat := 0x0500C
abbrev Reg.AOUT_BTN_THR0 : Nat := 0x05010
abbrev Reg.AOUT_BTN_THR1 : Nat := 0x05014
abbrev Reg.AOUT_JACK_STAT (n : Nat) : Nat := 0x05018 + 4 * n
abbrev Reg.AOUT_JACK_Z (n : Nat) : Nat := 0x05020 + 4 * n
abbrev Reg.AOUT_CFG (n : Nat) : Nat := 0x05040 + 4 * n
abbrev Reg.AOUT_CFG8 (n : Nat) : Nat := 0x05060 + 4 * n
abbrev Reg.SPK_CTRL : Nat := 0x06000
abbrev Reg.SPK_STATUS : Nat := 0x06004
abbrev Reg.SPK_FAULT : Nat := 0x06008
abbrev Reg.SPK_BST : Nat := 0x0600C
abbrev Reg.SPK_CAP : Nat := 0x06010
abbrev Reg.SPK_PROT : Nat := 0x06014
abbrev Reg.SPK_PILOT : Nat := 0x06018
abbrev Reg.SPK_CFG (n : Nat) : Nat := 0x06040 + 4 * n
abbrev Reg.SPK_COIL_RES (n : Nat) : Nat := 0x06080 + 4 * n
abbrev Reg.SPK_COIL_IND (n : Nat) : Nat := 0x06088 + 4 * n
abbrev Reg.SPK_COIL_TEMP (n : Nat) : Nat := 0x06090 + 4 * n
abbrev Reg.SPK_CALDAT (n : Nat) : Nat := 0x06098 + 4 * n
abbrev Reg.SPK_PMEAN (n : Nat) : Nat := 0x060A0 + 4 * n
abbrev Reg.SPK_LIMCNT (n : Nat) : Nat := 0x060B0 + 4 * n
abbrev Reg.SPK_RAILCNT : Nat := 0x060B8
abbrev Reg.SPK_RETRY (n : Nat) : Nat := 0x060C0 + 4 * n
abbrev Reg.THK_CTRL : Nat := 0x07000
abbrev Reg.THK_STATUS : Nat := 0x07004
abbrev Reg.THK_AP_STATUS : Nat := 0x07008
abbrev Reg.THK_AP_FIRST : Nat := 0x0700C
abbrev Reg.THK_NODES_ACT : Nat := 0x07010
abbrev Reg.THK_NODES_SHD : Nat := 0x07014
abbrev Reg.THK_NODES_UNION : Nat := 0x07018
abbrev Reg.THK_METER_CFG : Nat := 0x07020
abbrev Reg.THK_METER_BASE_LO : Nat := 0x07024
abbrev Reg.THK_METER_BASE_HI : Nat := 0x07028
abbrev Reg.THK_LANE (n : Nat) : Nat := 0x07200 + 4 * n
abbrev Reg.THK_CLIPCNT (n : Nat) : Nat := 0x07800 + 4 * n
abbrev Reg.TRL_CTRL : Nat := 0x08000
abbrev Reg.TRL_STATUS : Nat := 0x08004
abbrev Reg.TRL_OWN : Nat := 0x08008
abbrev Reg.TRL_MERGE : Nat := 0x0800C
abbrev Reg.TRL_ERR : Nat := 0x08010
abbrev Reg.TRL_LIMGR (n : Nat) : Nat := 0x08040 + 4 * n
abbrev Reg.TRL_SATCNT (n : Nat) : Nat := 0x08080 + 4 * n
abbrev Reg.FX_CTRL : Nat := 0x09000
abbrev Reg.FX_STATUS : Nat := 0x09004
abbrev Reg.FX_SAT (n : Nat) : Nat := 0x09040 + 4 * n
abbrev Reg.FX_DRAMERR (n : Nat) : Nat := 0x09060 + 4 * n
abbrev Reg.FX_GR (n : Nat) : Nat := 0x09400 + 4 * n
abbrev Reg.CLP_CTRL : Nat := 0x0A000
abbrev Reg.CLP_STATUS : Nat := 0x0A004
abbrev Reg.CLP_STARVE : Nat := 0x0A008
abbrev Reg.CLP_REC_STAT (n : Nat) : Nat := 0x0A100 + 8 * n
abbrev Reg.CLP_REC_FILL (n : Nat) : Nat := 0x0A104 + 8 * n
abbrev Reg.CLP_VOICE (n : Nat) : Nat := 0x0A400 + 4 * n
abbrev Reg.SAP_RX_CFG (n : Nat) : Nat := 0x0C000 + 1024 * n
abbrev Reg.SAP_RX_FRAME (n : Nat) : Nat := 0x0C004 + 1024 * n
abbrev Reg.SAP_RX_SLOTS (n : Nat) : Nat := 0x0C008 + 1024 * n
abbrev Reg.SAP_RX_PHASE (n : Nat) : Nat := 0x0C00C + 1024 * n
abbrev Reg.SAP_TX_CFG (n : Nat) : Nat := 0x0C010 + 1024 * n
abbrev Reg.SAP_TX_FRAME (n : Nat) : Nat := 0x0C014 + 1024 * n
abbrev Reg.SAP_TX_SLOTS (n : Nat) : Nat := 0x0C018 + 1024 * n
abbrev Reg.SAP_TX_PHASE (n : Nat) : Nat := 0x0C01C + 1024 * n
abbrev Reg.SAP_STATUS (n : Nat) : Nat := 0x0C020 + 1024 * n
abbrev Reg.SAP_FAULT (n : Nat) : Nat := 0x0C024 + 1024 * n
abbrev Reg.SAP_RX_RATE (n : Nat) : Nat := 0x0C028 + 1024 * n
abbrev Reg.SAP_TX_RATE (n : Nat) : Nat := 0x0C02C + 1024 * n
abbrev Reg.SAP_RATE_THR (n : Nat) : Nat := 0x0C030 + 1024 * n
abbrev Reg.SAP_RX_FILL (n : Nat) : Nat := 0x0C034 + 1024 * n
abbrev Reg.SAP_TX_FILL (n : Nat) : Nat := 0x0C038 + 1024 * n
abbrev Reg.SAP_RX_GLITCHCNT (n : Nat) : Nat := 0x0C040 + 1024 * n
abbrev Reg.SAP_RX_MISSCNT (n : Nat) : Nat := 0x0C044 + 1024 * n
abbrev Reg.SAP_RX_LATECNT (n : Nat) : Nat := 0x0C048 + 1024 * n
abbrev Reg.SAP_RX_SLIPCNT (n : Nat) : Nat := 0x0C04C + 1024 * n
abbrev Reg.SAP_TX_GLITCHCNT (n : Nat) : Nat := 0x0C050 + 1024 * n
abbrev Reg.SAP_TX_MISSCNT (n : Nat) : Nat := 0x0C054 + 1024 * n
abbrev Reg.SAP_TX_LATECNT (n : Nat) : Nat := 0x0C058 + 1024 * n
abbrev Reg.SAP_TX_SLIPCNT (n : Nat) : Nat := 0x0C05C + 1024 * n
abbrev Reg.SAP_GRV_STATUS (n : Nat) : Nat := 0x0C380 + 1024 * n
abbrev Reg.SAP_GRV_TRIG (n : Nat) : Nat := 0x0C384 + 1024 * n
abbrev Reg.SAP_GRV_PORTS (n : Nat) : Nat := 0x0C388 + 1024 * n
abbrev Reg.SAP_GRV_RINGS_LO (n : Nat) : Nat := 0x0C38C + 1024 * n
abbrev Reg.SAP_GRV_RINGS_HI (n : Nat) : Nat := 0x0C390 + 1024 * n
abbrev Reg.SAP_GRV_NET (n : Nat) : Nat := 0x0C394 + 1024 * n
abbrev Reg.SAP_GRV_UNDERRUN (n : Nat) : Nat := 0x0C398 + 1024 * n
abbrev Reg.NET_CTRL : Nat := 0x0E000
abbrev Reg.NET_STATUS : Nat := 0x0E004
abbrev Reg.NET_GPTP : Nat := 0x0E008
abbrev Reg.NET_GPTP_STAT : Nat := 0x0E00C
abbrev Reg.NET_CBS_A0 : Nat := 0x0E010
abbrev Reg.NET_CBS_B0 : Nat := 0x0E014
abbrev Reg.NET_CBS_A1 : Nat := 0x0E018
abbrev Reg.NET_CBS_B1 : Nat := 0x0E01C
abbrev Reg.NET_RX_FILTER : Nat := 0x0E020
abbrev Reg.NET_MDIO : Nat := 0x0E024
abbrev Reg.NET_MACA_LO : Nat := 0x0E028
abbrev Reg.NET_MACA_HI : Nat := 0x0E02C
abbrev Reg.NET_MACB_LO : Nat := 0x0E030
abbrev Reg.NET_MACB_HI : Nat := 0x0E034
abbrev Reg.NET_RXBUF_BASE_LO : Nat := 0x0E038
abbrev Reg.NET_RXBUF_BASE_HI : Nat := 0x0E03C
abbrev Reg.NET_CTX_SEL : Nat := 0x0E040
abbrev Reg.NET_CTX_STAT : Nat := 0x0E044
abbrev Reg.NET_CTX_PKTCNT : Nat := 0x0E048
abbrev Reg.NET_CTX_LATECNT : Nat := 0x0E04C
abbrev Reg.NET_CTX_EARLYCNT : Nat := 0x0E050
abbrev Reg.NET_CTX_MISSCNT : Nat := 0x0E054
abbrev Reg.NET_CTX_DISCCNT : Nat := 0x0E058
abbrev Reg.NET_CTX_SLIPCNT : Nat := 0x0E05C
abbrev Reg.NET_CH_RX : Nat := 0x0E060
abbrev Reg.NET_CH_TX : Nat := 0x0E064
abbrev Reg.NET_RX_DROP : Nat := 0x0E068
abbrev Reg.NET_TX_DROP : Nat := 0x0E06C
abbrev Reg.HST_CTRL : Nat := 0x10000
abbrev Reg.HST_STATUS : Nat := 0x10004
abbrev Reg.HST_ERR : Nat := 0x10008
abbrev Reg.HST_DB_LATECNT : Nat := 0x1000C
abbrev Reg.HST_DB_BASE_LO : Nat := 0x10010
abbrev Reg.HST_DB_BASE_HI : Nat := 0x10014
abbrev Reg.HST_CP_BASE_LO : Nat := 0x10018
abbrev Reg.HST_CP_BASE_HI : Nat := 0x1001C
abbrev Reg.HST_NUDGE : Nat := 0x10020
abbrev Reg.HST_NUDGE_CNT : Nat := 0x10024
abbrev Reg.HST_WIN_VIOLCNT : Nat := 0x10028
abbrev Reg.HST_ERR_RING : Nat := 0x1002C
abbrev Reg.HST_WIN_BASE_LO (n : Nat) : Nat := 0x10100 + 16 * n
abbrev Reg.HST_WIN_BASE_HI (n : Nat) : Nat := 0x10104 + 16 * n
abbrev Reg.HST_WIN_SIZE (n : Nat) : Nat := 0x10108 + 16 * n
abbrev Reg.HST_WIN_ATTR (n : Nat) : Nat := 0x1010C + 16 * n
abbrev Reg.HST_RING_BASE_LO (n : Nat) : Nat := 0x10400 + 32 * n
abbrev Reg.HST_RING_BASE_HI (n : Nat) : Nat := 0x10404 + 32 * n
abbrev Reg.HST_RING_CFG (n : Nat) : Nat := 0x10408 + 32 * n
abbrev Reg.HST_RING_STREAM (n : Nat) : Nat := 0x1040C + 32 * n
abbrev Reg.HST_RING_LATEWIN (n : Nat) : Nat := 0x10410 + 32 * n
abbrev Reg.HST_RING_STAT (n : Nat) : Nat := 0x10414 + 32 * n
abbrev Reg.HST_RING_MISS (n : Nat) : Nat := 0x10418 + 32 * n
abbrev Reg.HST_RING_WAIT (n : Nat) : Nat := 0x1041C + 32 * n
abbrev Reg.PWR_BUD_CTRL : Nat := 0x03100
abbrev Reg.PWR_BUD_CAP : Nat := 0x03104
abbrev Reg.PWR_BUD_THK : Nat := 0x03108
abbrev Reg.PWR_BUD_FX : Nat := 0x0310C
abbrev Reg.PWR_BUD_CLP : Nat := 0x03110
abbrev Reg.PWR_BUD_DRAM : Nat := 0x03114
abbrev Reg.PWR_BUD_DRAM_CAP : Nat := 0x03118
abbrev Reg.PWR_BUD_REJCNT : Nat := 0x0311C
abbrev Reg.PWR_BUD_LAST : Nat := 0x03120
abbrev Reg.PWR_BUD_OVRCNT : Nat := 0x03124
abbrev Reg.PWR_BUD_PEND : Nat := 0x03128
abbrev Reg.TWB_CTRL : Nat := 0x11000
abbrev Reg.TWB_STATUS : Nat := 0x11004
abbrev Reg.TWB_ALERT : Nat := 0x11008
abbrev Reg.TWB_ALERT_MASK : Nat := 0x1100C
abbrev Reg.TWB_ABANDONCNT : Nat := 0x11010
abbrev Reg.TWB_PECCNT : Nat := 0x11014
abbrev Reg.TWB_TOCNT : Nat := 0x11018
abbrev Reg.TWB_RCVCNT : Nat := 0x1101C
abbrev Reg.PWR_CTRL : Nat := 0x03000
abbrev Reg.PWR_STATUS : Nat := 0x03004
abbrev Reg.PWR_SLEEP_CFG : Nat := 0x03008
abbrev Reg.PWR_SAVE_BASE_LO : Nat := 0x0300C
abbrev Reg.PWR_SAVE_BASE_HI : Nat := 0x03010
abbrev Reg.PWR_NEXT_LO : Nat := 0x03014
abbrev Reg.PWR_NEXT_HI : Nat := 0x03018
abbrev Reg.PWR_LAST_REFUSE : Nat := 0x0301C
abbrev Reg.PWR_LAST_REFUSE_TS32 : Nat := 0x03020
abbrev Reg.PWR_ABORTCNT : Nat := 0x03024
abbrev Reg.PWR_REFUSE (n : Nat) : Nat := 0x03028 + 4 * n
abbrev Reg.PWR_ENTERCNT1 (n : Nat) : Nat := 0x03040 + 4 * n
abbrev Reg.PWR_RESIDENT1 (n : Nat) : Nat := 0x03050 + 4 * n
abbrev Reg.PWR_WAKE_STAT : Nat := 0x03060
abbrev Reg.PWR_WAKE_TS32 : Nat := 0x03064
abbrev Reg.PWR_WAKE_DT_LO : Nat := 0x03068
abbrev Reg.PWR_WAKE_DT_HI : Nat := 0x0306C
abbrev Reg.PWR_WAKE_SRC_DT_LO : Nat := 0x03070
abbrev Reg.PWR_WAKE_SRC_DT_HI : Nat := 0x03074
abbrev Reg.WAK_ARM : Nat := 0x12000
abbrev Reg.WAK_SAP : Nat := 0x12004
abbrev Reg.WAK_GPIO : Nat := 0x12008
abbrev Reg.WAK_LATCH : Nat := 0x1200C
abbrev Reg.WAK_LSN_CTRL : Nat := 0x12100
abbrev Reg.WAK_LSN_MASK : Nat := 0x12104
abbrev Reg.WAK_LSN_ONSET : Nat := 0x12108
abbrev Reg.WAK_LSN_VAD : Nat := 0x1210C
abbrev Reg.WAK_LSN_STATUS : Nat := 0x12110
abbrev Reg.WAK_LSN_NOISE : Nat := 0x12114
abbrev Reg.WAK_LSN_DETCNT : Nat := 0x12118
abbrev Reg.WAK_LSN_LAST_DT_LO : Nat := 0x1211C
abbrev Reg.WAK_LSN_LAST_DT_HI : Nat := 0x12120
abbrev Reg.WAK_LSN_LAST_INFO : Nat := 0x12124
abbrev Reg.WAK_LSN_PR_SEQ : Nat := 0x12128
abbrev Reg.WAK_LSN_AP : Nat := 0x1212C
abbrev Reg.BLZ_CTRL : Nat := 0x13000
abbrev Reg.BLZ_STATUS : Nat := 0x13004
abbrev Reg.BLZ_SEQ_NEXT : Nat := 0x13008
abbrev Reg.BLZ_SEQ_OLDEST : Nat := 0x1300C
abbrev Reg.BLZ_DRAIN_SEQ : Nat := 0x13010
abbrev Reg.BLZ_RELEASE : Nat := 0x13014
abbrev Reg.BLZ_DROP (n : Nat) : Nat := 0x13020 + 4 * n
abbrev Reg.BLZ_STAGE_DROP : Nat := 0x1303C
abbrev Reg.BLZ_COALCNT : Nat := 0x13040
abbrev Reg.BLZ_EVT_LOST : Nat := 0x13044
abbrev Reg.BLZ_WIN_SEQ : Nat := 0x13080
abbrev Reg.BLZ_WIN_STAT : Nat := 0x13084
abbrev Reg.BLZ_WINW (n : Nat) : Nat := 0x130A0 + 4 * n
abbrev Reg.FLT_CTRL : Nat := 0x14000
abbrev Reg.FLT_STATUS : Nat := 0x14004
abbrev Reg.FLT_FAULT : Nat := 0x14008
abbrev Reg.FLT_RANGER_CFG : Nat := 0x1400C
abbrev Reg.FLT_COPPICE_CNT : Nat := 0x14010
abbrev Reg.FLT_DUMP_SKIP : Nat := 0x14014
abbrev Reg.FLT_DUMP_HOST_LO : Nat := 0x14018
abbrev Reg.FLT_DUMP_HOST_HI : Nat := 0x1401C
abbrev Reg.FLT_DUMP_DRAM_LO : Nat := 0x14020
abbrev Reg.FLT_DUMP_DRAM_HI : Nat := 0x14024
abbrev Reg.FLT_FW_VER : Nat := 0x14028
abbrev Reg.FLT_AV_GOOD_LO : Nat := 0x14040
abbrev Reg.FLT_AV_GOOD_HI : Nat := 0x14044
abbrev Reg.FLT_AV_BAD_LO : Nat := 0x14048
abbrev Reg.FLT_AV_BAD_HI : Nat := 0x1404C
abbrev Reg.FLT_AV_EXT_LO : Nat := 0x14050
abbrev Reg.FLT_AV_EXT_HI : Nat := 0x14054
abbrev Reg.FLT_AV_HOST_LO : Nat := 0x14058
abbrev Reg.FLT_AV_HOST_HI : Nat := 0x1405C
abbrev Reg.MEM_CFG : Nat := 0x0B000
abbrev Reg.MEM_STATUS : Nat := 0x0B004
abbrev Reg.MEM_USABLE : Nat := 0x0B008
abbrev Reg.MEM_SCRUB : Nat := 0x0B00C
abbrev Reg.MEM_SCRUB_PASS : Nat := 0x0B010
abbrev Reg.MEM_CE_CNT : Nat := 0x0B014
abbrev Reg.MEM_UE_CNT : Nat := 0x0B018
abbrev Reg.MEM_SRAM_CE_CNT : Nat := 0x0B01C
abbrev Reg.MEM_SRAM_UE_CNT : Nat := 0x0B020
abbrev Reg.MEM_ERR_ADDR_LO : Nat := 0x0B024
abbrev Reg.MEM_ERR_ADDR_HI : Nat := 0x0B028
abbrev Reg.HWD_STATUS : Nat := 0x15000
abbrev Reg.HWD_BOOT_ADDR_LO : Nat := 0x15004
abbrev Reg.HWD_BOOT_ADDR_HI : Nat := 0x15008
abbrev Reg.HWD_BOOT_LEN : Nat := 0x1500C
abbrev Reg.HWD_BOOT_CTRL : Nat := 0x15010
abbrev Reg.HWD_BOOT_STAT : Nat := 0x15014
abbrev Reg.HWD_CFG_ADDR_LO : Nat := 0x15018
abbrev Reg.HWD_CFG_ADDR_HI : Nat := 0x1501C
abbrev Reg.HWD_CFG_LEN : Nat := 0x15020
abbrev Reg.HWD_CFG_CTRL : Nat := 0x15024
abbrev Reg.HWD_CFG_HASH (n : Nat) : Nat := 0x15040 + 4 * n
abbrev Reg.HWD_DEV_ID (n : Nat) : Nat := 0x15060 + 4 * n
abbrev Reg.HWD_ARB : Nat := 0x15070
abbrev Reg.HWD_POLICY : Nat := 0x15074
abbrev Reg.HWD_ROOT_SET : Nat := 0x15078
abbrev Reg.HWD_DBG_NONCE_LO : Nat := 0x1507C
abbrev Reg.HWD_DBG_NONCE_HI : Nat := 0x15080
abbrev Reg.TOP_ID : Nat := 0x00000
abbrev Reg.TOP_STEP : Nat := 0x00004
abbrev Reg.TOP_STATUS : Nat := 0x00008
abbrev Reg.TOP_LOCK : Nat := 0x0000C
abbrev Reg.TOP_LOCK_TS32 : Nat := 0x00010
abbrev Reg.TOP_LOCKED_WRCNT : Nat := 0x00014
abbrev Reg.TOP_RESET : Nat := 0x00018
abbrev Reg.TOP_TEMP : Nat := 0x0001C
abbrev Reg.TOP_SCRATCH (n : Nat) : Nat := 0x00020 + 4 * n
abbrev Reg.PIN_GPIO_CFG (n : Nat) : Nat := 0x16000 + 4 * n
abbrev Reg.PIN_GPIO_OUT : Nat := 0x16040
abbrev Reg.PIN_GPIO_SET : Nat := 0x16044
abbrev Reg.PIN_GPIO_CLR : Nat := 0x16048
abbrev Reg.PIN_GPIO_IN : Nat := 0x1604C
abbrev Reg.PIN_SAPX_CFG : Nat := 0x16050
abbrev Reg.PIN_SAPX_OUT : Nat := 0x16054
abbrev Reg.PIN_SAPX_IN : Nat := 0x16058
abbrev Reg.PIN_DRIVE : Nat := 0x1605C
abbrev Reg.PIN_STATUS : Nat := 0x16060
abbrev Reg.PIN_CLAIM : Nat := 0x16064
abbrev Reg.PIN_CLAIMCNT : Nat := 0x16068
abbrev Reg.MSIX_ADDR_LO (n : Nat) : Nat := 0x3E000 + 16 * n
abbrev Reg.MSIX_ADDR_HI (n : Nat) : Nat := 0x3E004 + 16 * n
abbrev Reg.MSIX_DATA (n : Nat) : Nat := 0x3E008 + 16 * n
abbrev Reg.MSIX_CTRL (n : Nat) : Nat := 0x3E00C + 16 * n
abbrev Reg.MSIX_PBA : Nat := 0x3F000

/-! ## Fields -/

abbrev Fl.CLK_CTRL.MCLK_IO_MODE : Field := ⟨0x01000, 12, 4⟩
abbrev Fl.CLK_CTRL.FD_INIT : Field := ⟨0x01000, 8, 3⟩
abbrev Fl.CLK_CTRL.XTAL_SEL : Field := ⟨0x01000, 1, 1⟩
abbrev Fl.CLK_CTRL.RUN : Field := ⟨0x01000, 0, 1⟩
abbrev Fl.CLK_STATUS.FD_CUR : Field := ⟨0x01004, 13, 3⟩
abbrev Fl.CLK_STATUS.FAMILY : Field := ⟨0x01004, 12, 1⟩
abbrev Fl.CLK_STATUS.RATE_BUSY : Field := ⟨0x01004, 11, 1⟩
abbrev Fl.CLK_STATUS.LEADER_STATE : Field := ⟨0x01004, 8, 3⟩
abbrev Fl.CLK_STATUS.MCLK_EXT : Field := ⟨0x01004, 2, 1⟩
abbrev Fl.CLK_STATUS.CFG_ERR : Field := ⟨0x01004, 1, 1⟩
abbrev Fl.CLK_STATUS.PLL_LOCK : Field := ⟨0x01004, 0, 1⟩
abbrev Fl.CLK_LEADER.BW : Field := ⟨0x01008, 24, 3⟩
abbrev Fl.CLK_LEADER.KIND : Field := ⟨0x01008, 16, 3⟩
abbrev Fl.CLK_LEADER.INDEX : Field := ⟨0x01008, 0, 10⟩
abbrev Fl.CLK_DCO.WORD : Field := ⟨0x0100C, 0, 24⟩
abbrev Fl.TIME_STATUS.PEND : Field := ⟨0x0200C, 16, 14⟩
abbrev Fl.TIME_STATUS.NET_SLEWING : Field := ⟨0x0200C, 12, 1⟩
abbrev Fl.TIME_STATUS.WALL_SLEWING : Field := ⟨0x0200C, 11, 1⟩
abbrev Fl.TIME_STATUS.WALL_VALID : Field := ⟨0x0200C, 10, 1⟩
abbrev Fl.TIME_STATUS.NET_HOLD : Field := ⟨0x0200C, 9, 1⟩
abbrev Fl.TIME_STATUS.NET_VALID : Field := ⟨0x0200C, 8, 1⟩
abbrev Fl.TIME_STATUS.EPOCH : Field := ⟨0x0200C, 0, 8⟩
abbrev Fl.TIME_SNAP.SNAP : Field := ⟨0x02010, 0, 1⟩
abbrev Fl.TIME_NET_STEP.VAL : Field := ⟨0x02044, 0, 32⟩
abbrev Fl.AIN_PDM_CFG.SWAP : Field := ⟨0x04000, 8, 4⟩
abbrev Fl.AIN_PDM_CFG.RATE3 : Field := ⟨0x04000, 6, 2⟩
abbrev Fl.AIN_PDM_CFG.RATE2 : Field := ⟨0x04000, 4, 2⟩
abbrev Fl.AIN_PDM_CFG.RATE1 : Field := ⟨0x04000, 2, 2⟩
abbrev Fl.AIN_PDM_CFG.RATE0 : Field := ⟨0x04000, 0, 2⟩
abbrev Fl.AIN_STATUS.PDM_RATE_ERR : Field := ⟨0x04004, 24, 4⟩
abbrev Fl.AIN_STATUS.BIAS_ON : Field := ⟨0x04004, 16, 8⟩
abbrev Fl.AIN_STATUS.JACK : Field := ⟨0x04004, 12, 2⟩
abbrev Fl.AIN_STATUS.BUSY : Field := ⟨0x04004, 0, 10⟩
abbrev Fl.AIN_CLIP.PDM_DCLIP : Field := ⟨0x04008, 24, 8⟩
abbrev Fl.AIN_CLIP.DCLIP : Field := ⟨0x04008, 10, 10⟩
abbrev Fl.AIN_CLIP.ACLIP : Field := ⟨0x04008, 0, 10⟩
abbrev Fl.AIN_FAULT.PDM_STUCK : Field := ⟨0x0400C, 24, 8⟩
abbrev Fl.AIN_FAULT.BIAS_OFF : Field := ⟨0x0400C, 16, 8⟩
abbrev Fl.AIN_FAULT.BIAS_LIMIT : Field := ⟨0x0400C, 8, 8⟩
abbrev Fl.AIN_JACK_CFG.ACT : Field := ⟨0x04010, 16, 2⟩
abbrev Fl.AIN_JACK_CFG.DEBOUNCE : Field := ⟨0x04010, 0, 8⟩
abbrev Fl.AIN_CFG.EN (n : Nat) : Field := ⟨0x04040 + 4 * n, 31, 1⟩
abbrev Fl.AIN_CFG.MUTE (n : Nat) : Field := ⟨0x04040 + 4 * n, 29, 1⟩
abbrev Fl.AIN_CFG.HS_LINK (n : Nat) : Field := ⟨0x04040 + 4 * n, 28, 1⟩
abbrev Fl.AIN_CFG.FILT (n : Nat) : Field := ⟨0x04040 + 4 * n, 26, 2⟩
abbrev Fl.AIN_CFG.DC (n : Nat) : Field := ⟨0x04040 + 4 * n, 23, 3⟩
abbrev Fl.AIN_CFG.SOFT (n : Nat) : Field := ⟨0x04040 + 4 * n, 21, 2⟩
abbrev Fl.AIN_CFG.BIAS (n : Nat) : Field := ⟨0x04040 + 4 * n, 16, 5⟩
abbrev Fl.AIN_CFG.GAIN (n : Nat) : Field := ⟨0x04040 + 4 * n, 8, 8⟩
abbrev Fl.AIN_CFG.MODE (n : Nat) : Field := ⟨0x04040 + 4 * n, 0, 2⟩
abbrev Fl.AIN_PDMCH.EN (n : Nat) : Field := ⟨0x040C0 + 4 * n, 31, 1⟩
abbrev Fl.AIN_PDMCH.MUTE (n : Nat) : Field := ⟨0x040C0 + 4 * n, 29, 1⟩
abbrev Fl.AIN_PDMCH.FILT (n : Nat) : Field := ⟨0x040C0 + 4 * n, 26, 2⟩
abbrev Fl.AIN_PDMCH.DC (n : Nat) : Field := ⟨0x040C0 + 4 * n, 23, 3⟩
abbrev Fl.AIN_PDMCH.SOFT (n : Nat) : Field := ⟨0x040C0 + 4 * n, 21, 2⟩
abbrev Fl.AOUT_STATUS.CP_ON : Field := ⟨0x05000, 19, 1⟩
abbrev Fl.AOUT_STATUS.VCM_OK : Field := ⟨0x05000, 18, 1⟩
abbrev Fl.AOUT_STATUS.JACK : Field := ⟨0x05000, 16, 2⟩
abbrev Fl.AOUT_STATUS.BUSY : Field := ⟨0x05000, 0, 12⟩
abbrev Fl.AOUT_JACK_CFG.RANGE : Field := ⟨0x05004, 12, 2⟩
abbrev Fl.AOUT_JACK_CFG.AUTO_RANGE : Field := ⟨0x05004, 10, 2⟩
abbrev Fl.AOUT_JACK_CFG.BTN : Field := ⟨0x05004, 8, 2⟩
abbrev Fl.AOUT_JACK_CFG.HSID : Field := ⟨0x05004, 4, 2⟩
abbrev Fl.AOUT_JACK_CFG.ACT : Field := ⟨0x05004, 0, 2⟩
abbrev Fl.AOUT_FAULT.VIO1_LOSS : Field := ⟨0x05008, 25, 1⟩
abbrev Fl.AOUT_FAULT.AVDD_LOSS : Field := ⟨0x05008, 24, 1⟩
abbrev Fl.AOUT_FAULT.CP_FAULT : Field := ⟨0x05008, 20, 1⟩
abbrev Fl.AOUT_FAULT.HP_OCP : Field := ⟨0x05008, 16, 4⟩
abbrev Fl.AOUT_FAULT.LINE_OCP : Field := ⟨0x05008, 0, 8⟩
abbrev Fl.AOUT_BTN.PRESS1 : Field := ⟨0x0500C, 11, 3⟩
abbrev Fl.AOUT_BTN.PRESS0 : Field := ⟨0x0500C, 8, 3⟩
abbrev Fl.AOUT_BTN.CUR1 : Field := ⟨0x0500C, 4, 2⟩
abbrev Fl.AOUT_BTN.CUR0 : Field := ⟨0x0500C, 0, 2⟩
abbrev Fl.AOUT_BTN_THR0.A_MIN : Field := ⟨0x05010, 16, 16⟩
abbrev Fl.AOUT_BTN_THR0.B_MIN : Field := ⟨0x05010, 0, 16⟩
abbrev Fl.AOUT_BTN_THR1.C_MIN : Field := ⟨0x05014, 0, 16⟩
abbrev Fl.AOUT_JACK_STAT.LO (n : Nat) : Field := ⟨0x05018 + 4 * n, 11, 1⟩
abbrev Fl.AOUT_JACK_STAT.CLASS (n : Nat) : Field := ⟨0x05018 + 4 * n, 8, 3⟩
abbrev Fl.AOUT_JACK_STAT.POLES (n : Nat) : Field := ⟨0x05018 + 4 * n, 0, 3⟩
abbrev Fl.AOUT_JACK_Z.Z_L (n : Nat) : Field := ⟨0x05020 + 4 * n, 16, 16⟩
abbrev Fl.AOUT_JACK_Z.Z_R (n : Nat) : Field := ⟨0x05020 + 4 * n, 0, 16⟩
abbrev Fl.AOUT_CFG.EN (n : Nat) : Field := ⟨0x05040 + 4 * n, 31, 1⟩
abbrev Fl.AOUT_CFG.MUTE (n : Nat) : Field := ⟨0x05040 + 4 * n, 29, 1⟩
abbrev Fl.AOUT_CFG.FILT (n : Nat) : Field := ⟨0x05040 + 4 * n, 26, 2⟩
abbrev Fl.AOUT_CFG.MRAMP (n : Nat) : Field := ⟨0x05040 + 4 * n, 24, 2⟩
abbrev Fl.SPK_CTRL.SLEW : Field := ⟨0x06000, 14, 2⟩
abbrev Fl.SPK_CTRL.REL : Field := ⟨0x06000, 12, 2⟩
abbrev Fl.SPK_CTRL.HR : Field := ⟨0x06000, 8, 4⟩
abbrev Fl.SPK_STATUS.LATCH : Field := ⟨0x06004, 26, 2⟩
abbrev Fl.SPK_STATUS.RETRYING : Field := ⟨0x06004, 24, 2⟩
abbrev Fl.SPK_STATUS.PILOT : Field := ⟨0x06004, 22, 2⟩
abbrev Fl.SPK_STATUS.CAPPING : Field := ⟨0x06004, 20, 2⟩
abbrev Fl.SPK_STATUS.OT : Field := ⟨0x06004, 18, 2⟩
abbrev Fl.SPK_STATUS.RAIL : Field := ⟨0x06004, 16, 2⟩
abbrev Fl.SPK_STATUS.ISO_OPEN : Field := ⟨0x06004, 12, 1⟩
abbrev Fl.SPK_STATUS.TRAIL_OWN : Field := ⟨0x06004, 8, 2⟩
abbrev Fl.SPK_STATUS.CLASS1 : Field := ⟨0x06004, 6, 2⟩
abbrev Fl.SPK_STATUS.CLASS0 : Field := ⟨0x06004, 4, 2⟩
abbrev Fl.SPK_STATUS.BUSY : Field := ⟨0x06004, 0, 2⟩
abbrev Fl.SPK_FAULT.PVDD_OV : Field := ⟨0x06008, 25, 1⟩
abbrev Fl.SPK_FAULT.PVDD_UV : Field := ⟨0x06008, 24, 1⟩
abbrev Fl.SPK_FAULT.BST_OVP : Field := ⟨0x06008, 23, 1⟩
abbrev Fl.SPK_FAULT.THERMAL : Field := ⟨0x06008, 22, 1⟩
abbrev Fl.SPK_FAULT.GIVEUP : Field := ⟨0x06008, 18, 2⟩
abbrev Fl.SPK_FAULT.CAP_TRIP : Field := ⟨0x06008, 16, 2⟩
abbrev Fl.SPK_FAULT.SOFT_SHORT : Field := ⟨0x06008, 14, 2⟩
abbrev Fl.SPK_FAULT.OT : Field := ⟨0x06008, 12, 2⟩
abbrev Fl.SPK_FAULT.OPEN : Field := ⟨0x06008, 10, 2⟩
abbrev Fl.SPK_FAULT.OCP_LATCH : Field := ⟨0x06008, 0, 2⟩
abbrev Fl.SPK_CAP.MODE0 : Field := ⟨0x06010, 30, 2⟩
abbrev Fl.SPK_CAP.MODE1 : Field := ⟨0x06010, 28, 2⟩
abbrev Fl.SPK_CAP.MODE_TOT : Field := ⟨0x06010, 26, 2⟩
abbrev Fl.SPK_CAP.CUSTOM_W : Field := ⟨0x06010, 0, 16⟩
abbrev Fl.SPK_PROT.RETRY_MAX : Field := ⟨0x06014, 24, 8⟩
abbrev Fl.SPK_PROT.OPEN_Z : Field := ⟨0x06014, 16, 8⟩
abbrev Fl.SPK_PROT.SHORT_Z : Field := ⟨0x06014, 8, 8⟩
abbrev Fl.SPK_PROT.TMAX : Field := ⟨0x06014, 0, 8⟩
abbrev Fl.SPK_PILOT.UFREQ : Field := ⟨0x06018, 16, 8⟩
abbrev Fl.SPK_PILOT.SFREQ : Field := ⟨0x06018, 8, 8⟩
abbrev Fl.SPK_PILOT.ALU : Field := ⟨0x06018, 4, 1⟩
abbrev Fl.SPK_PILOT.WIN : Field := ⟨0x06018, 2, 2⟩
abbrev Fl.SPK_CFG.EN (n : Nat) : Field := ⟨0x06040 + 4 * n, 31, 1⟩
abbrev Fl.SPK_CFG.MUTE (n : Nat) : Field := ⟨0x06040 + 4 * n, 29, 1⟩
abbrev Fl.SPK_CFG.FILT (n : Nat) : Field := ⟨0x06040 + 4 * n, 26, 2⟩
abbrev Fl.SPK_CFG.MRAMP (n : Nat) : Field := ⟨0x06040 + 4 * n, 24, 2⟩
abbrev Fl.SPK_CFG.FSV (n : Nat) : Field := ⟨0x06040 + 4 * n, 21, 3⟩
abbrev Fl.SPK_CFG.TRAIL_HR (n : Nat) : Field := ⟨0x06040 + 4 * n, 19, 2⟩
abbrev Fl.SPK_CFG.OT_ACT (n : Nat) : Field := ⟨0x06040 + 4 * n, 18, 1⟩
abbrev Fl.THK_CTRL.CLIP_CLR : Field := ⟨0x07000, 2, 1⟩
abbrev Fl.THK_CTRL.SWAP_EN : Field := ⟨0x07000, 1, 1⟩
abbrev Fl.THK_CTRL.READ_ACTIVE : Field := ⟨0x07000, 0, 1⟩
abbrev Fl.THK_STATUS.SHADOW_LOCK : Field := ⟨0x07004, 31, 1⟩
abbrev Fl.THK_STATUS.SWAP_PEND : Field := ⟨0x07004, 30, 1⟩
abbrev Fl.THK_STATUS.METER_ERR : Field := ⟨0x07004, 29, 1⟩
abbrev Fl.THK_STATUS.FADERS : Field := ⟨0x07004, 16, 13⟩
abbrev Fl.THK_STATUS.DUAL : Field := ⟨0x07004, 0, 7⟩
abbrev Fl.THK_AP_STATUS.BAD : Field := ⟨0x07008, 31, 1⟩
abbrev Fl.THK_AP_STATUS.DISCARD : Field := ⟨0x07008, 30, 1⟩
abbrev Fl.THK_AP_STATUS.COUNT : Field := ⟨0x07008, 0, 16⟩
abbrev Fl.THK_METER_CFG.EN : Field := ⟨0x07020, 31, 1⟩
abbrev Fl.THK_METER_CFG.PERIOD : Field := ⟨0x07020, 0, 16⟩
abbrev Fl.THK_METER_BASE_LO.BASE : Field := ⟨0x07024, 8, 24⟩
abbrev Fl.THK_LANE.SRC2 (n : Nat) : Field := ⟨0x07200 + 4 * n, 16, 16⟩
abbrev Fl.THK_LANE.SRC (n : Nat) : Field := ⟨0x07200 + 4 * n, 0, 16⟩
abbrev Fl.TRL_CTRL.READ_ACTIVE : Field := ⟨0x08000, 0, 1⟩
abbrev Fl.TRL_ERR.CH : Field := ⟨0x08010, 0, 16⟩
abbrev Fl.FX_CTRL.READ_ACTIVE : Field := ⟨0x09000, 0, 1⟩
abbrev Fl.FX_STATUS.SHADOW_LOCK : Field := ⟨0x09004, 31, 1⟩
abbrev Fl.FX_STATUS.DRAM_LINES : Field := ⟨0x09004, 16, 9⟩
abbrev Fl.FX_STATUS.ENABLED : Field := ⟨0x09004, 0, 9⟩
abbrev Fl.FX_SAT.SLOT (n : Nat) : Field := ⟨0x09040 + 4 * n, 0, 32⟩
abbrev Fl.FX_DRAMERR.SLOT (n : Nat) : Field := ⟨0x09060 + 4 * n, 0, 32⟩
abbrev Fl.CLP_CTRL.READ_ACTIVE : Field := ⟨0x0A000, 0, 1⟩
abbrev Fl.CLP_STATUS.SHADOW_LOCK : Field := ⟨0x0A004, 31, 1⟩
abbrev Fl.CLP_STATUS.VOICES : Field := ⟨0x0A004, 16, 9⟩
abbrev Fl.CLP_STATUS.TAILS : Field := ⟨0x0A004, 0, 6⟩
abbrev Fl.CLP_REC_STAT.EN (n : Nat) : Field := ⟨0x0A100 + 8 * n, 31, 1⟩
abbrev Fl.CLP_REC_STAT.COMMIT (n : Nat) : Field := ⟨0x0A100 + 8 * n, 30, 1⟩
abbrev Fl.CLP_REC_STAT.PLAY (n : Nat) : Field := ⟨0x0A100 + 8 * n, 29, 1⟩
abbrev Fl.CLP_VOICE.STATE (n : Nat) : Field := ⟨0x0A400 + 4 * n, 30, 2⟩
abbrev Fl.CLP_VOICE.CLAMP (n : Nat) : Field := ⟨0x0A400 + 4 * n, 29, 1⟩
abbrev Fl.CLP_VOICE.SEG (n : Nat) : Field := ⟨0x0A400 + 4 * n, 27, 2⟩
abbrev Fl.CLP_VOICE.CLIP (n : Nat) : Field := ⟨0x0A400 + 4 * n, 12, 12⟩
abbrev Fl.SAP_RX_CFG.EN (n : Nat) : Field := ⟨0x0C000 + 1024 * n, 31, 1⟩
abbrev Fl.SAP_RX_CFG.ROLE (n : Nat) : Field := ⟨0x0C000 + 1024 * n, 29, 2⟩
abbrev Fl.SAP_RX_CFG.BCLK_INV (n : Nat) : Field := ⟨0x0C000 + 1024 * n, 28, 1⟩
abbrev Fl.SAP_RX_CFG.FS_INV (n : Nat) : Field := ⟨0x0C000 + 1024 * n, 27, 1⟩
abbrev Fl.SAP_RX_CFG.TRI (n : Nat) : Field := ⟨0x0C000 + 1024 * n, 26, 1⟩
abbrev Fl.SAP_RX_CFG.CLK_SHARE (n : Nat) : Field := ⟨0x0C000 + 1024 * n, 25, 1⟩
abbrev Fl.SAP_RX_CFG.FMT (n : Nat) : Field := ⟨0x0C000 + 1024 * n, 23, 2⟩
abbrev Fl.SAP_RX_CFG.SLOTW (n : Nat) : Field := ⟨0x0C000 + 1024 * n, 21, 2⟩
abbrev Fl.SAP_RX_CFG.DATAW (n : Nat) : Field := ⟨0x0C000 + 1024 * n, 15, 6⟩
abbrev Fl.SAP_RX_CFG.OFFSET (n : Nat) : Field := ⟨0x0C000 + 1024 * n, 10, 5⟩
abbrev Fl.SAP_RX_CFG.NSLOTS (n : Nat) : Field := ⟨0x0C000 + 1024 * n, 5, 5⟩
abbrev Fl.SAP_RX_CFG.DEPTH (n : Nat) : Field := ⟨0x0C000 + 1024 * n, 3, 2⟩
abbrev Fl.SAP_RX_CFG.SMUTE (n : Nat) : Field := ⟨0x0C000 + 1024 * n, 1, 2⟩
abbrev Fl.SAP_RX_FRAME.NOMRATE (n : Nat) : Field := ⟨0x0C004 + 1024 * n, 14, 18⟩
abbrev Fl.SAP_RX_FRAME.FRAME_LEN (n : Nat) : Field := ⟨0x0C004 + 1024 * n, 0, 11⟩
abbrev Fl.SAP_RX_PHASE.PHASE (n : Nat) : Field := ⟨0x0C00C + 1024 * n, 0, 8⟩
abbrev Fl.SAP_TX_CFG.EN (n : Nat) : Field := ⟨0x0C010 + 1024 * n, 31, 1⟩
abbrev Fl.SAP_TX_CFG.ROLE (n : Nat) : Field := ⟨0x0C010 + 1024 * n, 29, 2⟩
abbrev Fl.SAP_TX_CFG.BCLK_INV (n : Nat) : Field := ⟨0x0C010 + 1024 * n, 28, 1⟩
abbrev Fl.SAP_TX_CFG.FS_INV (n : Nat) : Field := ⟨0x0C010 + 1024 * n, 27, 1⟩
abbrev Fl.SAP_TX_CFG.TRI (n : Nat) : Field := ⟨0x0C010 + 1024 * n, 26, 1⟩
abbrev Fl.SAP_TX_CFG.CLK_SHARE (n : Nat) : Field := ⟨0x0C010 + 1024 * n, 25, 1⟩
abbrev Fl.SAP_TX_CFG.FMT (n : Nat) : Field := ⟨0x0C010 + 1024 * n, 23, 2⟩
abbrev Fl.SAP_TX_CFG.SLOTW (n : Nat) : Field := ⟨0x0C010 + 1024 * n, 21, 2⟩
abbrev Fl.SAP_TX_CFG.DATAW (n : Nat) : Field := ⟨0x0C010 + 1024 * n, 15, 6⟩
abbrev Fl.SAP_TX_CFG.OFFSET (n : Nat) : Field := ⟨0x0C010 + 1024 * n, 10, 5⟩
abbrev Fl.SAP_TX_CFG.NSLOTS (n : Nat) : Field := ⟨0x0C010 + 1024 * n, 5, 5⟩
abbrev Fl.SAP_TX_CFG.DEPTH (n : Nat) : Field := ⟨0x0C010 + 1024 * n, 3, 2⟩
abbrev Fl.SAP_TX_CFG.SMUTE (n : Nat) : Field := ⟨0x0C010 + 1024 * n, 1, 2⟩
abbrev Fl.SAP_TX_FRAME.NOMRATE (n : Nat) : Field := ⟨0x0C014 + 1024 * n, 14, 18⟩
abbrev Fl.SAP_TX_FRAME.FRAME_LEN (n : Nat) : Field := ⟨0x0C014 + 1024 * n, 0, 11⟩
abbrev Fl.SAP_TX_PHASE.PHASE (n : Nat) : Field := ⟨0x0C01C + 1024 * n, 0, 8⟩
abbrev Fl.SAP_STATUS.TX_STATE (n : Nat) : Field := ⟨0x0C020 + 1024 * n, 29, 3⟩
abbrev Fl.SAP_STATUS.TX_RUN (n : Nat) : Field := ⟨0x0C020 + 1024 * n, 28, 1⟩
abbrev Fl.SAP_STATUS.TX_BUSY (n : Nat) : Field := ⟨0x0C020 + 1024 * n, 27, 1⟩
abbrev Fl.SAP_STATUS.TX_ASRC_LOCK (n : Nat) : Field := ⟨0x0C020 + 1024 * n, 26, 1⟩
abbrev Fl.SAP_STATUS.TX_GROVE (n : Nat) : Field := ⟨0x0C020 + 1024 * n, 22, 4⟩
abbrev Fl.SAP_STATUS.RX_STATE (n : Nat) : Field := ⟨0x0C020 + 1024 * n, 13, 3⟩
abbrev Fl.SAP_STATUS.RX_RUN (n : Nat) : Field := ⟨0x0C020 + 1024 * n, 12, 1⟩
abbrev Fl.SAP_STATUS.RX_BUSY (n : Nat) : Field := ⟨0x0C020 + 1024 * n, 11, 1⟩
abbrev Fl.SAP_STATUS.RX_ASRC_LOCK (n : Nat) : Field := ⟨0x0C020 + 1024 * n, 10, 1⟩
abbrev Fl.SAP_STATUS.RX_GROVE (n : Nat) : Field := ⟨0x0C020 + 1024 * n, 6, 4⟩
abbrev Fl.SAP_FAULT.TX_RATE_CHG (n : Nat) : Field := ⟨0x0C024 + 1024 * n, 20, 1⟩
abbrev Fl.SAP_FAULT.TX_SLIP (n : Nat) : Field := ⟨0x0C024 + 1024 * n, 19, 1⟩
abbrev Fl.SAP_FAULT.TX_RATE_JUMP (n : Nat) : Field := ⟨0x0C024 + 1024 * n, 18, 1⟩
abbrev Fl.SAP_FAULT.TX_GLITCH (n : Nat) : Field := ⟨0x0C024 + 1024 * n, 17, 1⟩
abbrev Fl.SAP_FAULT.TX_LOSS (n : Nat) : Field := ⟨0x0C024 + 1024 * n, 16, 1⟩
abbrev Fl.SAP_FAULT.RX_RATE_CHG (n : Nat) : Field := ⟨0x0C024 + 1024 * n, 4, 1⟩
abbrev Fl.SAP_FAULT.RX_SLIP (n : Nat) : Field := ⟨0x0C024 + 1024 * n, 3, 1⟩
abbrev Fl.SAP_FAULT.RX_RATE_JUMP (n : Nat) : Field := ⟨0x0C024 + 1024 * n, 2, 1⟩
abbrev Fl.SAP_FAULT.RX_GLITCH (n : Nat) : Field := ⟨0x0C024 + 1024 * n, 1, 1⟩
abbrev Fl.SAP_FAULT.RX_LOSS (n : Nat) : Field := ⟨0x0C024 + 1024 * n, 0, 1⟩
abbrev Fl.SAP_RATE_THR.THR (n : Nat) : Field := ⟨0x0C030 + 1024 * n, 0, 16⟩
abbrev Fl.SAP_GRV_STATUS.STATE (n : Nat) : Field := ⟨0x0C380 + 1024 * n, 30, 2⟩
abbrev Fl.SAP_GRV_STATUS.LATE (n : Nat) : Field := ⟨0x0C380 + 1024 * n, 0, 16⟩
abbrev Fl.NET_CTRL.ETHB_EN : Field := ⟨0x0E000, 9, 1⟩
abbrev Fl.NET_CTRL.ETHA_EN : Field := ⟨0x0E000, 8, 1⟩
abbrev Fl.NET_CTRL.ETHB_MODE : Field := ⟨0x0E000, 4, 2⟩
abbrev Fl.NET_CTRL.ETHA_MODE : Field := ⟨0x0E000, 0, 2⟩
abbrev Fl.NET_STATUS.ETHB_INT : Field := ⟨0x0E004, 17, 1⟩
abbrev Fl.NET_STATUS.ETHA_INT : Field := ⟨0x0E004, 16, 1⟩
abbrev Fl.NET_STATUS.ETHB_SPEED : Field := ⟨0x0E004, 4, 2⟩
abbrev Fl.NET_STATUS.ETHA_SPEED : Field := ⟨0x0E004, 0, 2⟩
abbrev Fl.NET_GPTP.PRIO1 : Field := ⟨0x0E008, 24, 8⟩
abbrev Fl.NET_GPTP.PRIO2 : Field := ⟨0x0E008, 16, 8⟩
abbrev Fl.NET_GPTP.MIRROR : Field := ⟨0x0E008, 7, 1⟩
abbrev Fl.NET_GPTP.GM_CAP : Field := ⟨0x0E008, 6, 1⟩
abbrev Fl.NET_GPTP.PORT : Field := ⟨0x0E008, 5, 1⟩
abbrev Fl.NET_GPTP.MODE : Field := ⟨0x0E008, 0, 2⟩
abbrev Fl.NET_RX_FILTER.EN : Field := ⟨0x0E020, 31, 1⟩
abbrev Fl.NET_RX_FILTER.RING : Field := ⟨0x0E020, 0, 6⟩
abbrev Fl.NET_MDIO.GO : Field := ⟨0x0E024, 31, 1⟩
abbrev Fl.NET_MDIO.OP : Field := ⟨0x0E024, 30, 1⟩
abbrev Fl.NET_MDIO.BUS : Field := ⟨0x0E024, 29, 1⟩
abbrev Fl.NET_MDIO.PHYAD : Field := ⟨0x0E024, 21, 5⟩
abbrev Fl.NET_MDIO.REGAD : Field := ⟨0x0E024, 16, 5⟩
abbrev Fl.NET_MDIO.DATA : Field := ⟨0x0E024, 0, 16⟩
abbrev Fl.NET_MACA_HI.HI : Field := ⟨0x0E02C, 0, 16⟩
abbrev Fl.NET_MACB_HI.HI : Field := ⟨0x0E034, 0, 16⟩
abbrev Fl.NET_CTX_SEL.CTX : Field := ⟨0x0E040, 0, 10⟩
abbrev Fl.NET_CTX_STAT.STATE : Field := ⟨0x0E044, 29, 3⟩
abbrev Fl.NET_CTX_STAT.ASRC_LOCK : Field := ⟨0x0E044, 28, 1⟩
abbrev Fl.NET_CTX_STAT.GROVE : Field := ⟨0x0E044, 24, 4⟩
abbrev Fl.HST_CTRL.DB_EN : Field := ⟨0x10000, 31, 1⟩
abbrev Fl.HST_CTRL.PICKUP_MAX : Field := ⟨0x10000, 0, 8⟩
abbrev Fl.HST_STATUS.SPEED : Field := ⟨0x10004, 30, 2⟩
abbrev Fl.HST_STATUS.WIDTH : Field := ⟨0x10004, 28, 2⟩
abbrev Fl.HST_STATUS.BME : Field := ⟨0x10004, 27, 1⟩
abbrev Fl.HST_STATUS.PERST : Field := ⟨0x10004, 26, 1⟩
abbrev Fl.HST_STATUS.DB_OK : Field := ⟨0x10004, 25, 1⟩
abbrev Fl.HST_ERR.MMIO_BAD : Field := ⟨0x10008, 31, 1⟩
abbrev Fl.HST_ERR.WIN_VIOL : Field := ⟨0x10008, 30, 1⟩
abbrev Fl.HST_ERR.DB_LATE : Field := ⟨0x10008, 29, 1⟩
abbrev Fl.HST_ERR.CP_FAIL : Field := ⟨0x10008, 28, 1⟩
abbrev Fl.HST_ERR.RING_ERR : Field := ⟨0x10008, 27, 1⟩
abbrev Fl.HST_ERR.LINK : Field := ⟨0x10008, 26, 1⟩
abbrev Fl.HST_DB_BASE_LO.BASE : Field := ⟨0x10010, 8, 24⟩
abbrev Fl.HST_CP_BASE_LO.BASE : Field := ⟨0x10018, 9, 23⟩
abbrev Fl.HST_WIN_BASE_LO.BASE (n : Nat) : Field := ⟨0x10100 + 16 * n, 12, 20⟩
abbrev Fl.HST_WIN_ATTR.W (n : Nat) : Field := ⟨0x1010C + 16 * n, 1, 1⟩
abbrev Fl.HST_WIN_ATTR.R (n : Nat) : Field := ⟨0x1010C + 16 * n, 0, 1⟩
abbrev Fl.HST_RING_BASE_LO.BASE (n : Nat) : Field := ⟨0x10400 + 32 * n, 6, 26⟩
abbrev Fl.HST_RING_CFG.EN (n : Nat) : Field := ⟨0x10408 + 32 * n, 31, 1⟩
abbrev Fl.HST_RING_CFG.CPLR (n : Nat) : Field := ⟨0x10408 + 32 * n, 25, 6⟩
abbrev Fl.HST_RING_CFG.VEC (n : Nat) : Field := ⟨0x10408 + 32 * n, 20, 5⟩
abbrev Fl.HST_RING_CFG.LOG2SIZE (n : Nat) : Field := ⟨0x10408 + 32 * n, 16, 4⟩
abbrev Fl.HST_RING_CFG.LOWWAT (n : Nat) : Field := ⟨0x10408 + 32 * n, 8, 8⟩
abbrev Fl.HST_RING_CFG.TYPE (n : Nat) : Field := ⟨0x10408 + 32 * n, 0, 4⟩
abbrev Fl.HST_RING_STREAM.PACK (n : Nat) : Field := ⟨0x1040C + 32 * n, 16, 3⟩
abbrev Fl.HST_RING_STREAM.COUNTM1 (n : Nat) : Field := ⟨0x1040C + 32 * n, 8, 8⟩
abbrev Fl.HST_RING_STREAM.FIRST (n : Nat) : Field := ⟨0x1040C + 32 * n, 0, 8⟩
abbrev Fl.HST_RING_LATEWIN.WIN (n : Nat) : Field := ⟨0x10410 + 32 * n, 0, 16⟩
abbrev Fl.HST_RING_STAT.CODE (n : Nat) : Field := ⟨0x10414 + 32 * n, 24, 8⟩
abbrev Fl.HST_RING_STAT.STATE (n : Nat) : Field := ⟨0x10414 + 32 * n, 16, 4⟩
abbrev Fl.HST_RING_STAT.IDX (n : Nat) : Field := ⟨0x10414 + 32 * n, 0, 16⟩
abbrev Fl.PWR_BUD_CTRL.NEAR : Field := ⟨0x03100, 8, 8⟩
abbrev Fl.PWR_BUD_CTRL.PEAK_CLR : Field := ⟨0x03100, 0, 1⟩
abbrev Fl.PWR_BUD_THK.PEAK : Field := ⟨0x03108, 16, 16⟩
abbrev Fl.PWR_BUD_THK.COST : Field := ⟨0x03108, 0, 16⟩
abbrev Fl.PWR_BUD_FX.PEAK : Field := ⟨0x0310C, 16, 16⟩
abbrev Fl.PWR_BUD_FX.COST : Field := ⟨0x0310C, 0, 16⟩
abbrev Fl.PWR_BUD_CLP.PEAK : Field := ⟨0x03110, 16, 16⟩
abbrev Fl.PWR_BUD_CLP.COST : Field := ⟨0x03110, 0, 16⟩
abbrev Fl.PWR_BUD_LAST.RING : Field := ⟨0x03120, 24, 8⟩
abbrev Fl.PWR_BUD_LAST.ENGINE : Field := ⟨0x03120, 20, 4⟩
abbrev Fl.PWR_BUD_LAST.OPCODE : Field := ⟨0x03120, 0, 16⟩
abbrev Fl.PWR_BUD_PEND.LOWER : Field := ⟨0x03128, 31, 1⟩
abbrev Fl.PWR_BUD_PEND.B_USED : Field := ⟨0x03128, 0, 16⟩
abbrev Fl.TWB_CTRL.ALERT_SEV : Field := ⟨0x11000, 9, 3⟩
abbrev Fl.TWB_CTRL.ARA_EN : Field := ⟨0x11000, 8, 1⟩
abbrev Fl.TWB_CTRL.AINC : Field := ⟨0x11000, 1, 1⟩
abbrev Fl.TWB_CTRL.PEC_EN : Field := ⟨0x11000, 0, 1⟩
abbrev Fl.TWB_STATUS.LAST : Field := ⟨0x11004, 16, 8⟩
abbrev Fl.TWB_STATUS.ARMED : Field := ⟨0x11004, 15, 1⟩
abbrev Fl.TWB_STATUS.ADDR : Field := ⟨0x11004, 0, 7⟩
abbrev Fl.TWB_ALERT.RECOVER_DONE : Field := ⟨0x11008, 5, 1⟩
abbrev Fl.TWB_ALERT.WAKE : Field := ⟨0x11008, 4, 1⟩
abbrev Fl.TWB_ALERT.LINK : Field := ⟨0x11008, 3, 1⟩
abbrev Fl.TWB_ALERT.DUMP : Field := ⟨0x11008, 2, 1⟩
abbrev Fl.TWB_ALERT.FAULT : Field := ⟨0x11008, 1, 1⟩
abbrev Fl.TWB_ALERT.LOG : Field := ⟨0x11008, 0, 1⟩
abbrev Fl.TWB_ALERT_MASK.MASK : Field := ⟨0x1100C, 0, 6⟩
abbrev Fl.PWR_CTRL.LEVEL_INIT : Field := ⟨0x03000, 0, 2⟩
abbrev Fl.PWR_STATUS.STATE : Field := ⟨0x03004, 29, 3⟩
abbrev Fl.PWR_STATUS.TURN : Field := ⟨0x03004, 24, 3⟩
abbrev Fl.PWR_STATUS.VSETTLE : Field := ⟨0x03004, 17, 1⟩
abbrev Fl.PWR_STATUS.LEVEL_PEND : Field := ⟨0x03004, 16, 1⟩
abbrev Fl.PWR_STATUS.LEVEL_TGT : Field := ⟨0x03004, 8, 2⟩
abbrev Fl.PWR_STATUS.LEVEL : Field := ⟨0x03004, 0, 2⟩
abbrev Fl.PWR_SLEEP_CFG.LINK_WAIT : Field := ⟨0x03008, 16, 16⟩
abbrev Fl.PWR_SLEEP_CFG.GUARD : Field := ⟨0x03008, 0, 16⟩
abbrev Fl.PWR_SAVE_BASE_LO.BASE : Field := ⟨0x0300C, 22, 10⟩
abbrev Fl.PWR_SAVE_BASE_LO.VALID : Field := ⟨0x0300C, 0, 1⟩
abbrev Fl.PWR_LAST_REFUSE.REASON : Field := ⟨0x0301C, 16, 8⟩
abbrev Fl.PWR_LAST_REFUSE.STATE : Field := ⟨0x0301C, 8, 3⟩
abbrev Fl.PWR_LAST_REFUSE.BLOCK : Field := ⟨0x0301C, 0, 3⟩
abbrev Fl.PWR_WAKE_STAT.LOST : Field := ⟨0x03060, 16, 16⟩
abbrev Fl.PWR_WAKE_STAT.SOURCE : Field := ⟨0x03060, 8, 8⟩
abbrev Fl.PWR_WAKE_STAT.RETRY : Field := ⟨0x03060, 4, 1⟩
abbrev Fl.PWR_WAKE_STAT.LATCHED : Field := ⟨0x03060, 3, 1⟩
abbrev Fl.PWR_WAKE_STAT.STATE : Field := ⟨0x03060, 0, 3⟩
abbrev Fl.WAK_ARM.JACK : Field := ⟨0x12000, 20, 4⟩
abbrev Fl.WAK_ARM.ETH : Field := ⟨0x12000, 16, 2⟩
abbrev Fl.WAK_ARM.LISTEN : Field := ⟨0x12000, 7, 1⟩
abbrev Fl.WAK_ARM.SMB_MATCH : Field := ⟨0x12000, 3, 1⟩
abbrev Fl.WAK_ARM.PCIE_L12 : Field := ⟨0x12000, 2, 1⟩
abbrev Fl.WAK_ARM.WAKEN_EN : Field := ⟨0x12000, 0, 1⟩
abbrev Fl.WAK_SAP.PAT : Field := ⟨0x12004, 8, 8⟩
abbrev Fl.WAK_SAP.ACT : Field := ⟨0x12004, 0, 8⟩
abbrev Fl.WAK_GPIO.POL : Field := ⟨0x12008, 16, 16⟩
abbrev Fl.WAK_GPIO.EN : Field := ⟨0x12008, 0, 16⟩
abbrev Fl.WAK_LATCH.SRC : Field := ⟨0x1200C, 0, 11⟩
abbrev Fl.WAK_LSN_CTRL.EN : Field := ⟨0x12100, 31, 1⟩
abbrev Fl.WAK_LSN_CTRL.AWAKE : Field := ⟨0x12100, 30, 1⟩
abbrev Fl.WAK_LSN_CTRL.MODE : Field := ⟨0x12100, 28, 2⟩
abbrev Fl.WAK_LSN_CTRL.SRC : Field := ⟨0x12100, 0, 16⟩
abbrev Fl.WAK_LSN_MASK.WAKE_MASK : Field := ⟨0x12104, 0, 16⟩
abbrev Fl.WAK_LSN_ONSET.THR : Field := ⟨0x12108, 24, 8⟩
abbrev Fl.WAK_LSN_ONSET.FLOOR : Field := ⟨0x12108, 16, 8⟩
abbrev Fl.WAK_LSN_ONSET.HOLD : Field := ⟨0x12108, 8, 8⟩
abbrev Fl.WAK_LSN_ONSET.ADAPT : Field := ⟨0x12108, 6, 2⟩
abbrev Fl.WAK_LSN_VAD.MARGIN : Field := ⟨0x1210C, 16, 8⟩
abbrev Fl.WAK_LSN_VAD.HANG : Field := ⟨0x1210C, 8, 8⟩
abbrev Fl.WAK_LSN_STATUS.STATE : Field := ⟨0x12110, 29, 3⟩
abbrev Fl.WAK_LSN_STATUS.RUN : Field := ⟨0x12110, 28, 1⟩
abbrev Fl.WAK_LSN_STATUS.WEIGHTS : Field := ⟨0x12110, 27, 1⟩
abbrev Fl.WAK_LSN_STATUS.SHADOW_LOCK : Field := ⟨0x12110, 26, 1⟩
abbrev Fl.WAK_LSN_STATUS.FILL : Field := ⟨0x12110, 0, 10⟩
abbrev Fl.WAK_LSN_AP.READ_ACTIVE : Field := ⟨0x1212C, 0, 1⟩
abbrev Fl.BLZ_CTRL.DRAIN_EN : Field := ⟨0x13000, 31, 1⟩
abbrev Fl.BLZ_CTRL.REL_FATAL : Field := ⟨0x13000, 30, 1⟩
abbrev Fl.BLZ_CTRL.EVT_RING : Field := ⟨0x13000, 24, 6⟩
abbrev Fl.BLZ_STATUS.DRAIN_ERR : Field := ⟨0x13004, 31, 1⟩
abbrev Fl.BLZ_STATUS.DROP_PEND : Field := ⟨0x13004, 30, 1⟩
abbrev Fl.BLZ_STATUS.DRAIN_RUN : Field := ⟨0x13004, 29, 1⟩
abbrev Fl.BLZ_STATUS.FILL : Field := ⟨0x13004, 0, 13⟩
abbrev Fl.BLZ_WIN_STAT.EXACT : Field := ⟨0x13084, 31, 1⟩
abbrev Fl.BLZ_WIN_STAT.NONE : Field := ⟨0x13084, 30, 1⟩
abbrev Fl.BLZ_WIN_STAT.SLOT : Field := ⟨0x13084, 0, 12⟩
abbrev Fl.FLT_CTRL.AV_CLR : Field := ⟨0x14000, 4, 1⟩
abbrev Fl.FLT_CTRL.DUMP_NOW : Field := ⟨0x14000, 3, 1⟩
abbrev Fl.FLT_CTRL.DUMP_CLR : Field := ⟨0x14000, 2, 1⟩
abbrev Fl.FLT_CTRL.RANGER_RST : Field := ⟨0x14000, 1, 1⟩
abbrev Fl.FLT_CTRL.DEV_RESET : Field := ⟨0x14000, 0, 1⟩
abbrev Fl.FLT_STATUS.PROBATION : Field := ⟨0x14004, 7, 1⟩
abbrev Fl.FLT_STATUS.DUMP_PRESENT : Field := ⟨0x14004, 6, 1⟩
abbrev Fl.FLT_STATUS.FIREBREAK : Field := ⟨0x14004, 5, 1⟩
abbrev Fl.FLT_STATUS.RANGER_ALIVE : Field := ⟨0x14004, 4, 1⟩
abbrev Fl.FLT_STATUS.NO_STANDBY : Field := ⟨0x14004, 3, 1⟩
abbrev Fl.FLT_STATUS.COPPICE : Field := ⟨0x14004, 2, 1⟩
abbrev Fl.FLT_STATUS.ACTIVE : Field := ⟨0x14004, 1, 1⟩
abbrev Fl.FLT_FAULT.COPPICE_FAIL : Field := ⟨0x14008, 0, 1⟩
abbrev Fl.FLT_FAULT.RANGER_LOSS : Field := ⟨0x14008, 1, 1⟩
abbrev Fl.FLT_FAULT.WAKE_FAIL : Field := ⟨0x14008, 2, 1⟩
abbrev Fl.FLT_FAULT.FW_MEM_UE : Field := ⟨0x14008, 3, 1⟩
abbrev Fl.FLT_RANGER_CFG.HB_MISS : Field := ⟨0x1400C, 0, 4⟩
abbrev Fl.FLT_DUMP_HOST_LO.BASE : Field := ⟨0x14018, 12, 20⟩
abbrev Fl.FLT_DUMP_DRAM_LO.BASE : Field := ⟨0x14020, 12, 20⟩
abbrev Fl.FLT_DUMP_DRAM_LO.VALID : Field := ⟨0x14020, 0, 1⟩
abbrev Fl.MEM_CFG.EN : Field := ⟨0x0B000, 31, 1⟩
abbrev Fl.MEM_CFG.RATE : Field := ⟨0x0B000, 28, 3⟩
abbrev Fl.MEM_CFG.RANKS : Field := ⟨0x0B000, 27, 1⟩
abbrev Fl.MEM_CFG.DENSITY : Field := ⟨0x0B000, 25, 2⟩
abbrev Fl.MEM_CFG.ECCMODE : Field := ⟨0x0B000, 0, 2⟩
abbrev Fl.MEM_SCRUB.EN : Field := ⟨0x0B00C, 31, 1⟩
abbrev Fl.MEM_SCRUB.HOURS : Field := ⟨0x0B00C, 8, 8⟩
abbrev Fl.HWD_STATUS.BOOTED : Field := ⟨0x15000, 0, 1⟩
abbrev Fl.HWD_STATUS.KEYS_LOST : Field := ⟨0x15000, 1, 1⟩
abbrev Fl.HWD_STATUS.DEBUG_OPEN : Field := ⟨0x15000, 2, 1⟩
abbrev Fl.HWD_STATUS.RUNNING : Field := ⟨0x15000, 3, 1⟩
abbrev Fl.HWD_BOOT_ADDR_LO.BASE : Field := ⟨0x15004, 6, 26⟩
abbrev Fl.HWD_BOOT_CTRL.GO : Field := ⟨0x15010, 0, 1⟩
abbrev Fl.HWD_CFG_CTRL.GO : Field := ⟨0x15024, 0, 1⟩
abbrev Fl.TOP_STEP.PKG : Field := ⟨0x00004, 16, 4⟩
abbrev Fl.TOP_STEP.STEP : Field := ⟨0x00004, 0, 8⟩
abbrev Fl.TOP_STATUS.PSTATE : Field := ⟨0x00008, 29, 3⟩
abbrev Fl.TOP_STATUS.LEVEL : Field := ⟨0x00008, 8, 2⟩
abbrev Fl.TOP_STATUS.FAULT : Field := ⟨0x00008, 4, 1⟩
abbrev Fl.TOP_STATUS.FIREBREAK : Field := ⟨0x00008, 3, 1⟩
abbrev Fl.TOP_STATUS.BOOTED : Field := ⟨0x00008, 2, 1⟩
abbrev Fl.TOP_STATUS.LOCK : Field := ⟨0x00008, 1, 1⟩
abbrev Fl.TOP_STATUS.RUN : Field := ⟨0x00008, 0, 1⟩
abbrev Fl.TOP_LOCK.SIGNED : Field := ⟨0x0000C, 1, 1⟩
abbrev Fl.TOP_LOCK.LOCK : Field := ⟨0x0000C, 0, 1⟩
abbrev Fl.TOP_RESET.COUNT : Field := ⟨0x00018, 16, 16⟩
abbrev Fl.TOP_RESET.KIND : Field := ⟨0x00018, 0, 3⟩
abbrev Fl.PIN_GPIO_CFG.SEL (n : Nat) : Field := ⟨0x16000 + 4 * n, 16, 8⟩
abbrev Fl.PIN_GPIO_CFG.PULL (n : Nat) : Field := ⟨0x16000 + 4 * n, 6, 2⟩
abbrev Fl.PIN_GPIO_CFG.OD (n : Nat) : Field := ⟨0x16000 + 4 * n, 5, 1⟩
abbrev Fl.PIN_GPIO_CFG.DIR (n : Nat) : Field := ⟨0x16000 + 4 * n, 4, 1⟩
abbrev Fl.PIN_GPIO_CFG.FUNC (n : Nat) : Field := ⟨0x16000 + 4 * n, 0, 4⟩
abbrev Fl.PIN_GPIO_OUT.LEVEL : Field := ⟨0x16040, 0, 16⟩
abbrev Fl.PIN_SAPX_OUT.LEVEL : Field := ⟨0x16054, 0, 16⟩
abbrev Fl.PIN_DRIVE.VIO2_DRV : Field := ⟨0x1605C, 2, 2⟩
abbrev Fl.PIN_DRIVE.VIO1_DRV : Field := ⟨0x1605C, 0, 2⟩
abbrev Fl.PIN_STATUS.VIO2_HI : Field := ⟨0x16060, 2, 1⟩
abbrev Fl.PIN_STATUS.VIO2_OK : Field := ⟨0x16060, 1, 1⟩
abbrev Fl.PIN_STATUS.VIO1_OK : Field := ⟨0x16060, 0, 1⟩
abbrev Fl.PIN_CLAIM.CODE : Field := ⟨0x16064, 24, 8⟩
abbrev Fl.PIN_CLAIM.OFFSET : Field := ⟨0x16064, 0, 12⟩
abbrev Fl.MSIX_ADDR_LO.ADDR (n : Nat) : Field := ⟨0x3E000 + 16 * n, 2, 30⟩
abbrev Fl.MSIX_CTRL.MASK (n : Nat) : Field := ⟨0x3E00C + 16 * n, 0, 1⟩

/-! ## The tables, one a block -/

def regsTop : List RegDef := [
  ⟨0x00000, 1, 4, 0x4B579320, []⟩,
  ⟨0x00004, 1, 4, 0x000100B0, []⟩,
  ⟨0x00008, 1, 4, 0x00000000, []⟩,
  ⟨0x0000C, 1, 4, 0x00000000, [⟨0, 1, .w1s, .any⟩]⟩,
  ⟨0x00010, 1, 4, 0x00000000, []⟩,
  ⟨0x00014, 1, 4, 0x00000000, []⟩,
  ⟨0x00018, 1, 4, 0x00000000, []⟩,
  ⟨0x0001C, 1, 4, 0x00000000, []⟩,
  ⟨0x00020, 4, 4, 0x00000000, [⟨0, 32, .rw, .any⟩]⟩]

def regsClk : List RegDef := [
  ⟨0x01000, 1, 4, 0x00000100, [⟨12, 4, .rwl, .max 4⟩, ⟨8, 3, .rwl, .max 5⟩, ⟨1, 1, .rwl, .any⟩, ⟨0, 1, .w1s, .any⟩]⟩,
  ⟨0x01004, 1, 4, 0x00000000, []⟩,
  ⟨0x01008, 1, 4, 0x00000000, []⟩,
  ⟨0x0100C, 1, 4, 0x00000000, []⟩,
  ⟨0x01010, 1, 4, 0x00000000, []⟩,
  ⟨0x01014, 1, 4, 0x00000000, []⟩,
  ⟨0x01018, 1, 4, 0x00000000, []⟩]

def regsTime : List RegDef := [
  ⟨0x02000, 1, 4, 0x00000000, []⟩,
  ⟨0x02004, 1, 4, 0x00000000, []⟩,
  ⟨0x02008, 1, 4, 0x00000000, []⟩,
  ⟨0x0200C, 1, 4, 0x00000000, []⟩,
  ⟨0x02010, 1, 4, 0x00000000, [⟨0, 1, .w1s, .any⟩]⟩,
  ⟨0x02014, 1, 4, 0x00000000, []⟩,
  ⟨0x02018, 1, 4, 0x00000000, []⟩,
  ⟨0x0201C, 1, 4, 0x00000000, []⟩,
  ⟨0x02020, 1, 4, 0x00000000, []⟩,
  ⟨0x02024, 1, 4, 0x00000000, []⟩,
  ⟨0x02028, 1, 4, 0x00000000, []⟩,
  ⟨0x0202C, 1, 4, 0x00000000, []⟩,
  ⟨0x02030, 1, 4, 0x00000000, []⟩,
  ⟨0x02034, 1, 4, 0x00000000, []⟩,
  ⟨0x02038, 1, 4, 0x00000000, []⟩,
  ⟨0x0203C, 1, 4, 0x00000000, []⟩,
  ⟨0x02040, 1, 4, 0x00000000, []⟩,
  ⟨0x02044, 1, 4, 0x000186A0, [⟨0, 32, .rw, .clamp 1000 1000000000⟩]⟩,
  ⟨0x02048, 1, 4, 0x07A12000, [⟨0, 32, .rw, .any⟩]⟩,
  ⟨0x0204C, 1, 4, 0x00000000, []⟩,
  ⟨0x02050, 5, 4, 0x00000000, []⟩,
  ⟨0x02064, 5, 4, 0x00000000, []⟩,
  ⟨0x02078, 1, 4, 0x1D4C0000, []⟩,
  ⟨0x02400, 256, 4, 0x00000000, []⟩]

def regsPwr : List RegDef := [
  ⟨0x03100, 1, 4, 0x00005A00, [⟨8, 8, .rw, .clamp 50 100⟩, ⟨0, 1, .w1s, .any⟩]⟩,
  ⟨0x03104, 1, 4, 0x00000000, []⟩,
  ⟨0x03108, 1, 4, 0x00000000, []⟩,
  ⟨0x0310C, 1, 4, 0x00000000, []⟩,
  ⟨0x03110, 1, 4, 0x00000000, []⟩,
  ⟨0x03114, 1, 4, 0x00000000, []⟩,
  ⟨0x03118, 1, 4, 0x00000000, []⟩,
  ⟨0x0311C, 1, 4, 0x00000000, []⟩,
  ⟨0x03120, 1, 4, 0x00000000, []⟩,
  ⟨0x03124, 1, 4, 0x00000000, []⟩,
  ⟨0x03128, 1, 4, 0x00000000, []⟩,
  ⟨0x03000, 1, 4, 0x00000001, [⟨0, 2, .rwl, .any⟩]⟩,
  ⟨0x03004, 1, 4, 0x00000001, []⟩,
  ⟨0x03008, 1, 4, 0x006400C8, [⟨16, 16, .rw, .any⟩, ⟨0, 16, .rw, .any⟩]⟩,
  ⟨0x0300C, 1, 4, 0x00000000, [⟨22, 10, .rwl, .any⟩, ⟨0, 1, .rwl, .any⟩]⟩,
  ⟨0x03010, 1, 4, 0x00000000, [⟨0, 32, .rwl, .any⟩]⟩,
  ⟨0x03014, 1, 4, 0xFFFFFFFF, []⟩,
  ⟨0x03018, 1, 4, 0xFFFFFFFF, []⟩,
  ⟨0x0301C, 1, 4, 0x00000000, []⟩,
  ⟨0x03020, 1, 4, 0x00000000, []⟩,
  ⟨0x03024, 1, 4, 0x00000000, []⟩,
  ⟨0x03028, 6, 4, 0x00000000, []⟩,
  ⟨0x03040, 4, 4, 0x00000000, []⟩,
  ⟨0x03050, 4, 4, 0x00000000, []⟩,
  ⟨0x03060, 1, 4, 0x00000000, []⟩,
  ⟨0x03064, 1, 4, 0x00000000, []⟩,
  ⟨0x03068, 1, 4, 0x00000000, []⟩,
  ⟨0x0306C, 1, 4, 0x00000000, []⟩,
  ⟨0x03070, 1, 4, 0x00000000, []⟩,
  ⟨0x03074, 1, 4, 0x00000000, []⟩]

def regsAin : List RegDef := [
  ⟨0x04000, 1, 4, 0x00000000, [⟨8, 4, .rwl, .any⟩, ⟨6, 2, .rwl, .any⟩, ⟨4, 2, .rwl, .any⟩, ⟨2, 2, .rwl, .any⟩, ⟨0, 2, .rwl, .any⟩]⟩,
  ⟨0x04004, 1, 4, 0x00000000, []⟩,
  ⟨0x04008, 1, 4, 0x00000000, [⟨24, 8, .w1c, .any⟩, ⟨10, 10, .w1c, .any⟩, ⟨0, 10, .w1c, .any⟩]⟩,
  ⟨0x0400C, 1, 4, 0x00000000, [⟨24, 8, .w1c, .any⟩, ⟨16, 8, .w1c, .any⟩, ⟨8, 8, .w1c, .any⟩]⟩,
  ⟨0x04010, 1, 4, 0x00000032, [⟨16, 2, .rw, .any⟩, ⟨0, 8, .rw, .clamp 10 200⟩]⟩,
  ⟨0x04040, 8, 4, 0x20000001, [⟨31, 1, .rw, .any⟩, ⟨29, 1, .rw, .any⟩, ⟨28, 1, .rw, .any⟩, ⟨26, 2, .rw, .max 1⟩, ⟨23, 3, .rw, .any⟩, ⟨21, 2, .rw, .any⟩, ⟨16, 5, .rw, .any⟩, ⟨8, 8, .rw, .any⟩, ⟨0, 2, .rw, .any⟩]⟩,
  ⟨0x04060, 2, 4, 0x20000003, [⟨31, 1, .rw, .any⟩, ⟨29, 1, .rw, .any⟩, ⟨28, 1, .rw, .any⟩, ⟨26, 2, .rw, .max 1⟩, ⟨23, 3, .rw, .any⟩, ⟨21, 2, .rw, .any⟩, ⟨16, 5, .rw, .any⟩, ⟨8, 8, .rw, .any⟩, ⟨0, 2, .rw, .any⟩]⟩,
  ⟨0x04080, 10, 4, 0x00000000, []⟩,
  ⟨0x040C0, 8, 4, 0x20000000, [⟨31, 1, .rw, .any⟩, ⟨29, 1, .rw, .any⟩, ⟨26, 2, .rw, .max 1⟩, ⟨23, 3, .rw, .any⟩, ⟨21, 2, .rw, .any⟩]⟩,
  ⟨0x04100, 8, 4, 0x00000000, []⟩]

def regsAout : List RegDef := [
  ⟨0x05000, 1, 4, 0x00000000, []⟩,
  ⟨0x05004, 1, 4, 0x00000000, [⟨12, 2, .rw, .any⟩, ⟨10, 2, .rw, .any⟩, ⟨8, 2, .rw, .any⟩, ⟨4, 2, .rw, .any⟩, ⟨0, 2, .rw, .any⟩]⟩,
  ⟨0x05008, 1, 4, 0x00000000, [⟨25, 1, .w1c, .any⟩, ⟨24, 1, .w1c, .any⟩, ⟨20, 1, .w1c, .any⟩, ⟨16, 4, .w1c, .any⟩, ⟨0, 8, .w1c, .any⟩]⟩,
  ⟨0x0500C, 1, 4, 0x00000000, [⟨11, 3, .w1c, .any⟩, ⟨8, 3, .w1c, .any⟩]⟩,
  ⟨0x05010, 1, 4, 0x04920424, [⟨16, 16, .rw, .any⟩, ⟨0, 16, .rw, .any⟩]⟩,
  ⟨0x05014, 1, 4, 0x00000384, [⟨0, 16, .rw, .any⟩]⟩,
  ⟨0x05018, 2, 4, 0x00000000, []⟩,
  ⟨0x05020, 2, 4, 0x00000000, []⟩,
  ⟨0x05040, 8, 4, 0x20000000, [⟨31, 1, .rw, .any⟩, ⟨29, 1, .rw, .any⟩, ⟨26, 2, .rw, .max 1⟩, ⟨24, 2, .rw, .any⟩]⟩,
  ⟨0x05060, 4, 4, 0x20000000, [⟨31, 1, .rw, .any⟩, ⟨29, 1, .rw, .any⟩, ⟨26, 2, .rw, .max 1⟩, ⟨24, 2, .rw, .any⟩]⟩]

def regsSpk : List RegDef := [
  ⟨0x06000, 1, 4, 0x00005200, [⟨14, 2, .rwl, .max 2⟩, ⟨12, 2, .rwl, .any⟩, ⟨8, 4, .rwl, .max 12⟩]⟩,
  ⟨0x06004, 1, 4, 0x00000000, []⟩,
  ⟨0x06008, 1, 4, 0x00000000, [⟨25, 1, .w1c, .any⟩, ⟨24, 1, .w1c, .any⟩, ⟨23, 1, .w1c, .any⟩, ⟨22, 1, .w1c, .any⟩, ⟨18, 2, .w1c, .any⟩, ⟨16, 2, .w1c, .any⟩, ⟨14, 2, .w1c, .any⟩, ⟨12, 2, .w1c, .any⟩, ⟨10, 2, .w1c, .any⟩, ⟨0, 2, .w1c, .any⟩]⟩,
  ⟨0x0600C, 1, 4, 0x00000000, []⟩,
  ⟨0x06010, 1, 4, 0xA8000000, [⟨30, 2, .rwl, .any⟩, ⟨28, 2, .rwl, .any⟩, ⟨26, 2, .rwl, .any⟩, ⟨0, 16, .rwl, .clamp 0 1000⟩]⟩,
  ⟨0x06014, 1, 4, 0x10400F96, [⟨24, 8, .rw, .any⟩, ⟨16, 8, .rw, .any⟩, ⟨8, 8, .rw, .any⟩, ⟨0, 8, .rw, .any⟩]⟩,
  ⟨0x06018, 1, 4, 0x00202000, [⟨16, 8, .rw, .clamp 24 40⟩, ⟨8, 8, .rw, .clamp 24 48⟩, ⟨4, 1, .rw, .any⟩, ⟨2, 2, .rw, .any⟩]⟩,
  ⟨0x06040, 2, 4, 0x20900000, [⟨31, 1, .rw, .any⟩, ⟨29, 1, .rw, .any⟩, ⟨26, 2, .rw, .max 1⟩, ⟨24, 2, .rw, .any⟩, ⟨21, 3, .rw, .max 4⟩, ⟨19, 2, .rw, .max 2⟩, ⟨18, 1, .rw, .any⟩]⟩,
  ⟨0x06080, 2, 4, 0x00000000, []⟩,
  ⟨0x06088, 2, 4, 0x00000000, []⟩,
  ⟨0x06090, 2, 4, 0x00000000, []⟩,
  ⟨0x06098, 2, 4, 0x00000000, []⟩,
  ⟨0x060A0, 3, 4, 0x00000000, []⟩,
  ⟨0x060B0, 2, 4, 0x00000000, []⟩,
  ⟨0x060B8, 1, 4, 0x00000000, []⟩,
  ⟨0x060C0, 2, 4, 0x00000000, []⟩]

def regsThk : List RegDef := [
  ⟨0x07000, 1, 4, 0x00000002, [⟨2, 1, .w1s, .any⟩, ⟨1, 1, .rwl, .any⟩, ⟨0, 1, .rw, .any⟩]⟩,
  ⟨0x07004, 1, 4, 0x00000000, []⟩,
  ⟨0x07008, 1, 4, 0x00000000, [⟨31, 1, .w1c, .any⟩, ⟨30, 1, .w1c, .any⟩]⟩,
  ⟨0x0700C, 1, 4, 0x00000000, []⟩,
  ⟨0x07010, 1, 4, 0x00000000, []⟩,
  ⟨0x07014, 1, 4, 0x00000000, []⟩,
  ⟨0x07018, 1, 4, 0x00000000, []⟩,
  ⟨0x07020, 1, 4, 0x00000400, [⟨31, 1, .rw, .any⟩, ⟨0, 16, .rw, .clamp 16 65535⟩]⟩,
  ⟨0x07024, 1, 4, 0x00000000, [⟨8, 24, .rw, .any⟩]⟩,
  ⟨0x07028, 1, 4, 0x00000000, [⟨0, 32, .rw, .any⟩]⟩,
  ⟨0x07200, 384, 4, 0xFFFFFFFF, []⟩,
  ⟨0x07800, 288, 4, 0x00000000, []⟩]

def regsTrl : List RegDef := [
  ⟨0x08000, 1, 4, 0x00000000, [⟨0, 1, .rw, .any⟩]⟩,
  ⟨0x08004, 1, 4, 0x00000000, []⟩,
  ⟨0x08008, 1, 4, 0x00000000, []⟩,
  ⟨0x0800C, 1, 4, 0x00000000, []⟩,
  ⟨0x08010, 1, 4, 0x00000000, [⟨0, 16, .w1c, .any⟩]⟩,
  ⟨0x08040, 16, 4, 0x00000000, []⟩,
  ⟨0x08080, 16, 4, 0x00000000, []⟩]

def regsFx : List RegDef := [
  ⟨0x09000, 1, 4, 0x00000000, [⟨0, 1, .rw, .any⟩]⟩,
  ⟨0x09004, 1, 4, 0x00000000, []⟩,
  ⟨0x09040, 8, 4, 0x00000000, [⟨0, 32, .w1c, .any⟩]⟩,
  ⟨0x09060, 8, 4, 0x00000000, [⟨0, 32, .w1c, .any⟩]⟩,
  ⟨0x09400, 256, 4, 0x00000000, []⟩]

def regsClp : List RegDef := [
  ⟨0x0A000, 1, 4, 0x00000000, [⟨0, 1, .rw, .any⟩]⟩,
  ⟨0x0A004, 1, 4, 0x00000000, []⟩,
  ⟨0x0A008, 1, 4, 0x00000000, []⟩,
  ⟨0x0A100, 32, 8, 0x00000000, []⟩,
  ⟨0x0A104, 32, 8, 0x00000000, []⟩,
  ⟨0x0A400, 256, 4, 0x00000000, []⟩]

def regsMem : List RegDef := [
  ⟨0x0B000, 1, 4, 0x00000000, [⟨31, 1, .rwl, .any⟩, ⟨28, 3, .rwl, .max 4⟩, ⟨27, 1, .rwl, .any⟩, ⟨25, 2, .rwl, .any⟩, ⟨0, 2, .rwl, .max 2⟩]⟩,
  ⟨0x0B004, 1, 4, 0x00000000, []⟩,
  ⟨0x0B008, 1, 4, 0x00000000, []⟩,
  ⟨0x0B00C, 1, 4, 0x80001800, [⟨31, 1, .rw, .any⟩, ⟨8, 8, .rw, .clamp 1 255⟩]⟩,
  ⟨0x0B010, 1, 4, 0x00000000, []⟩,
  ⟨0x0B014, 1, 4, 0x00000000, []⟩,
  ⟨0x0B018, 1, 4, 0x00000000, []⟩,
  ⟨0x0B01C, 1, 4, 0x00000000, []⟩,
  ⟨0x0B020, 1, 4, 0x00000000, []⟩,
  ⟨0x0B024, 1, 4, 0x00000000, []⟩,
  ⟨0x0B028, 1, 4, 0x00000000, []⟩]

def regsSap : List RegDef := [
  ⟨0x0C000, 8, 1024, 0x404C0420, [⟨31, 1, .rw, .any⟩, ⟨29, 2, .rw, .any⟩, ⟨28, 1, .rw, .any⟩, ⟨27, 1, .rw, .any⟩, ⟨26, 1, .rw, .any⟩, ⟨25, 1, .rw, .any⟩, ⟨23, 2, .rw, .any⟩, ⟨21, 2, .rw, .max 2⟩, ⟨15, 6, .rw, .range 16 32⟩, ⟨10, 5, .rw, .any⟩, ⟨5, 5, .rw, .any⟩, ⟨3, 2, .rw, .any⟩, ⟨1, 2, .rw, .any⟩]⟩,
  ⟨0x0C004, 8, 1024, 0x2EE00040, [⟨14, 18, .rw, .any⟩, ⟨0, 11, .rw, .any⟩]⟩,
  ⟨0x0C008, 8, 1024, 0x00000003, [⟨0, 32, .rw, .any⟩]⟩,
  ⟨0x0C00C, 8, 1024, 0x00000000, [⟨0, 8, .rw, .any⟩]⟩,
  ⟨0x0C010, 8, 1024, 0x404C0420, [⟨31, 1, .rw, .any⟩, ⟨29, 2, .rw, .any⟩, ⟨28, 1, .rw, .any⟩, ⟨27, 1, .rw, .any⟩, ⟨26, 1, .rw, .any⟩, ⟨25, 1, .rw, .any⟩, ⟨23, 2, .rw, .any⟩, ⟨21, 2, .rw, .max 2⟩, ⟨15, 6, .rw, .range 16 32⟩, ⟨10, 5, .rw, .any⟩, ⟨5, 5, .rw, .any⟩, ⟨3, 2, .rw, .any⟩, ⟨1, 2, .rw, .any⟩]⟩,
  ⟨0x0C014, 8, 1024, 0x2EE00040, [⟨14, 18, .rw, .any⟩, ⟨0, 11, .rw, .any⟩]⟩,
  ⟨0x0C018, 8, 1024, 0x00000003, [⟨0, 32, .rw, .any⟩]⟩,
  ⟨0x0C01C, 8, 1024, 0x00000000, [⟨0, 8, .rw, .any⟩]⟩,
  ⟨0x0C020, 8, 1024, 0x00000000, []⟩,
  ⟨0x0C024, 8, 1024, 0x00000000, [⟨20, 1, .w1c, .any⟩, ⟨19, 1, .w1c, .any⟩, ⟨18, 1, .w1c, .any⟩, ⟨17, 1, .w1c, .any⟩, ⟨16, 1, .w1c, .any⟩, ⟨4, 1, .w1c, .any⟩, ⟨3, 1, .w1c, .any⟩, ⟨2, 1, .w1c, .any⟩, ⟨1, 1, .w1c, .any⟩, ⟨0, 1, .w1c, .any⟩]⟩,
  ⟨0x0C028, 8, 1024, 0x00000000, []⟩,
  ⟨0x0C02C, 8, 1024, 0x00000000, []⟩,
  ⟨0x0C030, 8, 1024, 0x000000C8, [⟨0, 16, .rw, .any⟩]⟩,
  ⟨0x0C034, 8, 1024, 0x00000000, []⟩,
  ⟨0x0C038, 8, 1024, 0x00000000, []⟩,
  ⟨0x0C040, 8, 1024, 0x00000000, []⟩,
  ⟨0x0C044, 8, 1024, 0x00000000, []⟩,
  ⟨0x0C048, 8, 1024, 0x00000000, []⟩,
  ⟨0x0C04C, 8, 1024, 0x00000000, []⟩,
  ⟨0x0C050, 8, 1024, 0x00000000, []⟩,
  ⟨0x0C054, 8, 1024, 0x00000000, []⟩,
  ⟨0x0C058, 8, 1024, 0x00000000, []⟩,
  ⟨0x0C05C, 8, 1024, 0x00000000, []⟩,
  ⟨0x0C380, 8, 1024, 0x00000000, []⟩,
  ⟨0x0C384, 8, 1024, 0x00000000, []⟩,
  ⟨0x0C388, 8, 1024, 0x00000000, []⟩,
  ⟨0x0C38C, 8, 1024, 0x00000000, []⟩,
  ⟨0x0C390, 8, 1024, 0x00000000, []⟩,
  ⟨0x0C394, 8, 1024, 0x00000000, []⟩,
  ⟨0x0C398, 8, 1024, 0x00000000, []⟩]

def regsNet : List RegDef := [
  ⟨0x0E000, 1, 4, 0x00000000, [⟨9, 1, .rwl, .any⟩, ⟨8, 1, .rwl, .any⟩, ⟨4, 2, .rwl, .max 2⟩, ⟨0, 2, .rwl, .max 2⟩]⟩,
  ⟨0x0E004, 1, 4, 0x00000000, []⟩,
  ⟨0x0E008, 1, 4, 0xF8F80000, [⟨24, 8, .rw, .any⟩, ⟨16, 8, .rw, .any⟩, ⟨7, 1, .rw, .any⟩, ⟨6, 1, .rw, .any⟩, ⟨5, 1, .rw, .any⟩, ⟨0, 2, .rw, .max 2⟩]⟩,
  ⟨0x0E00C, 1, 4, 0x00000000, []⟩,
  ⟨0x0E010, 1, 4, 0x00000000, [⟨0, 32, .rw, .any⟩]⟩,
  ⟨0x0E014, 1, 4, 0x00000000, [⟨0, 32, .rw, .any⟩]⟩,
  ⟨0x0E018, 1, 4, 0x00000000, [⟨0, 32, .rw, .any⟩]⟩,
  ⟨0x0E01C, 1, 4, 0x00000000, [⟨0, 32, .rw, .any⟩]⟩,
  ⟨0x0E020, 1, 4, 0x00000000, [⟨31, 1, .rw, .any⟩, ⟨0, 6, .rw, .any⟩]⟩,
  ⟨0x0E024, 1, 4, 0x00000000, [⟨31, 1, .w1s, .any⟩, ⟨30, 1, .rw, .any⟩, ⟨29, 1, .rw, .any⟩, ⟨21, 5, .rw, .any⟩, ⟨16, 5, .rw, .any⟩, ⟨0, 16, .rw, .any⟩]⟩,
  ⟨0x0E028, 1, 4, 0x00000000, [⟨0, 32, .rwl, .any⟩]⟩,
  ⟨0x0E02C, 1, 4, 0x00000000, [⟨0, 16, .rwl, .any⟩]⟩,
  ⟨0x0E030, 1, 4, 0x00000000, [⟨0, 32, .rwl, .any⟩]⟩,
  ⟨0x0E034, 1, 4, 0x00000000, [⟨0, 16, .rwl, .any⟩]⟩,
  ⟨0x0E038, 1, 4, 0x00000000, [⟨0, 32, .rwl, .any⟩]⟩,
  ⟨0x0E03C, 1, 4, 0x00000000, [⟨0, 32, .rwl, .any⟩]⟩,
  ⟨0x0E040, 1, 4, 0x00000000, [⟨0, 10, .rw, .any⟩]⟩,
  ⟨0x0E044, 1, 4, 0x00000000, []⟩,
  ⟨0x0E048, 1, 4, 0x00000000, []⟩,
  ⟨0x0E04C, 1, 4, 0x00000000, []⟩,
  ⟨0x0E050, 1, 4, 0x00000000, []⟩,
  ⟨0x0E054, 1, 4, 0x00000000, []⟩,
  ⟨0x0E058, 1, 4, 0x00000000, []⟩,
  ⟨0x0E05C, 1, 4, 0x00000000, []⟩,
  ⟨0x0E060, 1, 4, 0x00000000, []⟩,
  ⟨0x0E064, 1, 4, 0x00000000, []⟩,
  ⟨0x0E068, 1, 4, 0x00000000, []⟩,
  ⟨0x0E06C, 1, 4, 0x00000000, []⟩]

def regsHst : List RegDef := [
  ⟨0x10000, 1, 4, 0x00000040, [⟨31, 1, .rw, .any⟩, ⟨0, 8, .rw, .clamp 64 255⟩]⟩,
  ⟨0x10004, 1, 4, 0x00000000, []⟩,
  ⟨0x10008, 1, 4, 0x00000000, [⟨31, 1, .w1c, .any⟩, ⟨30, 1, .w1c, .any⟩, ⟨29, 1, .w1c, .any⟩, ⟨28, 1, .w1c, .any⟩, ⟨27, 1, .w1c, .any⟩, ⟨26, 1, .w1c, .any⟩]⟩,
  ⟨0x1000C, 1, 4, 0x00000000, []⟩,
  ⟨0x10010, 1, 4, 0x00000000, [⟨8, 24, .rw, .any⟩]⟩,
  ⟨0x10014, 1, 4, 0x00000000, [⟨0, 32, .rw, .any⟩]⟩,
  ⟨0x10018, 1, 4, 0x00000000, [⟨9, 23, .rw, .any⟩]⟩,
  ⟨0x1001C, 1, 4, 0x00000000, [⟨0, 32, .rw, .any⟩]⟩,
  ⟨0x10020, 1, 4, 0x00000000, []⟩,
  ⟨0x10024, 1, 4, 0x00000000, []⟩,
  ⟨0x10028, 1, 4, 0x00000000, []⟩,
  ⟨0x1002C, 1, 4, 0x00000000, []⟩,
  ⟨0x10100, 16, 16, 0x00000000, [⟨12, 20, .rwl, .any⟩]⟩,
  ⟨0x10104, 16, 16, 0x00000000, [⟨0, 32, .rwl, .any⟩]⟩,
  ⟨0x10108, 16, 16, 0x00000000, [⟨0, 32, .rwl, .any⟩]⟩,
  ⟨0x1010C, 16, 16, 0x00000000, [⟨1, 1, .rwl, .any⟩, ⟨0, 1, .rwl, .any⟩]⟩,
  ⟨0x10400, 64, 32, 0x00000000, [⟨6, 26, .rw, .any⟩]⟩,
  ⟨0x10404, 64, 32, 0x00000000, [⟨0, 32, .rw, .any⟩]⟩,
  ⟨0x10408, 64, 32, 0x00000000, [⟨31, 1, .rw, .any⟩, ⟨25, 6, .rw, .any⟩, ⟨20, 5, .rw, .any⟩, ⟨16, 4, .rw, .range 4 15⟩, ⟨8, 8, .rw, .any⟩, ⟨0, 4, .rw, .max 7⟩]⟩,
  ⟨0x1040C, 64, 32, 0x00000000, [⟨16, 3, .rw, .max 4⟩, ⟨8, 8, .rw, .any⟩, ⟨0, 8, .rw, .any⟩]⟩,
  ⟨0x10410, 64, 32, 0x00000040, [⟨0, 16, .rw, .any⟩]⟩,
  ⟨0x10414, 64, 32, 0x00000000, []⟩,
  ⟨0x10418, 64, 32, 0x00000000, []⟩,
  ⟨0x1041C, 64, 32, 0x00000000, []⟩]

def regsTwb : List RegDef := [
  ⟨0x11000, 1, 4, 0x00000900, [⟨9, 3, .rw, .any⟩, ⟨8, 1, .rw, .any⟩, ⟨1, 1, .rw, .any⟩, ⟨0, 1, .rw, .any⟩]⟩,
  ⟨0x11004, 1, 4, 0x00000058, []⟩,
  ⟨0x11008, 1, 4, 0x00000000, [⟨5, 1, .w1c, .any⟩, ⟨4, 1, .w1c, .any⟩, ⟨3, 1, .w1c, .any⟩, ⟨2, 1, .w1c, .any⟩, ⟨1, 1, .w1c, .any⟩, ⟨0, 1, .w1c, .any⟩]⟩,
  ⟨0x1100C, 1, 4, 0x0000003F, [⟨0, 6, .rw, .any⟩]⟩,
  ⟨0x11010, 1, 4, 0x00000000, []⟩,
  ⟨0x11014, 1, 4, 0x00000000, []⟩,
  ⟨0x11018, 1, 4, 0x00000000, []⟩,
  ⟨0x1101C, 1, 4, 0x00000000, []⟩]

def regsWak : List RegDef := [
  ⟨0x12000, 1, 4, 0x00000001, [⟨20, 4, .rw, .any⟩, ⟨16, 2, .rw, .any⟩, ⟨7, 1, .rw, .any⟩, ⟨3, 1, .rw, .any⟩, ⟨2, 1, .rw, .any⟩, ⟨0, 1, .rw, .any⟩]⟩,
  ⟨0x12004, 1, 4, 0x00000000, [⟨8, 8, .rw, .any⟩, ⟨0, 8, .rw, .any⟩]⟩,
  ⟨0x12008, 1, 4, 0x00000000, [⟨16, 16, .rw, .any⟩, ⟨0, 16, .rw, .any⟩]⟩,
  ⟨0x1200C, 1, 4, 0x00000000, [⟨0, 11, .w1c, .any⟩]⟩,
  ⟨0x12100, 1, 4, 0x0000FFFF, [⟨31, 1, .rw, .any⟩, ⟨30, 1, .rw, .any⟩, ⟨28, 2, .rw, .max 1⟩, ⟨0, 16, .rw, .source⟩]⟩,
  ⟨0x12104, 1, 4, 0x00000000, [⟨0, 16, .rw, .any⟩]⟩,
  ⟨0x12108, 1, 4, 0x183C3240, [⟨24, 8, .rw, .any⟩, ⟨16, 8, .rw, .any⟩, ⟨8, 8, .rw, .any⟩, ⟨6, 2, .rw, .any⟩]⟩,
  ⟨0x1210C, 1, 4, 0x000C1400, [⟨16, 8, .rw, .any⟩, ⟨8, 8, .rw, .clamp 1 255⟩]⟩,
  ⟨0x12110, 1, 4, 0x00000000, []⟩,
  ⟨0x12114, 1, 4, 0x00000000, []⟩,
  ⟨0x12118, 1, 4, 0x00000000, []⟩,
  ⟨0x1211C, 1, 4, 0x00000000, []⟩,
  ⟨0x12120, 1, 4, 0x00000000, []⟩,
  ⟨0x12124, 1, 4, 0x00000000, []⟩,
  ⟨0x12128, 1, 4, 0x00000000, []⟩,
  ⟨0x1212C, 1, 4, 0x00000000, [⟨0, 1, .rw, .any⟩]⟩]

def regsBlz : List RegDef := [
  ⟨0x13000, 1, 4, 0x00000000, [⟨31, 1, .rw, .any⟩, ⟨30, 1, .rw, .any⟩, ⟨24, 6, .rw, .any⟩]⟩,
  ⟨0x13004, 1, 4, 0x00000000, []⟩,
  ⟨0x13008, 1, 4, 0x00000000, []⟩,
  ⟨0x1300C, 1, 4, 0x00000000, []⟩,
  ⟨0x13010, 1, 4, 0x00000000, []⟩,
  ⟨0x13014, 1, 4, 0x00000000, []⟩,
  ⟨0x13020, 7, 4, 0x00000000, []⟩,
  ⟨0x1303C, 1, 4, 0x00000000, []⟩,
  ⟨0x13040, 1, 4, 0x00000000, []⟩,
  ⟨0x13044, 1, 4, 0x00000000, []⟩,
  ⟨0x13080, 1, 4, 0x00000000, [⟨0, 32, .rw, .any⟩]⟩,
  ⟨0x13084, 1, 4, 0x00000000, []⟩,
  ⟨0x130A0, 8, 4, 0x00000000, []⟩]

def regsFlt : List RegDef := [
  ⟨0x14000, 1, 4, 0x00000000, [⟨4, 1, .w1s, .any⟩, ⟨3, 1, .w1s, .any⟩, ⟨2, 1, .w1s, .any⟩, ⟨1, 1, .w1s, .any⟩, ⟨0, 1, .w1s, .any⟩]⟩,
  ⟨0x14004, 1, 4, 0x00000000, []⟩,
  ⟨0x14008, 1, 4, 0x00000000, [⟨0, 1, .w1c, .any⟩, ⟨1, 1, .w1c, .any⟩, ⟨2, 1, .w1c, .any⟩, ⟨3, 1, .w1c, .any⟩]⟩,
  ⟨0x1400C, 1, 4, 0x00000003, [⟨0, 4, .rwl, .clamp 2 8⟩]⟩,
  ⟨0x14010, 1, 4, 0x00000000, []⟩,
  ⟨0x14014, 1, 4, 0x00000000, []⟩,
  ⟨0x14018, 1, 4, 0x00000000, [⟨12, 20, .rwl, .any⟩]⟩,
  ⟨0x1401C, 1, 4, 0x00000000, [⟨0, 32, .rwl, .any⟩]⟩,
  ⟨0x14020, 1, 4, 0x00000000, [⟨12, 20, .rwl, .any⟩, ⟨0, 1, .rwl, .any⟩]⟩,
  ⟨0x14024, 1, 4, 0x00000000, [⟨0, 32, .rwl, .any⟩]⟩,
  ⟨0x14028, 1, 4, 0x00000000, []⟩,
  ⟨0x14040, 1, 4, 0x00000000, []⟩,
  ⟨0x14044, 1, 4, 0x00000000, []⟩,
  ⟨0x14048, 1, 4, 0x00000000, []⟩,
  ⟨0x1404C, 1, 4, 0x00000000, []⟩,
  ⟨0x14050, 1, 4, 0x00000000, []⟩,
  ⟨0x14054, 1, 4, 0x00000000, []⟩,
  ⟨0x14058, 1, 4, 0x00000000, []⟩,
  ⟨0x1405C, 1, 4, 0x00000000, []⟩]

def regsHwd : List RegDef := [
  ⟨0x15000, 1, 4, 0x00000000, []⟩,
  ⟨0x15004, 1, 4, 0x00000000, [⟨6, 26, .rw, .any⟩]⟩,
  ⟨0x15008, 1, 4, 0x00000000, [⟨0, 32, .rw, .any⟩]⟩,
  ⟨0x1500C, 1, 4, 0x00000000, [⟨0, 32, .rw, .any⟩]⟩,
  ⟨0x15010, 1, 4, 0x00000000, [⟨0, 1, .w1s, .any⟩]⟩,
  ⟨0x15014, 1, 4, 0x00000000, []⟩,
  ⟨0x15018, 1, 4, 0x00000000, [⟨0, 32, .rw, .any⟩]⟩,
  ⟨0x1501C, 1, 4, 0x00000000, [⟨0, 32, .rw, .any⟩]⟩,
  ⟨0x15020, 1, 4, 0x00000000, [⟨0, 32, .rw, .any⟩]⟩,
  ⟨0x15024, 1, 4, 0x00000000, [⟨0, 1, .w1s, .any⟩]⟩,
  ⟨0x15040, 8, 4, 0x00000000, []⟩,
  ⟨0x15060, 4, 4, 0x00000000, []⟩,
  ⟨0x15070, 1, 4, 0x00000000, []⟩,
  ⟨0x15074, 1, 4, 0x00000000, []⟩,
  ⟨0x15078, 1, 4, 0x00000000, []⟩,
  ⟨0x1507C, 1, 4, 0x00000000, []⟩,
  ⟨0x15080, 1, 4, 0x00000000, []⟩]

def regsPin : List RegDef := [
  ⟨0x16000, 16, 4, 0x00000080, [⟨16, 8, .rwl, .any⟩, ⟨6, 2, .rwl, .max 2⟩, ⟨5, 1, .rwl, .any⟩, ⟨4, 1, .rw, .any⟩, ⟨0, 4, .rwl, .any⟩]⟩,
  ⟨0x16040, 1, 4, 0x00000000, [⟨0, 16, .rw, .any⟩]⟩,
  ⟨0x16044, 1, 4, 0x00000000, []⟩,
  ⟨0x16048, 1, 4, 0x00000000, []⟩,
  ⟨0x1604C, 1, 4, 0x00000000, []⟩,
  ⟨0x16050, 1, 4, 0x00000000, [⟨0, 32, .rwl, .any⟩]⟩,
  ⟨0x16054, 1, 4, 0x00000000, [⟨0, 16, .rw, .any⟩]⟩,
  ⟨0x16058, 1, 4, 0x00000000, []⟩,
  ⟨0x1605C, 1, 4, 0x00000005, [⟨2, 2, .rwl, .max 2⟩, ⟨0, 2, .rwl, .max 2⟩]⟩,
  ⟨0x16060, 1, 4, 0x00000000, []⟩,
  ⟨0x16064, 1, 4, 0x00000000, []⟩,
  ⟨0x16068, 1, 4, 0x00000000, []⟩]

def regsMsix : List RegDef := [
  ⟨0x3E000, 32, 16, 0x00000000, [⟨2, 30, .rw, .any⟩]⟩,
  ⟨0x3E004, 32, 16, 0x00000000, [⟨0, 32, .rw, .any⟩]⟩,
  ⟨0x3E008, 32, 16, 0x00000000, [⟨0, 32, .rw, .any⟩]⟩,
  ⟨0x3E00C, 32, 16, 0x00000001, [⟨0, 1, .rw, .any⟩]⟩]

def regsPba : List RegDef := [
  ⟨0x3F000, 1, 4, 0x00000000, []⟩]

/-- The register table of the 4 KiB block that holds an offset (Table RG-1); SAP and NET take two. -/
def blockRegs (off : Nat) : List RegDef :=
  match off / 4096 with
  | 0 => regsTop
  | 1 => regsClk
  | 2 => regsTime
  | 3 => regsPwr
  | 4 => regsAin
  | 5 => regsAout
  | 6 => regsSpk
  | 7 => regsThk
  | 8 => regsTrl
  | 9 => regsFx
  | 10 => regsClp
  | 11 => regsMem
  | 12 | 13 => regsSap
  | 14 | 15 => regsNet
  | 16 => regsHst
  | 17 => regsTwb
  | 18 => regsWak
  | 19 => regsBlz
  | 20 => regsFlt
  | 21 => regsHwd
  | 22 => regsPin
  | 62 => regsMsix
  | 63 => regsPba
  | _ => []

/-- Does the register run hold this offset? -/
def RegDef.holds (d : RegDef) (off : Nat) : Bool :=
  decide (d.off ≤ off) && decide ((off - d.off) % d.stride = 0) && decide ((off - d.off) / d.stride < d.count)

/-- The register at an offset, if the tables list one; every other offset is reserved (R310, R509). -/
def regDef? (off : Nat) : Option RegDef := (blockRegs off).find? (·.holds off)

/-- The reset value of the register at an offset; reserved offsets read as zero (R310). -/
def resetOf (off : Nat) : Word := match regDef? off with
  | some d => BitVec.ofNat 32 d.reset
  | none => 0

end Sys2Proof.Machine
end

