-- ==== Sys2Proof/Machine/State.lean ====
section
/-! DEFINITION. The state of the GZ9320 as plain data: the registers of BAR0 that hold a value of their own, and for
each block the machine state that the manual gives it beside its registers; the queue of commands that wait; the
faults and refusals; the state after cold reset. -/
namespace Sys2Proof.Machine

/-! ## Shared pieces -/

/-- A value that moves linearly from `c0` to `tgt` in `n` ticks: the level factors of R95, R113, R134 and R266, kept
exactly. -/
structure Factor where
  cur : Rat
  c0  : Rat
  tgt : Rat
  n   : Nat
  deriving DecidableEq, Repr

/-- A ramp of R173: the value in use and that of the tick (or step) before, the start, the target, the length, the ticks
(or steps) done, and whether it holds a fader slot (R181). -/
structure GRamp where
  cur  : Int
  prev : Int
  c0   : Int
  tgt  : Int
  n    : Nat
  i    : Nat
  slot : Bool
  deriving DecidableEq, Repr

/-- The word of a source in the sample interchange with its quality tag (R14, R482): 0 computed, 1 external cause,
2 host cause, 3 device cause. -/
structure Smp where
  val : Int
  tag : Nat
  deriving DecidableEq, Repr

/-- The status codes of Table HR-7. -/
inductive Status where
  | ok | late | expired | conflict | budget | invalid | denied | aborted | timeout | busy | lost
  deriving DecidableEq, Repr

/-! ## Device time and clocks (chapter 2) -/

/-- A slew of R58: the target mapping (anchors and rate) and the sign of Δ. -/
structure Slew where
  da  : DT
  va  : Int
  r   : Int
  pos : Bool
  deriving DecidableEq, Repr

/-- A mapping of R55 and its slew. -/
structure Mapping where
  valid : Bool
  da    : DT
  va    : Int
  r     : Int
  slew  : Option Slew
  deriving DecidableEq, Repr

/-- A history entry (Table TK-6). -/
structure HistEntry where
  epoch : BitVec 8
  kind  : Nat
  rate  : Int
  dt    : DT
  old   : Int
  new   : Int
  deriving DecidableEq, Repr

/-- A real tick boundary: its count, its DT, and the rate code of the virtual ticks before it, if there are any. -/
structure Bound where
  ts : TS
  dt : DT
  vr : Nat
  deriving DecidableEq, Repr

structure TimeSt where
  dt      : DT          -- the latest device time the machine has reached (R45)
  hadTick : Bool        -- a real boundary has occurred since cold reset (R33)
  running : Bool        -- the house clock runs and ticks are real (R52)
  ts      : TS          -- the tick in force; the last real one while the clock stands
  bdt     : DT          -- the captured DT of that boundary (R49)
  vrate   : Nat         -- the rate code of the virtual ticks (R33, R52)
  bdts    : List DT     -- DTs of the last real boundaries, newest first
  epoch   : BitVec 8
  net     : Mapping
  wall    : Mapping
  netHold : Bool
  netGm   : BitVec 64   -- identity of the grandmaster in force (R56), or its tag (R304)
  netSync : DT          -- DT of the last measurement taken (R288)
  placed  : Option TS   -- the next boundary has been placed: its tick count (R33, R53)
  lastTs  : TS          -- the last tick whose phases have been begun
  lastDt  : DT          -- the DT of its boundary
  started : Bool        -- the first boundary after RUN has come
  hist    : List HistEntry   -- the 32 newest, newest first (R60)
  histCnt : Nat         -- entries written
  keeper  : Bool        -- the Canopy keeper carries DT (R47)
  handDt  : DT          -- the DT handed to the keeper
  exact   : Rat         -- the instant of the boundary in force in ns, before its capture (R31, R45)
  pers    : List Nat    -- lengths in ns of the last 1,024 real ticks, newest first (R50)
  past    : List Bound  -- the real boundaries since the oldest pre-roll block, newest first (R237)
  deriving DecidableEq, Repr

/-- LEADER_STATE of CLK_STATUS (R39). -/
inductive LeaderState where
  | noLeader | acquiring | locked | holdover | outOfRange
  deriving DecidableEq, Repr

/-- A HOUSE_RATE in progress (Table TK-3): boundary T, the codes, the ring and tag data for its write-back, the
number of aborted commands, and S once the new rate runs. -/
structure RateChange where
  t       : TS
  tdt     : DT
  old     : Nat
  new     : Nat
  hdr     : Hdr
  stopped : Bool
  aborted : List (Hdr × Nat)     -- timed commands removed at T+32, with their opcodes
  s       : Option TS
  deriving DecidableEq, Repr

structure ClkSt where
  rate     : Nat                 -- rate code in force (FD_CUR)
  lock     : Bool
  mclkExt  : Bool
  mclkLost : Bool                -- R34: on the DCO until the next reset
  cfgErr   : Bool
  kind     : Nat
  index    : Nat
  bw       : Nat
  lstate   : LeaderState
  adopt    : Bool                -- adopt at the next error sample: the setpoint starts there (R38)
  dco      : Int
  integ    : Rat                 -- the integrator of R37, in DCO words
  hold     : Int
  lerr     : Int                 -- Q16.16
  setpt    : Int                 -- Q16.16
  within   : Nat                 -- consecutive ticks within 0.25 sample (R39)
  clamped  : Nat                 -- consecutive ticks at a clamp limit (R39)
  wclk     : Option DT           -- the last rising edge of WCLK_IN (R36)
  decay    : Option (Int × Nat)  -- kind 0: start word and ticks done of 4,096 (R41)
  rc       : Option RateChange
  fade     : GRamp               -- the ramp of Table TK-3 on every sink, of 2^20
  tfade    : GRamp               -- the same on the Trail's output gains, in steps
  deriving DecidableEq, Repr

/-! ## Host interface (chapter 10) -/

/-- HST_RINGn_STAT.STATE; a running ring reads as link wait while the device issues no DMA. -/
inductive RingState where
  | off | enabling | running | error
  deriving DecidableEq, Repr

/-- A host stream descriptor that the mover has picked up: its first target, its frames, what it has done (R335, R338).
One whose consumer index has not been passed yet has `counted` false; `over` is set once it has completed. -/
structure StreamDesc where
  hdr     : Hdr
  opcode  : Nat
  first   : TS
  n       : Nat
  late    : Bool
  moved   : Nat                -- frames placed or captured
  cut     : Nat                -- frames whose tick was past when the descriptor was picked up (R335, R338)
  disc    : Nat                -- discarded as late, or written as zero
  firstOk : Option (TS × DT)   -- first tick with a frame placed or captured, and its DT
  frames  : List (List Word)   -- playback: the frames read; capture: the frames written, oldest first
  bufOk   : Bool               -- the buffer read has come back
  readAt  : TS                 -- k+1: the tick of the buffer read
  addr    : Addr
  ended    : Bool
  counted : Bool
  deriving DecidableEq, Repr

/-- A bulk transfer in progress or waiting on its ring (R340); a rejected one waits only for its consumer index. -/
structure BlkXfer where
  hdr     : Hdr
  opcode  : Nat
  p       : BlkP
  startAt : TS               -- k+2: the boundary from which it may start
  running : Bool
  startTs : TS
  dead    : Bool
  deriving DecidableEq, Repr

/-- An NRX buffer posted, or an NTX frame waiting (R305). -/
structure NetBuf where
  hdr   : Hdr
  addr  : Addr
  len   : Nat
  mac   : Nat
  tsreq : Bool
  queue : Nat
  dead  : Bool               -- rejected: it waits only for its consumer index
  deriving DecidableEq, Repr

structure Ring where
  state   : RingState
  code    : Status           -- of the last enable check or error
  armed   : Bool             -- enabled before the tick in force: the check comes at its phase 8 (R317)
  hidx    : Nat              -- the host's index as last seen
  didx    : Nat              -- the device's index
  resv    : Nat              -- CPL entries reserved (R327)
  stop    : Bool             -- EN was cleared: off at the next boundary (R318)
  raised  : Option TS        -- last MSI-X raise (R323)
  left    : Nat              -- the device index at the end of the last tick (R323)
  wrote   : Bool             -- device-written entries in this tick
  prevEnd : Option TS        -- the previous stream descriptor's T + N (R335)
  placed  : Bool             -- the first frame since enable has been placed (R337)
  missing : Bool             -- a missing-frame episode runs (R337)
  fill    : Nat              -- fill factor in eighths (R260, R337)
  hold    : List Word        -- the last frame delivered
  queue   : List StreamDesc  -- HPB and HCP descriptors picked up, head first
  latewin : Nat              -- the late window in force since the last boundary (R317)
  longRun : Bool             -- a CHAIN run of this ring has proved over-long and has not ended (R330)
  blk     : List BlkXfer     -- transfers picked up, head first
  ntx     : List NetBuf
  nrx     : List NetBuf
  deriving DecidableEq, Repr

/-- A write-back entry (Table HR-6) with the CPL ring and the index it takes there. -/
structure WriteBack where
  cpl    : Nat
  idx    : Nat
  opcode : Nat
  status : Status
  tag    : BitVec 8
  ts     : TS
  dt     : DT
  r0     : Word
  r1     : Word
  r2     : Word
  phase  : Bool
  deriving DecidableEq, Repr

/-- The consumer page as last written (Table HR-4). -/
structure ConsumerPage where
  idx   : List (Nat × Nat × Nat)   -- ring, STATE, device index of every ring listed
  ts    : TS
  dt    : DT
  epoch : BitVec 8
  deriving DecidableEq, Repr

/-- A command that has been picked up: in the journal, staged, or in the pending store. `k` is the tick of its pickup
(or, after a Coppice restart, of its being taken up again), `grp` names its group. -/
structure Picked where
  hdr  : Hdr
  cmd  : Cmd
  k    : TS
  grp  : Nat
  late : Bool
  deriving DecidableEq, Repr

/-- What a wait awaits (R67). -/
inductive WaitKind where
  | spkMeas (chan op : Nat) (cal : BitVec 16)
  | spkWatch (chan : Nat) (mask : BitVec 8)
  | clipVoice (voice : Nat)
  | stream (first count : Nat)
  | listen (mask : BitVec 16)
  deriving DecidableEq, Repr

structure Wait where
  hdr     : Hdr
  opcode  : Nat
  kind    : WaitKind
  timeout : TS
  armed   : TS
  deriving DecidableEq, Repr

/-- A wait whose condition has been met; it completes in phase 4 of the next tick (R67). `pri` orders the arrivals of
one tick for one wait: the lowest is reported (R163). -/
structure Arrival where
  wait   : Wait
  status : Status
  r0     : Word
  r1     : Word
  r2     : Word
  pri    : Nat
  deriving DecidableEq, Repr

/-- A write-back of a boundary that has been placed; it is written when that boundary opens (R403, Table TK-3). -/
structure OpenWb where
  hdr    : Hdr
  opcode : Nat
  status : Status
  ts     : TS
  dt     : DT
  r0     : Word
  r1     : Word
  r2     : Word
  force  : Bool
  deriving DecidableEq, Repr

structure HostSt where
  rings    : SMap Ring
  fresh    : Bool                -- this tick's doorbell has returned (R319)
  issued   : Bool                -- this tick's fetch was issued and has not returned or been counted late
  dbOk     : Bool
  speed    : Nat
  width    : Nat
  bme      : Bool
  perst    : Bool                -- PERST_N asserted
  wb       : List WriteBack      -- write-backs written to host memory, newest first
  heldWb   : List WriteBack      -- write-backs that wait for phase 9, or for the link (R341)
  openWb   : List OpenWb                -- write-backs of a boundary placed by a wake or a rate change
  dueWb    : List (Hdr × Nat × Status)   -- refusals of pickup with their opcodes, written in the next tick (R329)
  cpage    : Option ConsumerPage
  msix     : List Nat            -- vectors raised in this tick
  errNew   : Bool                -- a bit of HST_ERR went from clear to set in this tick (R311)
  waits    : List Wait
  arr      : List Arrival
  picked   : List Picked         -- picked up in the closing tick: staged in the next (R18)
  commit   : List Picked         -- the commit set for the next boundary
  pend     : List Picked         -- the pending store of timed commands (R65)
  fullCnt  : SMap Nat            -- commands refused in this tick for want of a pending entry, by ring (R65)
  limited  : Option Nat          -- the pickup limit was reached in the last tick: the ring to start with (R332)
  pba      : BitVec 32           -- MSI-X pending bits (R311)
  grp      : Nat                 -- next group name
  deriving DecidableEq, Repr

/-! ## Blaze (chapter 15) -/

/-- An event on its way to the store (R440, R443). -/
structure Ev where
  src   : Nat
  code  : Nat
  sev   : Nat
  dt    : DT
  epoch : BitVec 8
  p0    : Word
  p1    : Word
  p2    : Word
  coal  : Bool
  cnt   : Nat
  deriving DecidableEq, Repr

/-- A record of the on-chip store. -/
structure Rec where
  slot : Nat
  seq  : Word
  ev   : Ev
  deriving DecidableEq, Repr

/-- The pending DROP summary (R447). -/
structure DropSum where
  count : Nat
  mask  : Nat
  top   : Nat
  stage : Nat
  dt    : DT
  epoch : BitVec 8
  deriving DecidableEq, Repr

/-- A SEAL whose number is reserved (R455). -/
structure SealDue where
  seq   : Word
  dt    : DT
  epoch : BitVec 8
  span  : List Rec
  deriving DecidableEq, Repr

/-- A once-per-second limiter (R561): the code and key, the DT from which its second runs, the first gathered event
and how many were gathered; `cp` names the parameter that counts (3: none). -/
structure Limiter where
  code  : Nat
  key   : Nat
  since : DT
  first : Option Ev
  n     : Nat
  cp    : Nat
  deriving DecidableEq, Repr

structure BlzSt where
  queues   : SMap (List Ev)      -- staging queues by source ID, oldest first
  canopy   : List Ev             -- Canopy's queue while the core is down (R445)
  store    : List Rec            -- in commit order, oldest first
  seqNext  : Word
  drop     : Option DropSum
  seals    : List SealDue        -- reserved, oldest first (R455)
  sealFirst : Bool               -- a reset came between: the oldest is written before any other record (R455)
  boot     : Option Ev           -- BLZ_BOOT, committed before any other (R456)
  span     : List Rec            -- records since the previous SEAL, oldest first
  prevSeal : BitVec 256          -- the last chain value, or the first chain input, little-endian (R503)
  sealSeq  : Word                -- number of the newest SEAL
  pos      : Word                -- next sequence number of the drain
  run      : Bool
  err      : Bool
  everRun  : Bool                -- DRAIN_EN has been set since reset
  evt      : List (Nat × Rec)    -- records delivered to EVT rings, newest first
  win      : Option (Nat × Bool) -- the slot selected by BLZ_WIN_SEQ, and whether it holds the number sought (R451)
  lims     : List Limiter
  deriving DecidableEq, Repr

/-! ## Inputs (chapter 3) -/

/-- A sequence on an input: the front-end sequence of Table AI-8 or the filter change of R99, its boundary T, the
configuration before it, and whether its switch at T+32 has come. -/
structure AinSeq where
  fe       : Bool
  t        : TS
  old      : Word
  switched : Bool
  deriving DecidableEq, Repr

/-- The state of a tap's first-order DC removal: its last input and its last output, as Q2.30 (R94). -/
structure DcSt where
  x : Int
  y : Int
  deriving DecidableEq, Repr

/-- An analog input 0-9. -/
structure AinCh where
  gain   : Nat             -- the gain code the preamp has reached (R79)
  steps  : Nat             -- steps since the last increment or the start of the move
  due    : Bool            -- a step boundary has called for an increment that is still to be applied (R79)
  sign   : Option Bool     -- sign bit of the last Trail-tap sample
  mute   : Factor
  jack   : Factor
  fault  : Factor
  filt   : Factor          -- Thicket tap only (R99)
  seq    : Option AinSeq
  analog : Word            -- the configuration that the front end and the level processing have
  noClip : Bool            -- the front end settles (Table AI-8)
  bias   : Factor          -- the bias level in mV (R81, Table AI-8)
  dcThk  : DcSt            -- DC removal of the Thicket tap
  dcTrl  : DcSt            -- DC removal of the Trail tap
  modTs  : Option TS       -- tick of the last modulator reset (R97)
  clipTs : Option TS       -- last tick counted by AIN_CLIPCNT (R96)
  lim    : Option DT       -- the bias limit has held since (R82)
  off    : Bool            -- bias turned off by R82
  deriving DecidableEq, Repr

/-- A PDM channel. -/
structure PdmCh where
  mute  : Factor
  fault : Factor           -- stuck data (R89)
  en    : Factor           -- EN changes (R104)
  filt  : Factor
  seq   : Option AinSeq
  stuck : Option Nat
  dcThk : DcSt
  dcTrl : DcSt
  deriving DecidableEq, Repr

structure AinSt where
  ch    : SMap AinCh
  pdm   : SMap PdmCh
  jack0 : Bool
  jack1 : Bool
  deriving DecidableEq, Repr

/-! ## Line and headphone outputs (chapter 4) -/

/-- The rows of Table AO-7. -/
inductive AoutSeqKind where
  | enable | disable | filter | range
  deriving DecidableEq, Repr

/-- A sequence of Table AO-7 on an output channel, from boundary T; `cfg` is the configuration whose MUTE and MRAMP
take effect at its final row. -/
structure AoutSeq where
  kind     : AoutSeqKind
  t        : TS
  cfg      : Word
  switched : Bool
  up       : Bool          -- the ramp up has started
  deriving DecidableEq, Repr

/-- An output channel: 0-7 line, 8-11 headphone (Table AO-10). -/
structure AoutCh where
  mute   : Factor
  jack   : Factor
  fault  : Factor
  rfault : Factor          -- the fault factor that a range sequence gives (R128)
  state  : Factor
  seq    : Option AoutSeq
  rng    : Option AoutSeq
  out    : Bool            -- taken out of drive: a short or a charge-pump fault (R111, R112)
  wait   : Bool            -- its enable sequence waits for its supply (R114, R128)
  drive  : Bool            -- the stage is driving
  deriving DecidableEq, Repr

/-- Where an insertion stands (R119, R122). -/
inductive JackPhase where
  | absent | debounce | identified | measured | present | afterWake | served
  deriving DecidableEq, Repr

/-- A headphone jack. -/
structure HpJack where
  phase  : JackPhase
  t0     : DT
  poles  : Nat
  zl     : Nat
  zr     : Nat
  rampAt : Option DT       -- the jack factor ramps at the first tick boundary at or after this DT
  short  : Bool            -- class 0: served again only after removal (R120)
  rem    : Option TS       -- removal: the tick in which its 8 tk ramp ends (R123)
  remReq : Bool            -- removal decided, its ramp starts at the next boundary
  lo     : Bool            -- LO range in force
  held   : Nat             -- button held: 0 none, 1 A, 2 B, 3 C
  again  : Option DT       -- HPn_DET went low again, at this DT, while a removal ramps out
  deriving DecidableEq, Repr

/-- The common-mode ramp of the line legs (Table AO-5). -/
inductive Vcm where
  | off | ramping | ok
  deriving DecidableEq, Repr

structure AoutSt where
  ch       : SMap AoutCh
  hp0      : HpJack
  hp1      : HpJack
  cpStop   : Bool          -- the charge pump was stopped by CP_FAULT (R111)
  vcm      : Vcm
  rangeReq : Nat           -- jacks whose range sequence starts at the next boundary (R128)
  hold7    : Bool          -- identification holds AIN7 at zero (R121)
  conv     : SMap Int      -- what the output converters 0-13 were last given (R113, R134)
  deriving DecidableEq, Repr

/-- The supplies and the reset pins (chapter 20). -/
structure SupSt where
  avdd   : Bool
  vio1   : Bool
  vio2   : Bool
  vio2Hi : Bool
  vdd2   : Bool
  vddq   : Bool
  pvdd   : Bool
  vsys   : Bool            -- VSYS at or above its core threshold
  canopy : Bool            -- VSYS at or above its Canopy threshold
  core   : Bool            -- the digital-die supply
  resetN : Bool            -- RESET_N asserted
  deriving DecidableEq, Repr

/-! ## Loudspeakers (chapter 5) -/

/-- Where the retries of a latched channel stand (R151): the schedule runs from the latch that ended the previous
attempt, an attempt waits under the clamp, or a probe runs from a boundary. -/
inductive Retry where
  | none
  | sched (since : DT)
  | clamp
  | probe (start : DT)
  deriving DecidableEq, Repr

/-- A pilot (R143): 0 none, 1 sub-audible, 2 ultrasonic. `next` is the pilot that starts when the running one has ramped
out (R162); `win` is the DT at which the window in progress began, `setup` SPK_PILOT as it stood then (R164). -/
structure Pilot where
  kind  : Nat
  amp   : Factor
  next  : Nat
  win   : Option DT
  setup : Word
  since : DT               -- phase zero of the sine
  held  : Bool             -- suspended: fault or state factor below one, or protection (R143, R146)
  deriving DecidableEq, Repr

/-- A loudspeaker channel. -/
structure SpkCh where
  mute    : Factor
  fault   : Factor
  state   : Factor
  coil    : Factor         -- the thermal factor that the voice coil asks for (R145)
  die     : Factor         -- the thermal factor that the junction asks for (R154)
  cap     : Rat
  rail    : Rat
  acting  : Bool           -- the rail limiter acted in the last carrier period
  seq     : Option AoutSeq
  settled : Bool           -- the stage of an enable sequence has settled; the ramp up waits for BST_OUT (R135)
  upAt    : TS             -- the boundary at which the ramp up of an enable started
  wake    : Option DT      -- the state factor ramp waits for BST_OUT; the DT of the first real boundary (R155)
  drive   : Bool
  fsv     : Nat            -- FSV code in force
  filt    : Nat            -- FILT code in force
  limits  : List DT        -- limit events of the last 64 us (R148)
  latch   : Bool
  giveup  : Bool           -- no further attempt before REARM
  capTrip : Bool           -- latched by the backstop: no retry (R159)
  tries   : Nat
  retry   : Retry
  pilot   : Pilot
  cls     : Nat            -- Table SP-4
  tfloor  : Bool           -- the Trail floor holds (R139)
  capOne  : Option DT      -- DT from which the cap factor has been at one; none: since the start
  capLow  : Option DT      -- DT from which the channel's measure has been below 80 % of its limit
  plan    : List (Rat × DT)  -- needs in mV of the samples read and not yet played, with their DT at the modulator
  trailMv : Rat            -- need of the last Trail sample played
  out     : Int            -- what the modulator was last given, Q1.31 of FSV: level, rail factor and pilot (R140, R143)
  deriving DecidableEq, Repr

/-- An event of R152 or R163 that the next tick reports: channel, mask bits, the record to log, and what the waits show. -/
structure SpkEv where
  chan   : Nat
  bits   : Nat
  code   : Nat             -- 0: nothing to log
  sev    : Nat
  p1     : Word
  p2     : Word
  limcnt : Word
  bst    : Word
  deriving DecidableEq, Repr

structure SpkSt where
  ch0     : SpkCh
  ch1     : SpkCh
  target  : Rat            -- boost target, mV
  bst     : Nat            -- BST_OUT as last measured, mV
  pvdd    : Nat            -- PVDD as last measured, mV (R136)
  clamp   : Bool           -- R149
  low     : Bool           -- BST_OUT has been found below 8 V under the clamp: release at the next boundary
  ovp     : Nat            -- comparators that tripped and still hold: bit 0 the first, bit 1 the second (R153)
  pvddBad : Bool           -- stopped by PVDD (R154)
  dieLvl  : Nat            -- 0; 1 above 140 C; 2 above 150 C
  enReq   : Bool           -- enabled channels run their enable sequence at the next boundary (R154)
  totLow  : Option DT      -- DT from which the total has been below 80 % of its limit
  evs     : List SpkEv
  deriving DecidableEq, Repr

/-! ## Thicket and Trail (chapter 6) -/

/-- A lane in dual feed (R184): the old source, the length and the ticks done. -/
structure DualFeed where
  old : ChAddr
  n   : Nat
  i   : Nat
  deriving DecidableEq, Repr

/-- A selector with its crossfader (R183): the source in force and its share (of 2^20), the sources that fade out, the
Trail channel whose crossfade it follows in a handover with the source that fades out there (R203), and the boundary of
its last claim. -/
structure Sel where
  src    : ChAddr
  up     : GRamp
  fades  : List (ChAddr × GRamp)
  follow : Option Nat
  fOld   : ChAddr
  claim  : Option TS
  rel    : Option TS          -- the boundary of its last release (R202)
  deriving DecidableEq, Repr

/-- A meter's window so far: the peak and the sum of squares (R186). -/
structure MeterAcc where
  peak : Nat
  sum  : Nat
  deriving DecidableEq, Repr

/-- A meter report (Table TH-3). -/
structure MeterRep where
  seq     : Word
  ts      : TS
  dt      : DT
  epoch   : BitVec 8
  period  : Nat
  changed : List Nat
  vals    : List (Nat × (Nat × Nat))   -- meter, peak and RMS
  deriving DecidableEq, Repr

structure MeterSt where
  on      : Bool
  done    : Nat                  -- ticks of the window that have been gathered
  period  : Nat                  -- PERIOD of the window
  seq     : Word
  changed : List Nat
  acc     : SMap MeterAcc
  due     : Option MeterRep      -- the window that has just ended
  sent    : Option (Addr × List Word)   -- the last report written to host memory: its slot's address and its words (R187)
  deriving DecidableEq, Repr

/-- A tone generator (R189): the waveform in force, its frequency (Q24.8), its level ramp, its phase in turns, its
generator, and whether it is ramping off. -/
structure Tone where
  wave  : Nat
  freq  : Word
  level : GRamp
  phase : Rat
  lfsr  : Word
  off   : Bool
  deriving DecidableEq, Repr

structure ThkSt where
  act      : SMap Word           -- active node words by bus * 512 + lane; unlisted 0
  shd      : SMap Word           -- shadow node words
  actBus   : SMap Word           -- active bus gain words; unlisted 0x00100000
  shdBus   : SMap Word
  ramps    : SMap GRamp          -- nodes whose in-use value ramps
  busRamps : SMap GRamp
  dual     : SMap DualFeed       -- by lane
  swapAt   : Option TS           -- boundary of the last SWAP taken (R178)
  fresh    : List Nat            -- nodes whose FADERs of this commit set take a slot (R181)
  fullCnt  : SMap Nat            -- FADERs refused in this tick for want of a slot, by ring (R181)
  meter    : MeterSt
  tones    : SMap Tone
  deriving DecidableEq, Repr

/-- A crossfade of a Trail channel's mux (R201): sinks as output channels 0-13, steps done of 64. -/
structure Xfade where
  from_ : Option Nat
  dest    : Option Nat
  i     : Nat
  deriving DecidableEq, Repr

/-- The history of a biquad (R195): inputs in Q4.28, outputs in Q8.56. -/
structure BqHist where
  x1 : Int
  x2 : Int
  y1 : Int
  y2 : Int
  deriving DecidableEq, Repr

/-- What a Trail channel holds beside its parameter sets. -/
structure TrlCh where
  en    : Bool                   -- EN of the active set
  g0    : GRamp                  -- input gains and output gain in use
  g1    : GRamp
  g2    : GRamp
  g3    : GRamp
  go    : GRamp
  b1    : BqHist
  b2    : BqHist
  lim   : Rat                    -- limiter gain
  fade  : GRamp                  -- EN fader, of 2^20 (R200)
  sink  : Option Nat             -- the mux position, once its crossfade has started
  xf    : Option Xfade
  p0    : Int                    -- outputs of the last two steps, on their way (R192)
  p1    : Int
  dip   : Nat                    -- after a state error: the tick of the output's dip, counted from 1 (Table FT-1); 0 none
  tag   : Nat                    -- the highest quality tag of its inputs over the steps of the tick (R482)
  deriving DecidableEq, Repr

/-- A TRAIL_COMMIT between its commit boundary and its activation step (R199). -/
structure TrlDue where
  t    : TS
  s    : Nat
  mask : Nat
  deriving DecidableEq, Repr

structure TrlSt where
  shd    : SMap Word             -- shadow sets by channel * 32 + word
  act    : SMap Word
  ch     : SMap TrlCh
  owner  : SMap Nat              -- output channel 0-13 owned by a Trail channel (R27)
  claim  : SMap TS               -- boundary of the last Trail claim, by output channel
  rel    : SMap (Nat × TS)       -- last Trail release: channel and boundary
  due    : List TrlDue
  relSel : List Nat              -- outputs whose selectors the commit set of this boundary releases (R202)
  relTrl : List (Nat × Nat × Nat) -- outputs that it takes from a Trail channel: output, channel, step offset
  clmTrl : List (Nat × Nat × Nat) -- outputs that it gives to a Trail channel
  deriving DecidableEq, Repr

/-! ## Effects, clips and loops (chapter 7) -/

/-- A delay line's place (R218): its length D, whether it lies in DRAM, base and LEN. -/
structure LinePlace where
  d    : Nat
  dram : Bool
  base : Nat
  len  : Nat
  deriving DecidableEq, Repr

/-- An effect slot's state beside its parameter sets. -/
structure FxCh where
  fade   : GRamp               -- EN fader, of 2^20 (R221)
  byp    : GRamp               -- bypass crossfade, of 2^20
  gin    : GRamp
  gout   : GRamp
  mkup   : GRamp
  dry    : GRamp
  wet    : GRamp
  hist   : List BqHist
  e      : Rat                 -- detector state, in parts of full scale or of its square (R215)
  g      : Rat                 -- G in dB (R216)
  opened : Bool                -- gate open
  hold   : Nat                 -- ticks below Th - 3 dB
  line   : List Int            -- on-chip line, newest first
  pos    : Nat                 -- words written into the DRAM line
  fill   : Nat                 -- ticks of new input since the line began
  old    : Option (LinePlace × Nat)  -- the line being left, with its fill (R220)
  xf     : GRamp               -- the crossfade from it
  err    : Option Nat          -- after a data error: ticks of new input still to come (R241)
  dfac   : GRamp               -- the ramps of R241 on d_out
  gr     : Nat                 -- -G in 0.1 dB
  dip    : Nat                 -- after a state error, as a Trail channel's
  deriving DecidableEq, Repr

structure FxSt where
  shd : SMap Word              -- shadow sets by slot * 128 + word
  act : SMap Word
  ch  : SMap FxCh
  deriving DecidableEq, Repr

/-- A clip voice or the sound in a tail slot (R224 to R232). -/
structure Voice where
  st     : Nat                 -- 1 playing; 2 released; 3 stopping
  clip   : Nat
  words  : List Word           -- its copy of the clip entry
  env    : List Word           -- its copy of the envelope entry
  rgt    : Bool                -- the right channel of a stereo clip
  mate   : Option Nat          -- the other voice of a stereo pair
  pos    : Nat                 -- P, 32.32
  pitch  : Nat                 -- Q8.24
  pprev  : Nat                 -- pitch in the tick before
  glide  : Option (Nat × Nat × Nat × Nat)   -- from, to, length, ticks done (R227)
  gain   : GRamp
  seg    : Nat                 -- envelope segment 0-3; 4: holding L3
  segI   : Nat                 -- ticks done in the segment
  lvl0   : Rat                 -- level at the segment's start
  level  : Rat
  lprev  : Rat                 -- level in the tick before
  stop   : GRamp               -- stop factor, of 2^20
  clamp  : Bool
  noLoop : Bool                -- mode 2 after release has stopped looping
  bad    : List Nat            -- blocks whose tag failed (R234)
  cause  : Nat                 -- the end cause that its stop ramp will report
  peak   : Nat                 -- largest step that it reaches under its pitch and glide (R355)
  dip    : Nat                 -- after a state error, as a Trail channel's
  deriving DecidableEq, Repr

structure Tail where
  voice : Nat
  snd   : Voice
  fade  : GRamp
  deriving DecidableEq, Repr

structure ClipSt where
  shd    : SMap Word           -- clip table shadow by entry * 16 + word
  act    : SMap Word
  eshd   : SMap Word           -- envelope table by entry * 8 + word
  eact   : SMap Word
  voices : SMap Voice
  tails  : SMap Tail           -- by tail slot
  deriving DecidableEq, Repr

/-- A LOOP_COMMIT in progress (R236, R237). -/
structure LoopRun where
  hdr    : Hdr
  a      : TS
  b      : TS
  base   : Nat
  cap    : Nat
  pre    : Bool                -- PREROLL
  t      : TS                  -- its commit boundary
  join   : TS                  -- J, or T when nothing is held
  cfrom  : TS                  -- the first held tick that is copied, and how many are
  cnum   : Nat
  start  : Option TS           -- tick of take frame 0, once it is known
  got    : List (TS × Int)     -- samples that wait for it, newest first
  next   : TS                  -- the next tick that is neither written nor waiting
  copied : Bool
  prer   : Nat
  gaps   : Nat
  deriving DecidableEq, Repr

/-- Playback of a take (R238). -/
structure LoopPlay where
  fmt    : Nat
  loop   : Bool
  frames : Nat
  base   : Nat
  i      : Nat
  fade   : GRamp               -- of 2^20
  deriving DecidableEq, Repr

structure Recorder where
  en    : Bool
  fmt   : Nat
  rlen  : Nat
  base  : Nat
  k0    : TS
  fill  : Nat                  -- ticks held
  lastK : TS                   -- the last tick written
  ones  : List (TS × TS)       -- the runs of held ticks, newest first, in which the source's level factors were all one
  run   : Option LoopRun
  play  : Option LoopPlay
  deriving DecidableEq, Repr

/-! ## Serial audio ports and Groves (chapter 8) -/

/-- SAP_STATUS state codes 0 to 5. -/
inductive SapState where
  | off | locking | running | lost | rateError | glitch
  deriving DecidableEq, Repr

/-- A received frame that waits for its tick, or a value that waits for its frame (R258). -/
structure SapFrame where
  tick  : Option TS
  edge  : DT
  words : List Int
  deriving DecidableEq, Repr

/-- A sequence of Table SA-5: T, E, what it applies, and the tick of the lock. -/
structure SapSeq where
  t       : TS
  e       : TS
  cfg     : Word
  frame   : Word
  slots   : Word
  phase   : Word
  applied : Bool
  lock    : Option TS
  deriving DecidableEq, Repr

/-- A port direction; key: port + 8 × direction. -/
structure SapDir where
  state  : SapState
  runOn  : Bool              -- target of the run factor (R266)
  run    : GRamp             -- of 2^20
  port   : GRamp
  fill   : Nat               -- fill factor in eighths (R260)
  held   : List Int          -- the last delivered words, by slot
  slotR  : SMap GRamp        -- slots whose own ramp runs (R266)
  seq    : Option SapSeq
  queue  : List SapFrame     -- oldest first
  edge   : Option (DT × TS)  -- leading edge and tick of the last frame assigned a tick
  seen   : Option DT         -- last leading edge of any frame
  edges  : List DT           -- leading edges of the consecutive good frames, newest first, at most 16
  per    : Rat               -- P of a slave in ns (R259)
  perE   : Rat               -- P when the last leading edge came (R259)
  perL   : Rat               -- the period at lock (R273)
  perNew : Option Rat        -- a measurement that takes effect at the next boundary
  disc   : Nat               -- frames to discard after a glitch (R272)
  miss   : Nat               -- consecutive missing ticks
  lossM  : Nat               -- missing ticks since the loss
  fresh  : Bool              -- a frame has come since the last boundary
  lossRq : Option DT         -- loss decided (R270); its effects come at the next boundary
  jumpRq : Option Word       -- rate jump decided (R273), with the rate
  back   : Bool              -- returned (R271): delivery waits for the fill
  asrc   : Bool              -- ASRC locked
  rate0  : Word              -- rate at lock (R265); zero: none yet
  rateC  : Option Word       -- rate at the last SAP_RATE_CHANGE (R265)
  level  : Rat               -- the fill at the last boundary, in frames (R258)
  sent   : List Int          -- words of the last frame transmitted, and of the one before
  sentP  : List Int
  deriving DecidableEq, Repr

/-- SAP_GRV_STATUS.STATE. -/
inductive GroveState where
  | empty | defined | running | stopping
  deriving DecidableEq, Repr

/-- A member's underrun episodes: whether one runs, its ticks so far, and the ticks of the one before. -/
structure Episode where
  m    : Member
  on   : Bool
  n    : Nat
  prev : Nat
  deriving DecidableEq, Repr

structure GroveSt where
  state : GroveState
  trig  : TS
  ports : BitVec 16
  rings : BitVec 64
  ctxs  : List Nat           -- stream contexts, rising
  late  : List Member        -- members that have not joined
  eps   : List Episode
  stop  : Option TS          -- the tick in which the last member stops
  deriving DecidableEq, Repr

/-! ## Network streams (chapter 9) -/

/-- NET_CTX_STAT.STATE. -/
inductive CtxState where
  | idle | armed | running | lost | realigning
  deriving DecidableEq, Repr

/-- A talker's packet as it was queued (R301). -/
structure TxPkt where
  tick   : TS
  seq    : BitVec 8
  tv     : Bool
  stamps : List Word
  vlan   : Option (BitVec 16)   -- the TCI of its VLAN tag, if it carries one (R302)
  cls    : Nat                  -- the shaper's class: 0 A, 1 B
  frames : List (List Int)
  deriving DecidableEq, Repr

structure NetCtx where
  state  : CtxState
  start  : TS                -- T of its start (R303)
  port   : GRamp             -- of 2^20
  fill   : Nat               -- eighths (R260)
  held   : List Int
  queue  : List (TS × List Int)
  pos    : Option (TS × Int) -- tick and presentation time of the last frame placed (R295)
  packet : Option (BitVec 8 × Int × Nat) -- sequence number, p and frame count of the previous packet (R296)
  signs  : Int               -- consecutive packets with e = 1, or minus those with e = -1
  lastDt : DT                -- reception of the last packet placed or carried (R298)
  holdDt : Option DT         -- DT from which every packet has been discontinuous (R296)
  holdE  : Int               -- e of the newest of them
  miss   : Nat
  lossM  : Nat               -- missing ticks since the loss
  first  : Option TS         -- tick of the first frame placed since the start
  lossRq : Bool              -- loss decided; its effects come at the next boundary
  realRq : Bool              -- the buffer empties and the next packet is a first frame once the ramp has ended
  asrc   : Bool
  stopAt : Option TS         -- last tick of the stopping ramp
  tx     : List (TS × DT × List Int) -- talker: frames read for the next packet, newest first
  txSeq  : BitVec 8
  pkt    : Option TxPkt      -- the last packet queued
  edges  : List DT           -- media-clock edges that no boundary has used (R300)
  pktCnt : Nat
  late   : Nat
  early  : Nat
  missC  : Nat
  discC  : Nat
  slip   : Nat
  deriving DecidableEq, Repr

structure NetSt where
  shd    : SMap Word         -- context table shadow by context * 16 + word
  act    : SMap Word
  ctx    : SMap NetCtx
  mdio   : Bool              -- a PHY register access runs
  deriving DecidableEq, Repr

/-! ## Admission (chapter 11) -/

/-- The engines' states before phase 6 (R361). -/
structure EngineSave where
  tones  : SMap Tone
  fx     : SMap FxCh
  voices : SMap Voice
  tails  : SMap Tail
  deriving DecidableEq, Repr

structure AdmSt where
  near   : List (Nat × Option DT)   -- engines whose BUD_NEAR has been logged, with the DT since which COST is below
  save   : Option EngineSave        -- the engines as they stood before phase 6 of the tick in force (R361)
  deriving DecidableEq, Repr

/-! ## The two-wire target (chapter 12) -/

/-- The target: its pointers, latches and arming. -/
structure TwbSt where
  sel     : BitVec 3         -- the select pins as sampled (R364)
  regAddr : Word
  logPtr  : Word
  dumpPtr : Word
  armed   : Option DT        -- the DT of the ARM in force (R379)
  armDt   : Option DT        -- the DT of the last ARM that armed
  ranOut  : Bool             -- that arming ended by the 10 ms limit
  last    : Status           -- TWB_STATUS.LAST
  alertN  : Bool             -- TWB_ALERT_N asserted
  dtHi    : Word             -- the target's own latches (R374)
  tickLo  : Word
  tickHi  : Word
  resp    : List Byte        -- the response of the last read, its status byte or count byte first
  recover : Option Nat       -- the action of a RECOVER that has not ended
  lastCmd : BitVec 8
  deriving DecidableEq, Repr

/-! ## Power (chapter 13) -/

/-- PWR_STATUS.STATE. -/
inductive PState where
  | awake | shade | glade | clearing | moss | entering | rolling | waking
  deriving DecidableEq, Repr

/-- A rollback: its boundary B, the refusing turn (0-5) and reason, the blocks that still have to resume. -/
structure Rollback where
  b      : TS
  block  : Nat
  reason : Nat
  left   : Nat
  deriving DecidableEq, Repr

/-- A SLEEP from its commit to the end of its wake or rollback (R389 to R395). -/
structure SleepSt where
  hdr     : Hdr
  t       : TS
  tdt     : DT
  chosen  : Nat            -- state code 1-4
  untilDt : Option DT
  hold    : Nat            -- H, ticks of the hold so far (R393)
  holding : Bool
  turn    : Nat            -- the turn that votes next, 1-6; 7 when the vote has passed
  convOn  : Bool           -- the converters' turn has begun (R115)
  early   : Bool           -- the write-back has been written under R393
  next    : Option DT      -- next known event
  nextSrc : Nat            -- 0 store, wait or retry; 1 the until time
  arm     : Word           -- WAK_ARM, WAK_SAP and WAK_GPIO at the commit (R413)
  armSap  : Word
  armGpio : Word
  entry   : DT             -- DT of the start of hardware entry
  ready   : Bool           -- hardware entry has ended
  inNs    : Nat            -- time in the state, from the end of entry to the start of the exit, ns
  back    : Option Rollback
  deriving DecidableEq, Repr

/-- A wake event that Canopy has latched (R396, R398). -/
structure WakeEv where
  bit   : Nat
  num   : Nat
  dt    : DT
  early : Bool             -- latched during entry
  deriving DecidableEq, Repr

structure PwrSt where
  state   : PState
  level   : Nat
  target  : Nat
  raiseAt : Option TS      -- P of a raise in progress (R384)
  settle  : Bool           -- VCORE or body bias moving
  sleep   : Option SleepSt
  wake    : Option WakeEv
  left    : Nat            -- code of the state being left
  step    : Nat            -- exit step that runs, 1-4; 0 none
  run     : Nat            -- run of the exit, 1 or 2
  stepDt  : DT             -- DT of the start of the step
  lost    : BitVec 16
  failed  : Bool           -- the second run failed (R402)
  saved   : Bool           -- the Understory banks hold images
  resNs   : SMap Nat       -- residency by state code, ns
  wakeN   : Bool           -- WAKE_N asserted
  woke    : Bool           -- the first awake boundary is placed and has not opened (R403)
  deriving DecidableEq, Repr

/-! ## Listening (chapter 14) -/

/-- WAK_LSN_STATUS.STATE. -/
inductive LsnMode where
  | off | running | suspended | frozen
  deriving DecidableEq, Repr

/-- An activity run (R423): the DT of its first hop, the end of its last active hop, the inactive hops since, the class
confirmed in it with the DT of that hop's end, whether it has been reported, whether its confirmation fired the wake source
(R431). -/
structure LsnRun where
  start : DT
  last  : DT
  quiet : Nat
  conf  : Option (Nat × DT)
  done  : Bool
  woke  : Bool
  deriving DecidableEq, Repr

/-- A pre-roll block (Table WK-5). -/
structure PrBlock where
  dt    : DT
  epoch : BitVec 8
  det   : Nat
  pred  : Int
  idx   : Nat
  disc  : Bool
  gap   : Bool
  seq   : Nat
  codes : List Nat         -- 256 ADPCM codes, in sample order
  deriving DecidableEq, Repr

structure LsnSt where
  mode   : LsnMode
  nf     : Option Rat      -- noise floor; none before the first frame
  bands  : Option (List Rat) -- band levels of the previous frame: the flux reference
  m      : Rat             -- running mean of the flux
  onset  : Option DT       -- start of the previous onset
  run    : Option LsnRun
  feats  : List (List Int) -- features of the newest 96 frames, newest first
  counts : List Nat        -- consecutive evaluations at or above its threshold, by class
  blocks : List PrBlock    -- oldest first
  seq    : Nat             -- next block sequence number
  disc   : Bool            -- the next block does not follow the last
  gaps   : List (DT × Option DT)  -- spans in which the samples are zero, newest first (R418)
  win    : List Word       -- the newest samples, newest first, at most 400
  mark   : Bool            -- an onset or a confirmation in it
  since  : DT              -- DT from which the path has run
  pred   : Int             -- ADPCM predictor and step index
  idx    : Nat
  stopW  : Option DT       -- DT of W (or of B), from which the stop point counts (R420)
  shd    : SMap Word       -- weight image shadow by word
  act    : SMap Word
  valid  : Bool            -- WEIGHTS
  copied : Option (Addr × List PrBlock)  -- what the last PREROLL_READ wrote to host memory
  deriving DecidableEq, Repr

/-! ## Control cores, Ranger, Firebreak, Deadfall (chapter 16) -/

/-- What a control core does: it has no image yet, runs, has been promoted or restarted and has not made its first
pickup, is held in reset after a failure, reloads, loads a new image (R468). -/
inductive CoreRun where
  | off | active | standby | resuming | failed | reloading | staging
  deriving DecidableEq, Repr

structure CoreSt where
  run   : CoreRun
  miss  : Nat                 -- consecutive windows without a heartbeat
  last  : TS                  -- last tick that a heartbeat reported
  beat  : Bool                -- a heartbeat has come since its restart
  slot  : Nat                 -- firmware slot of its image
  fails : List DT             -- DTs of its failures within 10 s, newest first (R467)
  deriving DecidableEq, Repr

/-- A Coppice restart of the active role: the decision, the tries made, the core that will run (R465, R467). -/
structure Coppice where
  since : DT
  start : DT                  -- of the try in progress
  tries : Nat
  core  : Nat
  alone : Bool                -- the no-standby case
  deriving DecidableEq, Repr

/-- A firmware image in a slot. -/
structure FwSlot where
  version : Word
  arb     : Nat
  deriving DecidableEq, Repr

/-- FW_ACTIVATE from its commit to H (R468). -/
structure FwLoad where
  hdr   : Hdr
  image : ImageFacts
  slot  : Nat
  deriving DecidableEq, Repr

/-- Probation (R469): H's DT, the slot on probation, and the slot before it. -/
structure Probation where
  since : DT
  slot  : Nat
  prev  : Nat
  deriving DecidableEq, Repr

/-- The Deadfall dump (R478): what its header says and where its copies lie. -/
structure Dump where
  cause    : Nat
  writer   : Nat
  dt       : DT
  epoch    : BitVec 8
  ts       : TS
  fwVer    : Word
  fault    : Word
  newest   : Word
  tail     : List Rec
  regs     : SMap Word
  pend     : List Picked
  rings    : List (Nat × Word × Nat × Nat × Word)   -- ring, CFG, host index, device index, STAT
  dram     : Bool
  host     : Bool
  unsigned : Bool
  deriving DecidableEq, Repr

structure FltSt where
  coreA    : CoreSt
  coreB    : CoreSt
  activeB  : Bool             -- CC-B has the active role
  coppice  : Option Coppice
  fw       : SMap FwSlot      -- by slot 0, 1
  load     : Option FwLoad
  prob     : Option Probation
  alive    : Bool             -- Ranger's counter moves
  lost     : Bool             -- Ranger is lost (R474)
  stuck    : Nat              -- consecutive windows in which it did not
  counter  : Word
  reload   : Bool             -- Ranger reloads from its ROM
  fire     : Bool             -- Firebreak is engaged
  fireRq   : Option Nat       -- cause of an engagement at the next boundary
  fireAt   : TS               -- E
  freed    : List (Picked × Bool)  -- at a release: those to commit at its boundary, and whether they had passed check 5
  held     : List Picked      -- commands that Firebreak holds out of the commit set; they had passed check 5 (R470)
  verd     : List (Picked × Status)  -- check 5 in tick R-1 of those that a release at R is to free (R472)
  dump     : Option Dump
  avClr    : Bool             -- AV_CLR at the next boundary
  hung     : Bool             -- the active core hangs and performs no phase (R464)
  ce       : Nat × Nat        -- corrections since the last look: DRAM, SRAM (R486)
  ceSec    : Nat              -- second of DT of the last look
  scrubDt  : DT               -- start of the scrub period in progress (R463)
  scrubLate : Bool            -- the pass of the period before has not finished
  ixUe     : List Nat         -- interchange words found uncorrectable, as source addresses (Table FT-1)
  good     : Nat
  bad      : Nat
  ext      : Nat
  host     : Nat
  rstOuts  : Nat              -- output channels enabled at the assertion of a reset (R483), and the tick count there
  rstTs    : TS
  deriving DecidableEq, Repr

/-! ## Heartwood (chapter 17) -/

/-- A loaded key slot (KEY_LOAD). -/
structure KeySlot where
  key    : BitVec 256          -- the content key
  nonce  : BitVec 64           -- the nonce prefix
  lib    : BitVec 64
  base   : Addr
  blocks : Nat
  deriving DecidableEq, Repr

/-- The fuses that the device state depends on (Table HW-2). -/
structure Fuses where
  seed   : BitVec 384          -- the root of every device key; its first byte lowest
  devId  : BitVec 128
  cert   : BitVec 768          -- the identity certificate
  roots  : List (BitVec 384)   -- root hashes 0 to 3
  arb    : Nat                 -- programmed anti-rollback bits
  policy : BitVec 8
  subsys : Word
  deriving DecidableEq, Repr

/-- The keys that Heartwood derives from the seed at each start (R490): 48 bytes of key material for each P-384 key, and the
32-byte sealing key; the first byte of each lowest. -/
structure DeviceKeys where
  identity : BitVec 384
  agree    : BitVec 384
  sealing  : BitVec 256
  deriving DecidableEq, Repr

/-- An attestation statement (Table HW-5). -/
structure Statement where
  devId    : BitVec 128
  fwVer    : Word
  arb      : Nat
  policy   : BitVec 8
  unlocked : Bool
  cfgHash  : List Word
  ts       : TS
  dt       : DT
  epoch    : BitVec 8
  sealSeq  : Word
  chain    : BitVec 256
  pub      : BitVec 776
  cert     : BitVec 768
  challenge : BitVec 384
  sig      : BitVec 768
  buffer   : Addr
  deriving DecidableEq, Repr

structure HwdSt where
  keys     : SMap KeySlot
  running  : Bool
  booted   : Bool
  keysLost : Bool
  order    : Bool              -- a boot order is being carried out (R491)
  nonce    : BitVec 64
  unlocked : Option (DT × BitVec 8)   -- expiry and scope while the port is open (R505)
  fuses    : Fuses
  stmt     : Option Statement  -- the last statement written
  devKeys  : Option DeviceKeys -- while Heartwood runs (R490)
  exported : Option (Addr × BitVec 384 × BitVec 256)   -- the last export: buffer, hash of the verifier's key, the key wrapped (R502)
  deriving DecidableEq, Repr

/-! ## Pins (chapter 19) -/

/-- The timed outputs of R528: the DT at which the high period of a pin ends, by pin. -/
structure PinSt where
  high : SMap DT
  deriving DecidableEq, Repr

/-! ## The whole machine -/

@[ext]
structure State where
  regs    : SMap Word        -- BAR0 registers with a value of their own; unlisted ones hold their reset value
  time    : TimeSt
  clk     : ClkSt
  host    : HostSt
  adm     : AdmSt
  ain     : AinSt
  aout    : AoutSt
  spk     : SpkSt
  thk     : ThkSt
  sel     : SMap Sel         -- selectors of sinks other than lanes, by sink address (R26)
  trl     : TrlSt
  fx      : FxSt
  clip    : ClipSt
  sap     : SMap SapDir      -- by port + 8 * direction
  grove   : SMap GroveSt
  net     : NetSt
  loop    : SMap Recorder
  dram    : List Host.Cell   -- device DRAM, usable addresses (R459); canonical form `memWf`
  step    : Nat              -- the next step of the tick in force (R13)
  hwd     : HwdSt
  flt     : FltSt
  twb     : TwbSt
  pwr     : PwrSt
  blz     : BlzSt
  lsn     : LsnSt
  sup     : SupSt
  pin     : PinSt
  inter   : SMap Smp         -- the half of the sample interchange that this tick reads (R14)
  interOld : SMap Smp        -- the half that the tick before read
  inter2  : SMap Smp         -- the half that this tick writes
  free    : Nat              -- the model's own counter of free values
  pending : List Instr       -- commands and events that wait, first in, first out
  deriving DecidableEq, Repr

/-- Faults: none. Every command and event of the manual has an effect or a reported status. -/
inductive Fault where
  deriving DecidableEq, Repr

/-- Refusals. -/
inductive Refusal where
  /-- Raised only by `exec` for a row that has no meaning yet; safe. -/
  | notModelled (mnemonic : String)
  deriving DecidableEq, Repr

/-! ## The state after cold reset -/

abbrev Factor.zero : Factor := ⟨0, 0, 0, 0⟩
abbrev Factor.one : Factor := ⟨1, 1, 1, 0⟩
abbrev GRamp.full : GRamp := ⟨0x100000, 0x100000, 0x100000, 0x100000, 0, 0, false⟩

/-- A mapping that nothing has established (R55). -/
abbrev Mapping.invalid : Mapping := ⟨false, 0, 0, 0, none⟩

abbrev TimeSt.reset : TimeSt := {
  dt := 0, hadTick := false, running := false, ts := 0, bdt := 0, vrate := 0, bdts := [], epoch := 0, net := Mapping.invalid,
  wall := Mapping.invalid, netHold := false, netGm := 0, netSync := 0, placed := none, lastTs := 0, lastDt := 0, started := false, hist := [],
  histCnt := 0, keeper := false, handDt := 0, exact := 0, pers := [], past := [] }

abbrev ClkSt.reset : ClkSt := {
  rate := 0, lock := false, mclkExt := false, mclkLost := false, cfgErr := false, kind := 0, index := 0, bw := 0,
  lstate := .noLeader, adopt := false, dco := 0, integ := 0, hold := 0, lerr := 0, setpt := 0, within := 0, clamped := 0,
  wclk := none, decay := none, rc := none, fade := GRamp.full, tfade := GRamp.full }

abbrev HostSt.reset : HostSt := {
  rings := [], fresh := false, issued := false, dbOk := false, speed := 0, width := 0, bme := false, perst := false, wb := [],
  heldWb := [], openWb := [], dueWb := [], cpage := none, msix := [], errNew := false, waits := [], arr := [], picked := [], commit := [],
  pend := [], fullCnt := [], limited := none, pba := 0, grp := 0 }

abbrev HpJack.out : HpJack := {
  phase := .absent, t0 := 0, poles := 0, zl := 0, zr := 0, rampAt := none, short := false, rem := none, remReq := false,
  lo := false, held := 0, again := none }

abbrev AoutSt.reset : AoutSt := {
  ch := [], hp0 := HpJack.out, hp1 := HpJack.out, cpStop := false, vcm := .off, rangeReq := 0, hold7 := false,
  conv := [] }

/-- A loudspeaker channel at reset: disabled, muted, no fault (Table SP-9). -/
abbrev SpkCh.reset : SpkCh := {
  mute := Factor.zero, fault := Factor.zero, state := Factor.one, coil := Factor.one, die := Factor.one, cap := 1, rail := 1,
  acting := false, seq := none, settled := false, upAt := 0, wake := none, drive := false, fsv := 4, filt := 0, limits := [],
  latch := false, giveup := false, capTrip := false, tries := 0, retry := .none, pilot := ⟨0, Factor.zero, 0, none, 0, 0, false⟩, cls := 0,
  tfloor := false, capOne := none, capLow := none, plan := [], trailMv := 0, out := 0 }

abbrev SpkSt.reset : SpkSt := {
  ch0 := SpkCh.reset, ch1 := SpkCh.reset, target := 0, bst := 0, pvdd := 0, clamp := false, low := false, ovp := 0, pvddBad := false,
  dieLvl := 0, enReq := false, totLow := none, evs := [] }

abbrev ThkSt.reset : ThkSt := {
  act := [], shd := [], actBus := [], shdBus := [], ramps := [], busRamps := [], dual := [], swapAt := none, fresh := [], fullCnt := [],
  meter := ⟨false, 0, 0, 0, [], [], none, none⟩, tones := [] }

abbrev TrlSt.reset : TrlSt := {
  shd := [], act := [], ch := [], owner := [], claim := [], rel := [], due := [], relSel := [], relTrl := [], clmTrl := [] }

/-- BLZ_BOOT of a cold reset (R456, Table BZ-3): reset kind 0, firmware version 0, no earlier sequence number. -/
abbrev Ev.boot0 : Ev := ⟨0x13, 0xD004, 2, 0, 0, 0, 0, 0xFFFFFFFF, false, 1⟩

abbrev BlzSt.reset : BlzSt := {
  queues := [], canopy := [], store := [], seqNext := 0, drop := none, seals := [], sealFirst := false, boot := some Ev.boot0, span := [],
  prevSeal := 0, sealSeq := 0, pos := 0, run := false, err := false, everRun := false, evt := [], win := none, lims := [] }

abbrev LsnSt.reset : LsnSt := {
  mode := .off, nf := none, bands := none, m := 0, onset := none, run := none, feats := [], counts := [], blocks := [], seq := 0,
  disc := true, gaps := [], win := [], mark := false, since := 0, pred := 0, idx := 0, stopW := none, shd := [], act := [], valid := false,
  copied := none }

abbrev CoreSt.reset : CoreSt := ⟨.off, 0, 0, false, 0, []⟩

abbrev FltSt.reset : FltSt := {
  coreA := CoreSt.reset, coreB := CoreSt.reset, activeB := false, coppice := none, fw := [], load := none, ce := (0, 0), ceSec := 0, scrubDt := 0, scrubLate := false,
  prob := none, alive := false, lost := false, stuck := 0, counter := 0, reload := false, fire := false, fireRq := none,
  fireAt := 0, freed := [], held := [], verd := [], dump := none, avClr := false, hung := false, ixUe := [], good := 0, bad := 0, ext := 0, host := 0, rstOuts := 0, rstTs := 0 }

/-- Fuses of a part (DESIGN CHOICE: the model's part; the manual gives no contents; log entry 6). -/
abbrev Fuses.part : Fuses := ⟨0, 0, 0, [1, 0, 0, 0], 0, 0, 0⟩

abbrev HwdSt.reset : HwdSt := {
  keys := [], running := false, booted := false, keysLost := false, order := false, nonce := 0, unlocked := none, fuses := Fuses.part,
  stmt := none, devKeys := none, exported := none }

abbrev TwbSt.reset : TwbSt := {
  sel := 0, regAddr := 0, logPtr := 0, dumpPtr := 0, armed := none, armDt := none, ranOut := false, last := .ok, alertN := false, dtHi := 0,
  tickLo := 0, tickHi := 0, resp := [], recover := none, lastCmd := 0xFF }

abbrev PwrSt.reset : PwrSt := {
  state := .awake, level := 1, target := 1, raiseAt := none, settle := false, sleep := none, wake := none, left := 0, step := 0,
  run := 0, stepDt := 0, lost := 0, failed := false, saved := false, resNs := [], wakeN := false, woke := false }

/-- Supplies at cold reset: VSYS holds, every other rail is not yet valid, RESET_N is asserted. -/
abbrev SupSt.reset : SupSt := {
  avdd := false, vio1 := false, vio2 := false, vio2Hi := false, vdd2 := false, vddq := false, pvdd := false, vsys := true,
  canopy := true, core := true, resetN := true }

/-- The machine right after cold reset (R409, R480, Table RG-2): VSYS has become valid and Canopy has started; every
register holds its reset value, DT, the tick count and the time epoch are zero, and RESET_N has not been released. -/
def State.reset : State := {
  regs := [], time := TimeSt.reset, clk := ClkSt.reset, host := HostSt.reset, adm := ⟨[], none⟩, ain := ⟨[], [], false, false⟩,
  aout := AoutSt.reset, spk := SpkSt.reset, thk := ThkSt.reset, sel := [], trl := TrlSt.reset, fx := ⟨[], [], []⟩,
  clip := ⟨[], [], [], [], [], []⟩, sap := [], grove := [], net := ⟨[], [], [], false⟩, loop := [], dram := [], step := 0,
  hwd := HwdSt.reset, flt := FltSt.reset, twb := TwbSt.reset, pwr := PwrSt.reset, blz := BlzSt.reset, lsn := LsnSt.reset,
  sup := SupSt.reset, pin := ⟨[]⟩, inter := [], interOld := [], inter2 := [], free := 0, pending := [] }

end Sys2Proof.Machine
end

