-- ==== Sys2Proof/Machine/Hash.lean ====
section
/-! DEFINITION. The hash functions that the seals and the device keys rest on (R455, R490): SHA-256 and SHA-384 (FIPS
180-4), HMAC (RFC 2104) and HKDF (RFC 5869). The manual names them; their tables and steps are the standards'
(PRESUMED, log entry 174). -/
namespace Sys2Proof.Machine

/-! ## SHA-2 -/

/-- The round constants as 64-bit words: the fractions of the cube roots of the first 80 primes. -/
def shaK0 : List Nat := [
  0x428A2F98D728AE22, 0x7137449123EF65CD, 0xB5C0FBCFEC4D3B2F, 0xE9B5DBA58189DBBC,
  0x3956C25BF348B538, 0x59F111F1B605D019, 0x923F82A4AF194F9B, 0xAB1C5ED5DA6D8118,
  0xD807AA98A3030242, 0x12835B0145706FBE, 0x243185BE4EE4B28C, 0x550C7DC3D5FFB4E2,
  0x72BE5D74F27B896F, 0x80DEB1FE3B1696B1, 0x9BDC06A725C71235, 0xC19BF174CF692694,
  0xE49B69C19EF14AD2, 0xEFBE4786384F25E3, 0x0FC19DC68B8CD5B5, 0x240CA1CC77AC9C65,
  0x2DE92C6F592B0275, 0x4A7484AA6EA6E483, 0x5CB0A9DCBD41FBD4, 0x76F988DA831153B5,
  0x983E5152EE66DFAB, 0xA831C66D2DB43210, 0xB00327C898FB213F, 0xBF597FC7BEEF0EE4,
  0xC6E00BF33DA88FC2, 0xD5A79147930AA725, 0x06CA6351E003826F, 0x142929670A0E6E70,
  0x27B70A8546D22FFC, 0x2E1B21385C26C926, 0x4D2C6DFC5AC42AED, 0x53380D139D95B3DF,
  0x650A73548BAF63DE, 0x766A0ABB3C77B2A8, 0x81C2C92E47EDAEE6, 0x92722C851482353B]
def shaK1 : List Nat := [
  0xA2BFE8A14CF10364, 0xA81A664BBC423001, 0xC24B8B70D0F89791, 0xC76C51A30654BE30,
  0xD192E819D6EF5218, 0xD69906245565A910, 0xF40E35855771202A, 0x106AA07032BBD1B8,
  0x19A4C116B8D2D0C8, 0x1E376C085141AB53, 0x2748774CDF8EEB99, 0x34B0BCB5E19B48A8,
  0x391C0CB3C5C95A63, 0x4ED8AA4AE3418ACB, 0x5B9CCA4F7763E373, 0x682E6FF3D6B2B8A3,
  0x748F82EE5DEFB2FC, 0x78A5636F43172F60, 0x84C87814A1F0AB72, 0x8CC702081A6439EC,
  0x90BEFFFA23631E28, 0xA4506CEBDE82BDE9, 0xBEF9A3F7B2C67915, 0xC67178F2E372532B,
  0xCA273ECEEA26619C, 0xD186B8C721C0C207, 0xEADA7DD6CDE0EB1E, 0xF57D4F7FEE6ED178,
  0x06F067AA72176FBA, 0x0A637DC5A2C898A6, 0x113F9804BEF90DAE, 0x1B710B35131C471B,
  0x28DB77F523047D84, 0x32CAAB7B40C72493, 0x3C9EBE0A15C9BEBC, 0x431D67C49C100D4C,
  0x4CC5D4BECB3E42B6, 0x597F299CFC657E2A, 0x5FCB6FAB3AD6FAEC, 0x6C44198C4A475817]
def shaK : List Nat := shaK0 ++ shaK1

/-- The fractions of the square roots of the first 16 primes. -/
def shaRoots : List Nat := [
  0x6A09E667F3BCC908, 0xBB67AE8584CAA73B, 0x3C6EF372FE94F82B, 0xA54FF53A5F1D36F1,
  0x510E527FADE682D1, 0x9B05688C2B3E6C1F, 0x1F83D9ABFB41BD6B, 0x5BE0CD19137E2179,
  0xCBBB9D5DC1059ED8, 0x629A292A367CD507, 0x9159015A3070DD17, 0x152FECD8F70E5939,
  0x67332667FFC00B31, 0x8EB44A8768581511, 0xDB0C2E0D64F98FA7, 0x47B5481DBEFA4FA4]

/-- A member of the family: word width in bits, rounds, block bytes, and the rotations of its six functions. -/
structure ShaPar where
  bits   : Nat
  rounds : Nat
  block  : Nat
  big0   : Nat × Nat × Nat
  big1   : Nat × Nat × Nat
  small0 : Nat × Nat × Nat
  small1 : Nat × Nat × Nat

def sha256Par : ShaPar := ⟨32, 64, 64, (2, 13, 22), (6, 11, 25), (7, 18, 3), (17, 19, 10)⟩
def sha512Par : ShaPar := ⟨64, 80, 128, (28, 34, 39), (14, 18, 41), (1, 8, 7), (19, 61, 6)⟩

/-- Rotation to the right of a word of n bits. -/
def rotR (n k x : Nat) : Nat := Nat.lor (x / 2 ^ k) (x % 2 ^ k * 2 ^ (n - k))

/-- Three rotations, or two and a shift, added without carry. -/
def shaBig (n : Nat) (r : Nat × Nat × Nat) (x : Nat) : Nat := Nat.xor (Nat.xor (rotR n r.1 x) (rotR n r.2.1 x)) (rotR n r.2.2 x)
def shaSmall (n : Nat) (r : Nat × Nat × Nat) (x : Nat) : Nat := Nat.xor (Nat.xor (rotR n r.1 x) (rotR n r.2.1 x)) (x / 2 ^ r.2.2)

/-- One round: the last sixteen words of the schedule and the eight working words. -/
def shaRound (p : ShaPar) (x : List Nat × List Nat) (k : Nat) : List Nat × List Nat :=
  let w (i : Nat) : Nat := x.1.getD i 0
  let v (i : Nat) : Nat := x.2.getD i 0
  let m := 2 ^ p.bits
  let ch := Nat.xor (Nat.land (v 4) (v 5)) (Nat.land (m - 1 - v 4) (v 6))
  let maj := Nat.xor (Nat.xor (Nat.land (v 0) (v 1)) (Nat.land (v 0) (v 2))) (Nat.land (v 1) (v 2))
  let t1 := v 7 + shaBig p.bits p.big1 (v 4) + ch + k + w 0
  let t2 := shaBig p.bits p.big0 (v 0) + maj
  let next := (shaSmall p.bits p.small1 (w 14) + w 9 + shaSmall p.bits p.small0 (w 1) + w 0) % m
  (x.1.drop 1 ++ [next], [(t1 + t2) % m, v 0, v 1, v 2, (v 3 + t1) % m, v 4, v 5, v 6])

/-- A number from its bytes, most significant first, and back. -/
def beNat (l : List Byte) : Nat := l.foldl (fun a b => a * 256 + b.toNat) 0
def beBytes (n x : Nat) : List Byte := (List.range n).map (fun i => BitVec.ofNat 8 (x / 256 ^ (n - 1 - i)))

/-- Runs of so many bytes. -/
def chunks (n : Nat) : Nat → List Byte → List (List Byte)
  | 0, _ => []
  | k + 1, l => l.take n :: chunks n k (l.drop n)

/-- The hash words after one more block. -/
def shaBlock (p : ShaPar) (h : List Nat) (b : List Byte) : List Nat :=
  let w := (chunks (p.bits / 8) 16 b).map beNat
  let ks := (shaK.take p.rounds).map (fun k => k / 2 ^ (64 - p.bits))
  let y := (ks.foldl (shaRound p) (w, h)).2
  List.zipWith (fun a c => (a + c) % 2 ^ p.bits) h y

/-- The padded message: a set bit, zeros, and the length in bits. -/
def shaPad (p : ShaPar) (msg : List Byte) : List Byte :=
  let tail := p.bits / 4 + 1
  let n := (p.block - (msg.length + tail) % p.block) % p.block
  msg ++ [0x80] ++ List.replicate n 0 ++ beBytes (p.bits / 4) (8 * msg.length)

def shaRun (p : ShaPar) (init : List Nat) (msg : List Byte) : List Byte :=
  let m := shaPad p msg
  let h := (chunks p.block (m.length / p.block) m).foldl (shaBlock p) init
  (h.map (beBytes (p.bits / 8))).flatten

/-- SHA-256, and SHA-384, which keeps the first 48 bytes of its last state. -/
def sha256 (msg : List Byte) : List Byte := shaRun sha256Par ((shaRoots.take 8).map (fun x => x / 2 ^ 32)) msg
def sha384 (msg : List Byte) : List Byte := (shaRun sha512Par (shaRoots.drop 8) msg).take 48

/-! ## HMAC and HKDF -/

/-- HMAC over a hash of the given block size. -/
def hmac (block : Nat) (hash : List Byte → List Byte) (key msg : List Byte) : List Byte :=
  let k := if block < key.length then hash key else key
  let k := k ++ List.replicate (block - k.length) 0
  hash (k.map (fun b => b ^^^ 0x5C) ++ hash (k.map (fun b => b ^^^ 0x36) ++ msg))

def hmac256 (key msg : List Byte) : List Byte := hmac 64 sha256 key msg
def hmac384 (key msg : List Byte) : List Byte := hmac 128 sha384 key msg

/-- HKDF-SHA-384 for at most 48 bytes of output, which is its first block. -/
def hkdf384 (salt ikm info : List Byte) (n : Nat) : List Byte := (hmac384 (hmac384 salt ikm) (info ++ [1])).take n

/-- The bytes of an info string. -/
def infoBytes (x : String) : List Byte := x.toList.map (fun c => BitVec.ofNat 8 c.toNat)

/-- Little-endian bytes of a word image, as memory holds it (R9). -/
def leBytes (n x : Nat) : List Byte := (List.range n).map (fun i => BitVec.ofNat 8 (x / 256 ^ i))
def leNat (l : List Byte) : Nat := l.foldr (fun b a => b.toNat + 256 * a) 0

/-! ## The device keys and the seal chain -/

/-- Words as bytes in increasing address order. -/
def wordBytes (l : List Word) : List Byte := (l.map (fun w => leBytes 4 w.toNat)).flatten

/-- A key from the seed: the salt is zero (R490). -/
def seedKey (seed : BitVec 384) (info : String) (n : Nat) : Nat :=
  leNat (hkdf384 (List.replicate 48 0) (leBytes 48 seed.toNat) (infoBytes info) n)

/-- Heartwood's derivation at each start (R490). -/
def deviceKeys (seed : BitVec 384) : DeviceKeys :=
  ⟨BitVec.ofNat 384 (seedKey seed "GZ9320 identity" 48), BitVec.ofNat 384 (seedKey seed "GZ9320 agree" 48),
   BitVec.ofNat 256 (seedKey seed "GZ9320 seal" 32)⟩

/-- The chain value of a SEAL (R455): under the sealing key, over bytes 16 to 27 of the previous SEAL, bytes 0 to 27 of the
64 records and bytes 0 to 15 of the new SEAL; its first byte lowest. -/
def sealChain (key : BitVec 256) (prev : BitVec 96) (recs : List (List Word)) (head : List Word) : BitVec 256 :=
  BitVec.ofNat 256 (leNat (hmac256 (leBytes 32 key.toNat) (leBytes 12 prev.toNat ++ (recs.map wordBytes).flatten ++ wordBytes head)))

end Sys2Proof.Machine
end

