-- ==== Sys2Proof/Machine/Num.lean ====
section
/-! DEFINITION. The functions that the manual names without their arithmetic: powers and logarithms of two and ten, and the
sine. Each is computed in fixed point, far below the last place of what it feeds; the rounding that the manual leaves open
is a free value of Config. -/
namespace Sys2Proof.Machine

def ratAbs (x : Rat) : Rat := if x < 0 then -x else x

/-- A result whose rounding the manual does not state: one of its two whole neighbours, and itself where it is whole. -/
def roundFree (q : Rat) : Int := if q.den = 1 then q.num else q.floor + (if Config.roundsUp q then 1 else 0)

/-- A level whose arithmetic the manual does not state: within 2^−24 of its value, and exact where that is whole. -/
def nearFree (q : Rat) : Rat :=
  let e : Rat := 1 / 2 ^ 24
  let d := Config.residue q
  if q.den = 1 then q else q + (if d < -e then -e else if e < d then e else d)

/-- A value that the device evaluates in 32-bit floating point (R215): within 2^−20 of it in proportion, which leaves room for
several roundings, and exact where that format holds it. -/
def floatFree (q : Rat) : Rat :=
  let e : Rat := 1 / 2 ^ 20
  let d := Config.residue q
  if q.num.natAbs < 2 ^ 24 ∧ q.den = 2 ^ Nat.log2 q.den then q else q * (1 + (if d < -e then -e else if e < d then e else d))

/-- Fixed point with 64 fraction bits. -/
abbrev fpOne : Int := 2 ^ 64
def fpMul (a b : Int) : Int := a * b / fpOne
def fpOf (q : Rat) : Int := (q * fpOne).floor
def fpRat (x : Int) : Rat := (x : Rat) / fpOne

/-- ln 2 and π. -/
abbrev fpLn2 : Int := 12786308645202655660
abbrev fpPi : Int := 57952155664616982739

/-- Terms n, n+1, … of the series of e^x, given term n. -/
def expTerms (x : Int) : Nat → Nat → Int → Int
  | 0, _, _ => 0
  | f + 1, n, t => t + expTerms x f (n + 1) (fpMul t x / (n + 1))

/-- 2^n for a whole n of either sign. -/
def pow2 (n : Int) : Rat := if 0 ≤ n then ((2 ^ n.toNat : Nat) : Rat) else 1 / ((2 ^ (-n).toNat : Nat) : Rat)

/-- 2^x. -/
def exp2 (x : Rat) : Rat := pow2 x.floor * fpRat (expTerms (fpMul (fpOf (x - x.floor)) fpLn2) 24 0 fpOne)

/-- The next n bits of the binary logarithm of a fixed-point number from 1 up to 2. -/
def logBits : Nat → Int → Nat → Nat
  | 0, _, a => a
  | n + 1, y, a =>
    let z := fpMul y y
    if 2 * fpOne ≤ z then logBits n (z / 2) (2 * a + 1) else logBits n z (2 * a)

/-- log2 of a positive number. -/
def log2 (x : Rat) : Rat :=
  let e : Int := (Nat.log2 x.num.toNat : Int) - Nat.log2 x.den
  let e := if x < pow2 e then e - 1 else if pow2 (e + 1) ≤ x then e + 1 else e
  (e : Rat) + (logBits 48 (fpOf (x / pow2 e)) 0 : Nat) / 2 ^ 48

/-- e^x. -/
def expNat (x : Rat) : Rat := exp2 (x * fpRat 26613026195688644983)

/-- log2 of ten. -/
def log2Ten : Rat := fpRat 61278757397652712441

/-- 10^x and log10, exact where the result is one or zero. -/
def exp10 (x : Rat) : Rat := if x = 0 then 1 else exp2 (x * log2Ten)
def log10 (x : Rat) : Rat := if x = 1 then 0 else log2 x / log2Ten

/-- Terms of the series of the sine: x − x³/3! + x⁵/5! − …, given the term in x^n. -/
def sinTerms (x2 : Int) : Nat → Nat → Int → Int
  | 0, _, _ => 0
  | f + 1, n, t => t + sinTerms x2 f (n + 2) (-(fpMul t x2) / ((n + 1) * (n + 2) : Nat))

/-- The sine of a phase in turns. -/
def sinTurn (p : Rat) : Rat :=
  let f := p - p.floor
  let g : Rat := if f ≤ 1 / 4 then f else if f ≤ 3 / 4 then 1 / 2 - f else f - 1
  if g = 0 then 0 else if g = 1 / 4 then 1 else if g = -(1 / 4) then -1
  else
    let x := fpMul (2 * fpPi) (fpOf g)
    fpRat (sinTerms (fpMul x x) 14 1 x)

/-- The factor that a level in dB is: 10^(dB/20), and 1 at 0 dB. -/
def dbRatio (db : Rat) : Rat := nearFree (exp10 (db / 20))

end Sys2Proof.Machine
end

