-- ==== Sys2Proof/Machine/Ops.lean ====
section
/-! DEFINITION. The named operations that every meaning is written over: sparse tables, registers and their fields,
device time, virtual ticks, the event log with its limiters, error flags, write-backs and waits. -/
namespace Sys2Proof.Machine

/-! ## Sparse tables -/

/-- The entry of a key. -/
def smGet? {α : Type} (m : SMap α) (k : Nat) : Option α :=
  match m with
  | [] => none
  | (k', v) :: r => if k' = k then some v else smGet? r k

/-- The entry of a key, or the value that an unlisted key has. -/
def smGet {α : Type} (m : SMap α) (k : Nat) (d : α) : α := (smGet? m k).getD d

/-- Sets an entry, keeping the keys rising. -/
def smSet {α : Type} (m : SMap α) (k : Nat) (v : α) : SMap α :=
  match m with
  | [] => [(k, v)]
  | (k', v') :: r => if k < k' then (k, v) :: (k', v') :: r else if k' = k then (k, v) :: r else (k', v') :: smSet r k v

/-- Removes an entry. -/
def smDel {α : Type} (m : SMap α) (k : Nat) : SMap α := m.filter (fun p => p.1 != k)

/-- Changes the entry of a key, unlisted keys having the value `d`. -/
def smUpd {α : Type} (m : SMap α) (k : Nat) (d : α) (f : α → α) : SMap α := smSet m k (f (smGet m k d))

/-- Changes every entry listed. -/
def smMap {α : Type} (m : SMap α) (f : α → α) : SMap α := m.map (fun p => (p.1, f p.2))

/-! ## Words -/

/-- Bits lo .. lo+w-1 of a word, as a number. -/
def bitsOf (x : Word) (lo w : Nat) : Nat := x.toNat / 2 ^ lo % 2 ^ w

/-- A word with bits lo .. lo+w-1 replaced. -/
def withBits (x : Word) (lo w v : Nat) : Word :=
  let m := 2 ^ w
  BitVec.ofNat 32 (x.toNat / 2 ^ (lo + w) * 2 ^ (lo + w) + (v % m) * 2 ^ lo + x.toNat % 2 ^ lo)

/-- The value of the low w bits of a number as a signed two's-complement number. -/
def signedOf (w n : Nat) : Int :=
  let m := n % 2 ^ w
  if 2 * m < 2 ^ w then (m : Int) else (m : Int) - 2 ^ w

/-- A 32-bit word from a number or an integer. -/
def wN (n : Nat) : Word := BitVec.ofNat 32 n
def wI (i : Int) : Word := BitVec.ofInt 32 i
def wB (b : Bool) : Nat := if b then 1 else 0

/-- Bit n of a number. -/
def bitN (n i : Nat) : Bool := n / 2 ^ i % 2 == 1

/-- Rounds a rational to the nearest integer, ties away from zero (R61, R173). -/
def roundAway (q : Rat) : Int :=
  if 0 ≤ q then (q + (1 : Rat) / 2).floor else -((-q + (1 : Rat) / 2).floor)

/-- A quantity in ns as a parameter in µs: nearest, ties away from zero, saturated to 32 bits (R61). -/
def usWord (ns : Int) : Word :=
  let u := roundAway ((ns : Rat) / 1000)
  BitVec.ofInt 32 (if u < -(2 ^ 31) then -(2 ^ 31) else if 2 ^ 31 - 1 < u then 2 ^ 31 - 1 else u)

/-- Saturates an integer to a range. -/
def clampI (lo hi x : Int) : Int := if x < lo then lo else if hi < x then hi else x
def clampN (lo hi x : Nat) : Nat := if x < lo then lo else if hi < x then hi else x

/-- Adds one to a 32-bit counter, saturating. -/
def satInc (x : Word) (n : Nat) : Word := wN (min (x.toNat + n) (2 ^ 32 - 1))

/-- The signed 32-bit difference of two tick counts (R7). -/
def tsDiff (a b : TS) : Int := (a - b).toInt

/-- The code of a status (Table HR-7). -/
def statusCode : Status → Nat
  | .ok => 0 | .late => 1 | .expired => 2 | .conflict => 3 | .budget => 4 | .invalid => 5
  | .denied => 6 | .aborted => 7 | .timeout => 8 | .busy => 9 | .lost => 10

/-! ## Registers -/

/-- The stored value of the register at an offset: its reset value until something else is stored. -/
def State.rd (s : State) (off : Nat) : Word := smGet s.regs off (resetOf off)

/-- Stores a register. -/
def State.wr (s : State) (off : Nat) (v : Word) : State := { s with regs := smSet s.regs off v }

/-- A field of a stored register. -/
def State.fld (s : State) (f : Field) : Nat := bitsOf (s.rd f.off) f.lo f.w

/-- A one-bit field of a stored register. -/
def State.flag (s : State) (f : Field) : Bool := s.fld f == 1

/-- Stores a field, leaving the register's other bits. -/
def State.setFld (s : State) (f : Field) (v : Nat) : State := s.wr f.off (withBits (s.rd f.off) f.lo f.w v)

/-- Sets bits of a register field by a mask. -/
def State.orFld (s : State) (f : Field) (m : Nat) : State := s.setFld f (Nat.lor (s.fld f) m)

/-- Advances a 32-bit counter register, saturating. -/
def State.bumpBy (s : State) (off n : Nat) : State := s.wr off (satInc (s.rd off) n)
def State.bump (s : State) (off : Nat) : State := s.bumpBy off 1

/-- Advances a counter field, saturating at its width. -/
def State.bumpFld (s : State) (f : Field) : State := s.setFld f (min (s.fld f + 1) (2 ^ f.w - 1))

/-- A 64-bit value held in a LO and HI pair (R514). -/
def State.rd64 (s : State) (lo hi : Nat) : BitVec 64 := (s.rd hi) ++ (s.rd lo)

/-- Stores a 64-bit value into a LO and HI pair. -/
def State.wr64 (s : State) (lo hi : Nat) (v : BitVec 64) : State :=
  (s.wr lo (v.extractLsb' 0 32)).wr hi (v.extractLsb' 32 32)

/-! ## Device time -/

/-- DT never decreases (R6): an event at a DT brings the machine to that DT. -/
def maxDt (a b : DT) : DT := if a.toNat ≤ b.toNat then b else a

/-- The exact reference period, in ns (R45). -/
def State.refNs (s : State) : Rat := if s.fld Fl.CLK_CTRL.XTAL_SEL = 0 then 1000000 / 245760 else 1000000 / 225792

/-- One calibrated keeper period, in ns: TIME_XO_RATIO reference cycles (R47). -/
def State.keeperNs (s : State) : Rat := ((s.rd Reg.TIME_XO_RATIO).toNat : Rat) / 65536 * s.refNs

/-- What DT shows at an instant: while the Canopy keeper holds it, the DT handed over and one keeper period for each whole
32.768 kHz cycle since (R47). -/
def State.shownDt (s : State) (dt : DT) : DT :=
  if s.time.keeper && decide (s.time.handDt.toNat ≤ dt.toNat) && decide (0 < s.keeperNs) then
    let n := (((dt.toNat - s.time.handDt.toNat : Nat) : Rat) / s.keeperNs).floor
    s.time.handDt + BitVec.ofInt 64 ((n : Rat) * s.keeperNs).floor
  else dt

def State.advance (s : State) (dt : DT) : State := { s with time := { s.time with dt := maxDt s.time.dt (s.shownDt dt) } }

/-- House rate Fd of a rate code, in units of 100 Hz (Table TK-1). -/
def fdOf (code : Nat) : Nat := match code with
  | 0 => 441 | 1 => 480 | 2 => 882 | 3 => 960 | 4 => 1764 | _ => 1920

/-- Fd in Hz. -/
def fdHz (code : Nat) : Nat := fdOf code * 100

/-- Steps per tick (R13). -/
def stepsPerTk (code : Nat) : Nat := match code with
  | 0 | 1 => 8 | 2 | 3 => 4 | _ => 2

/-- cc per tick (Table TK-1). -/
def ccPerTk (code : Nat) : Nat := 16 * stepsPerTk code

/-- Is the rate of the 44.1 kHz family? -/
def family441 (code : Nat) : Bool := code % 2 == 0

/-- The tick count that TIME_TS32 shows (R33, R52): the tick in force, or the virtual count while the clock stands. -/
def virtIndex (s : State) (dt : DT) : Nat :=
  -- the largest i with DT_s + floor (i * 10^9 / Fd) <= dt: i * 10^9 < (dt - DT_s + 1) * Fd
  let d := dt.toNat - s.time.bdt.toNat
  ((d + 1) * fdHz s.time.vrate - 1) / 1000000000

/-- The DT of virtual boundary i (R52). -/
def virtDt (s : State) (i : Nat) : DT := s.time.bdt + BitVec.ofNat 64 (i * 1000000000 / fdHz s.time.vrate)

/-- The first virtual boundary whose DT is not earlier than a DT (R53). -/
def virtCeil (s : State) (dt : DT) : Nat :=
  let d := dt.toNat - s.time.bdt.toNat
  let i := (d * fdHz s.time.vrate + 999999999) / 1000000000
  if dt.toNat ≤ s.time.bdt.toNat then 0 else
    -- i is the first with i*10^9/Fd >= d exactly; the floor of R52 reaches d only there
    i

/-- The current tick count. -/
def State.tsNow (s : State) : TS :=
  if s.time.running then s.time.ts
  else if s.time.hadTick then s.time.ts + BitVec.ofNat 32 (virtIndex s s.time.dt) else s.time.ts

/-! ## The event log (chapter 15) -/

/-- Source IDs of Table BZ-2. -/
abbrev Src.TOP : Nat := 0x00
abbrev Src.CLK : Nat := 0x01
abbrev Src.TIME : Nat := 0x02
abbrev Src.PWR : Nat := 0x03
abbrev Src.AIN : Nat := 0x04
abbrev Src.AOUT : Nat := 0x05
abbrev Src.SPK : Nat := 0x06
abbrev Src.THK : Nat := 0x07
abbrev Src.TRL : Nat := 0x08
abbrev Src.FX : Nat := 0x09
abbrev Src.CLP : Nat := 0x0A
abbrev Src.MEM : Nat := 0x0B
abbrev Src.SAP : Nat := 0x0C
abbrev Src.NET : Nat := 0x0E
abbrev Src.HST : Nat := 0x10
abbrev Src.TWB : Nat := 0x11
abbrev Src.WAK : Nat := 0x12
abbrev Src.BLZ : Nat := 0x13
abbrev Src.FLT : Nat := 0x14
abbrev Src.HWD : Nat := 0x15
abbrev Src.PIN : Nat := 0x16
abbrev Src.CCA : Nat := 0x20
abbrev Src.CCB : Nat := 0x21
abbrev Src.RANGER : Nat := 0x22

/-- The events that an entry stands for (R444). -/
def evCount (e : Ev) : Nat := if e.coal then e.cnt else 1

/-- Adds a dropped item to the pending DROP summary and the drop counters (R444, R446, R447). -/
def State.countDrop (s : State) (e : Ev) (staged : Bool) : State :=
  let n := evCount e
  let d := match s.blz.drop with
    | none => ⟨n, 2 ^ e.sev, e.sev, if staged then n else 0, e.dt, e.epoch⟩
    | some d => { d with count := d.count + n, mask := Nat.lor d.mask (2 ^ e.sev), top := max d.top e.sev,
                         stage := d.stage + (if staged then n else 0) }
  let s := { s with blz := { s.blz with drop := some d } }
  let s := s.bumpBy (Reg.BLZ_DROP (min e.sev 6)) n
  if staged then s.bumpBy Reg.BLZ_STAGE_DROP n else s

/-- Coalesces an event into the newest entry of an identical code, if the queue (oldest first) holds one (R444). -/
def coalesce (q : List Ev) (code : Nat) : Option (List Ev) :=
  match q with
  | [] => none
  | e :: r => match coalesce r code with
    | some r' => some (e :: r')
    | none => if e.code = code then some ({ e with coal := true, cnt := evCount e + 1 } :: r) else none

/-- The lowest severity in a queue. -/
def lowestSev (q : List Ev) (m : Nat) : Nat := q.foldl (fun a e => min a e.sev) m

/-- Takes the newest entry of a severity out of a queue. -/
def takeNewest (q : List Ev) (sev : Nat) : Option (Ev × List Ev) :=
  match q with
  | [] => none
  | e :: r => match takeNewest r sev with
    | some (x, r') => some (x, e :: r')
    | none => if e.sev = sev then some (e, r) else none

/-- Places an event in a staging queue of a given size by the rules of R443 and R444: the queue it leaves, the
item dropped, and whether the event was coalesced. -/
def stageInto (q : List Ev) (size : Nat) (e : Ev) : List Ev × Option Ev × Bool :=
  if q.length < size then (q ++ [e], none, false)
  else match coalesce q e.code with
    | some q' => (q', none, true)
    | none =>
      let low := lowestSev q e.sev
      if e.sev = low then (q, some e, false)
      else match takeNewest q low with
        | some (x, q') => (q' ++ [e], some x, false)
        | none => (q, some e, false)

/-- Is the core powered down, so that Canopy holds the events (R445)? -/
def State.coreDown (s : State) : Bool :=
  match s.pwr.state with
  | .glade | .clearing | .moss => true
  | .waking => decide (s.pwr.step ≤ 4)
  | _ => false

/-- Hands an event to Blaze: into the source's staging queue, or into Canopy's while the core is down. -/
def State.stage (s : State) (e : Ev) : State :=
  let down := s.coreDown
  let q := if down then s.blz.canopy else smGet s.blz.queues e.src []
  let (q', dropped, co) := stageInto q (if down then 16 else 4) e
  let s := if down then { s with blz := { s.blz with canopy := q' } }
           else { s with blz := { s.blz with queues := smSet s.blz.queues e.src q' } }
  let s := if co then s.bump Reg.BLZ_COALCNT else s
  match dropped with
  | some x => s.countDrop x true
  | none => s

/-- Logs a code with its source, severity and parameters at a DT, under the epoch in force (R442). -/
def State.logAt (s : State) (src code sev : Nat) (dt : DT) (p0 p1 p2 : Word) : State :=
  s.stage ⟨src, code, sev, dt, s.time.epoch, p0, p1, p2, false, 1⟩

/-- Logs at the present DT (R442). -/
def State.log (s : State) (src code sev : Nat) (p0 p1 p2 : Word) : State := s.logAt src code sev s.time.dt p0 p1 p2

/-- One second of DT, in ns. -/
abbrev oneSecond : Nat := 1000000000

/-- An event whose counting parameter shows how many occurrences its record reports (R561). -/
def withCount (e : Ev) (cp n : Nat) : Ev := match cp with
  | 0 => { e with p0 := wN n }
  | 1 => { e with p1 := wN n }
  | 2 => { e with p2 := wN n }
  | 5 => { e with p1 := wN n }
  | _ => e

/-- Ends the second of a limiter if it has run out at a DT: one record for all that was gathered (R561). -/
def State.limEnd (s : State) (code key : Nat) (dt : DT) : State :=
  match s.blz.lims.find? (fun l => l.code == code && l.key == key) with
  | none => s
  | some l =>
    if l.since.toNat + oneSecond ≤ dt.toNat then
      let rest := s.blz.lims.filter (fun l => !(l.code == code && l.key == key))
      match l.first with
      | none => { s with blz := { s.blz with lims := rest } }
      | some e =>
        let since := l.since + BitVec.ofNat 64 oneSecond
        let s := { s with blz := { s.blz with lims := ⟨code, key, since, none, 0, l.cp⟩ :: rest } }
        s.stage (withCount e l.cp l.n)
    else s

/-- Logs a code that is logged at most once per second per key (R561); `cp` names the parameter that counts the
occurrences (3: none; 5: parameter 1 takes the largest value), `n` is how many this occurrence brings. -/
def State.logLim (s : State) (src code sev : Nat) (key : Nat) (cp n : Nat) (dt : DT) (p0 p1 p2 : Word) : State :=
  let s := (s.limEnd code key dt).limEnd code key dt
  let e : Ev := ⟨src, code, sev, dt, s.time.epoch, p0, p1, p2, false, 1⟩
  match s.blz.lims.find? (fun l => l.code == code && l.key == key) with
  | none =>
    let s := { s with blz := { s.blz with lims := ⟨code, key, dt, none, 0, cp⟩ :: s.blz.lims } }
    s.stage (withCount e cp n)
  | some _ =>
    let f (l : Limiter) : Limiter := if l.code == code && l.key == key then
        { l with first := some (l.first.getD e), n := if cp = 5 then max l.n n else l.n + n } else l
    { s with blz := { s.blz with lims := s.blz.lims.map f } }

/-! ## Timed pin outputs (R528) -/

/-- A GPIO whose function and argument these are goes high until a DT. -/
def State.pinPulse (s : State) (func sel : Nat) (until_ : DT) : State :=
  match (List.range 16).find? (fun n => s.fld (Fl.PIN_GPIO_CFG.FUNC n) == func && s.fld (Fl.PIN_GPIO_CFG.SEL n) == sel) with
  | some n => { s with pin := { s.pin with high := smSet s.pin.high n until_ } }
  | none => s

/-! ## Host-interface flags -/

/-- Sets a bit of HST_ERR, and remembers that a bit went from clear to set in this tick (R311). -/
def State.hstErr (s : State) (f : Field) : State :=
  if s.flag f then s
  else { (s.setFld f 1) with host := { s.host with errNew := true } }

/-- Is an alert source that drives TWB_ALERT_N set (R381)? -/
def State.alertPend (s : State) : Bool := (s.rd Reg.TWB_ALERT &&& s.rd Reg.TWB_ALERT_MASK) != 0

/-- Sets a TWB_ALERT source bit; TWB_ALERT_N asserts when a source that drives it becomes set (R366, R381). -/
def State.alertSet (s : State) (f : Field) : State :=
  let t := s.setFld f 1
  if s.flag f then s else { t with twb := { t.twb with alertN := t.twb.alertN || bitN (t.rd Reg.TWB_ALERT_MASK).toNat f.lo } }

/-- Sets a bit of FLT_FAULT: FAULT_N asserts, and with it TWB_ALERT.FAULT (R381, R476). -/
def State.fltSet (s : State) (f : Field) : State :=
  let was : Bool := s.rd Reg.FLT_FAULT == 0
  let s := s.setFld f 1
  if was then s.alertSet Fl.TWB_ALERT.FAULT else s

/-- A bad BAR0 write or access of the host: HST_ERR.MMIO_BAD and its record (R12, R310). -/
def State.mmioBad (s : State) (off : Nat) : State :=
  (s.hstErr Fl.HST_ERR.MMIO_BAD).log Src.HST 0xA008 3 (wN off) 0 0

/-! ## Rings, write-backs, waits (chapter 10) -/

abbrev Ring.init : Ring :=
  ⟨.off, .ok, false, 0, 0, 0, false, none, 0, false, none, false, false, 8, [], [], 64, false, [], [], []⟩

def State.ring (s : State) (n : Nat) : Ring := smGet s.host.rings n Ring.init
/-- The late window in force on a ring (R62, R317). -/
def State.lateWin (s : State) (n : Nat) : Nat := (s.ring n).latewin
def State.setRing (s : State) (n : Nat) (r : Ring) : State := { s with host := { s.host with rings := smSet s.host.rings n r } }
def State.updRing (s : State) (n : Nat) (f : Ring → Ring) : State := s.setRing n (f (s.ring n))

/-- Moves a ring's device index on by n entries (R315). -/
def State.ringAdv (s : State) (n k : Nat) : State := s.updRing n (fun r => { r with didx := (r.didx + k) % 65536 })

/-- Entries of a ring: 2^LOG2SIZE (R314). -/
def State.ringSize (s : State) (n : Nat) : Nat := 2 ^ s.fld (Fl.HST_RING_CFG.LOG2SIZE n)
def State.ringType (s : State) (n : Nat) : Nat := s.fld (Fl.HST_RING_CFG.TYPE n)
def State.cplOf (s : State) (n : Nat) : Nat := s.fld (Fl.HST_RING_CFG.CPLR n)

/-- The lap parity at an index: true on odd laps (R316). -/
def lapPhase (size idx : Nat) : Bool := idx / size % 2 == 0

/-- The ring of a descriptor; one picked up before a host-interface reset carries 64 more (R342). -/
abbrev ringOf (h : Hdr) : Nat := h.ring % 64

/-- Does the device issue DMA (R341, R342)? -/
def State.dmaOn (s : State) : Bool := s.host.speed != 0 && s.host.bme && !s.host.perst

/-- The DT of the boundary of a tick: of the boundaries held, else the one in force. -/
def State.dtOf (s : State) (ts : TS) : DT :=
  let back := tsDiff s.time.ts ts
  if 0 ≤ back then s.time.bdts.getD back.toNat s.time.bdt else s.time.bdt

/-! ## DMA windows (R312) -/

/-- One window allows an access of n bytes at an address. -/
def State.winAllows (s : State) (w : Nat) (addr : Nat) (n : Nat) (write : Bool) : Bool :=
  let base := (s.rd64 (Reg.HST_WIN_BASE_LO w) (Reg.HST_WIN_BASE_HI w)).toNat
  let size := (s.rd (Reg.HST_WIN_SIZE w)).toNat * 4096
  let attr := if write then s.flag (Fl.HST_WIN_ATTR.W w) else s.flag (Fl.HST_WIN_ATTR.R w)
  attr && decide (base ≤ addr) && decide (addr + n ≤ base + size) && decide (0 < size)

/-- The access lies wholly inside one enabled window whose attribute allows its direction (R312). -/
def State.dmaAllowed (s : State) (addr : Addr) (n : Nat) (write : Bool) : Bool :=
  (List.range 16).any (fun w => s.winAllows w addr.toNat n write)

/-- A DMA refused at issue (R313). -/
def State.winViol (s : State) (user : Nat) (addr : Addr) : State :=
  ((s.bump Reg.HST_WIN_VIOLCNT).hstErr Fl.HST_ERR.WIN_VIOL).log Src.HST 0xA006 4 (wN user)
    (addr.extractLsb' 0 32) (addr.extractLsb' 32 32)


/-! ## Ring errors (R318) -/

/-- The EVT ring has been disabled or has gone into error: the drain pauses and keeps its position (R453). -/
def State.drainBreak (s : State) (ring : Nat) : State :=
  if s.blz.run ∧ s.fld Fl.BLZ_CTRL.EVT_RING = ring then { s with blz := { s.blz with run := false, err := true } } else s

/-- A ring goes into error: 1 index, 2 failed DMA, 3 window, 4 its CPL ring (R318, Table HR-14). -/
def State.ringErr1 (s : State) (n why : Nat) : State :=
  let r := s.ring n
  if r.state = .running then
    let s := s.setRing n { r with state := .error, code := if why = 1 then .invalid else .lost }
    let s := if s.flag Fl.HST_ERR.RING_ERR then s else s.wr Reg.HST_ERR_RING (wN n)
    ((s.hstErr Fl.HST_ERR.RING_ERR).log Src.HST 0xA004 4 (wN n) (wN why) 0).drainBreak n
  else s

/-- The same, with the rings whose CPL ring it is. -/
def State.ringErr (s : State) (n why : Nat) : State :=
  let was := (s.ring n).state
  let s := s.ringErr1 n why
  if was = .running ∧ s.ringType n = 1 then
    (List.range 64).foldl (fun s m => if s.ringType m != 1 && s.ringType m != 6 && s.cplOf m == n then s.ringErr1 m 4 else s) s
  else s

/-- Host address of the slot of an index (R314, R315). -/
def State.slotAddr (s : State) (n idx : Nat) : Addr :=
  (s.rd64 (Reg.HST_RING_BASE_LO n) (Reg.HST_RING_BASE_HI n)) + BitVec.ofNat 64 (32 * (idx % s.ringSize n))

/-- Gives one write-back its place in a CPL ring (R316, R326); one that a window refuses puts the ring into error (R313).
Phase 9 of the tick writes it to host memory (Table AR-3), later while the device issues no DMA (R341). -/
def State.putWb (s : State) (cpl opcode : Nat) (st : Status) (tag : BitVec 8) (ts : TS) (dt : DT) (r0 r1 r2 : Word) : State :=
  let r := s.ring cpl
  if r.state = .running then
    if s.dmaOn ∧ !s.dmaAllowed (s.slotAddr cpl r.didx) 32 true then (s.winViol cpl (s.slotAddr cpl r.didx)).ringErr cpl 3
    else
      let w : WriteBack := ⟨cpl, r.didx, opcode, st, tag, ts, dt, r0, r1, r2, lapPhase (s.ringSize cpl) r.didx⟩
      let s := s.setRing cpl { r with didx := (r.didx + 1) % 65536, wrote := true, resv := r.resv - 1 }
      { s with host := { s.host with heldWb := w :: s.host.heldWb } }
  else s

/-- Completes a descriptor: the write-back in the four cases of R327 (`force`: a wait, or a lock of R176), else the
release of its reserved CPL entry. -/
def State.complete (s : State) (h : Hdr) (opcode : Nat) (st : Status) (ts : TS) (dt : DT) (r0 r1 r2 : Word) (force : Bool) : State :=
  let cpl := s.cplOf h.ring
  if 64 ≤ h.ring then s     -- the host interface has been reset since: the write-back is discarded (R342)
  else if h.want || force || (st != .ok && st != .late) then s.putWb cpl opcode st h.tag ts dt r0 r1 r2
  else s.updRing cpl (fun r => { r with resv := r.resv - 1 })

/-- Completes a descriptor at the boundary that a wake or a rate change has just placed: the write-back is written when that
boundary opens. -/
def State.completeOpen (s : State) (h : Hdr) (opcode : Nat) (st : Status) (ts : TS) (dt : DT) (r0 r1 r2 : Word) (force : Bool) : State :=
  { s with host := { s.host with openWb := s.host.openWb ++ [⟨h, opcode, st, ts, dt, r0, r1, r2, force⟩] } }

/-- Arms a wait at the commit boundary (R67). -/
def State.armWait (s : State) (h : Hdr) (opcode : Nat) (k : WaitKind) (timeout : TS) : State :=
  { s with host := { s.host with waits := s.host.waits ++ [⟨h, opcode, k, timeout, s.time.ts⟩] } }

/-- Completes one wait with a status and a result (R67). -/
def State.endWait (s : State) (w : Wait) (st : Status) (r0 r1 r2 : Word) : State :=
  let s := { s with host := { s.host with waits := s.host.waits.erase w } }
  s.complete w.hdr w.opcode st s.time.ts s.time.bdt r0 r1 r2 true

/-- A condition of a wait is met between boundaries: the arrival is placed, one for each wait, the lowest `pri` of
those placed in a tick (R67, R163). -/
def State.arrive (s : State) (w : Wait) (st : Status) (r0 r1 r2 : Word) (pri : Nat) : State :=
  let a : Arrival := ⟨w, st, r0, r1, r2, pri⟩
  let arr := match s.host.arr.find? (fun x => decide (x.wait = w)) with
    | none => s.host.arr ++ [a]
    | some x => if pri < x.pri then s.host.arr.map (fun y => if y.wait = w then a else y) else s.host.arr
  { s with host := { s.host with arr := arr } }

/-- Phase 4: the waits whose arrivals have been placed complete (R67). -/
def State.arrivals (s : State) : State :=
  let l := s.host.arr
  let s := { s with host := { s.host with arr := [] } }
  l.foldl (fun s a => if s.host.waits.contains a.wait then s.endWait a.wait a.status a.r0 a.r1 a.r2 else s) s

/-- Does an active control core run (R22, R464)? -/
def State.coreUp (s : State) : Bool :=
  (if s.flt.activeB then s.flt.coreB else s.flt.coreA).run == .active && !s.flt.hung

/-- The commands that are staged in the tick in force, for the next boundary (R18, R65, R328): those picked up in the tick
before that do not wait for a later target, and the pending ones whose target is the next boundary. -/
def State.staging (s : State) : List Picked :=
  let ahead (p : Picked) : Int := tsDiff p.hdr.target s.time.ts
  if s.flt.fire then []
  else (if s.coreUp then s.host.picked.filter (fun p => !p.hdr.timed || p.late || decide (ahead p ≤ 1)) else [])
    ++ s.host.pend.filter (fun p => decide (0 ≤ ahead p) && decide (ahead p ≤ 1))

/-! ## Commands at their commit boundary -/

/-- What a command's effect leaves: the state, its status and result, whether a write-back is written whatever WANT
says (a lock of R176), and whether the write-back comes later (a wait, a SLEEP, a HOUSE_RATE, a data descriptor). -/
structure Done where
  st       : State
  status   : Status
  r0       : Word
  r1       : Word
  r2       : Word
  force    : Bool
  deferred : Bool

/-- The command did all it was asked, with no result. -/
def okDone (s : State) : Done := ⟨s, .ok, 0, 0, 0, false, false⟩
/-- The command was refused at its commit boundary and changed nothing. -/
def refuse (s : State) (st : Status) : Done := ⟨s, st, 0, 0, 0, false, false⟩
/-- The command's write-back comes later. -/
def laterDone (s : State) : Done := ⟨s, .ok, 0, 0, 0, false, true⟩

/-- HST_BAD_DESC, at most once per second per ring, for INVALID and DENIED (R347). -/
def State.badDesc (s : State) (h : Hdr) (opcode : Nat) (st : Status) : State :=
  if st = .invalid ∨ st = .denied then
    s.logLim Src.HST 0xA007 2 (ringOf h) 3 1 s.time.dt (wN (ringOf h)) (wN opcode) (wN (statusCode st))
  else s

/-- A rejected command: no effect but its write-back in the tick in force (R328, R329). -/
def State.reject (s : State) (h : Hdr) (opcode : Nat) (st : Status) : State :=
  (s.badDesc h opcode st).complete h opcode st s.time.ts s.time.bdt 0 0 0 false

/-- A command rejected by checks 1 to 5 of R328, taken at its commit boundary k+2 as the tick in force: its write-back
carries k+1 (R329). -/
def State.rejectStaged (s : State) (h : Hdr) (opcode : Nat) (st : Status) : State :=
  (s.badDesc h opcode st).complete h opcode st (s.time.ts - 1) (s.dtOf (s.time.ts - 1)) 0 0 0 false

/-- Is a refusal by check 5 decided at the commit boundary itself? So it is for the commands whose rules name the commit:
BUSY for a sequence, a rate change, a level change or a SLEEP in progress (R43, R100, R117, R135, R268, R385, R331), the
distances of TIME_WALL_SET and NET_SYNC (R59, R304), every refusal of a SLEEP (R397, R411, R531), and those of Firebreak's own command (R472). Every other refusal is decided in
staging (R328). -/
def atBoundary (c : Cmd) (st : Status) : Bool := match c with
  | .houseRate _ => st == .busy
  | .timeWallSet _ => st == .invalid
  | .netSync _ => st == .invalid
  | .perfLevel _ => st == .busy
  | .sleep _ => st != .ok
  | .ainSet _ => st == .busy
  | .pdmSet _ => st == .busy
  | .aoutSet _ => st == .busy
  | .spkSet _ => st == .busy
  | .sapSet _ => st == .busy
  | .firebreakCtrl _ => st != .ok
  | _ => false

/-- A refusal by check 5: in the commit tick where it is decided at the boundary (R331), else in staging (R329). -/
def State.rejectState (s : State) (h : Hdr) (c : Cmd) (opcode : Nat) (st : Status) : State :=
  if atBoundary c st then s.reject h opcode st else s.rejectStaged h opcode st

/-- A descriptor rejected at its pickup in the tick in force: the write-back comes in the next tick (R329). -/
def State.rejectNext (s : State) (h : Hdr) (opcode : Nat) (st : Status) : State :=
  let s := s.badDesc h opcode st
  { s with host := { s.host with dueWb := s.host.dueWb ++ [(h, opcode, st)] } }

/-! ### Admission (chapter 11) -/

/-- Cycles per tick of a level at a rate, C, and the budget B = floor (0.92 × C) (R354, Table LT-5). -/
def coreHz (level : Nat) : Nat := match level with
  | 0 => 1000000000 | 1 => 800000000 | 2 => 500000000 | _ => 250000000
def cyclesC (rate level : Nat) : Nat := coreHz level / fdHz rate
def budgetB (rate level : Nat) : Nat := 92 * cyclesC rate level / 100

def ceilDiv (a b : Nat) : Nat := (a + b - 1) / b

/-- Nodes of the active bank whose target is not zero or whose ramp runs (R179). -/
def State.nodeKeys (s : State) : List Nat :=
  (s.thk.act.filter (fun p => bitsOf p.2 0 24 != 0 && !bitN p.2.toNat 28)).map (·.1)

/-- Two rising lists of keys merged, each key once. -/
def keyUnion (a b : List Nat) : Nat → List Nat
  | 0 => a ++ b
  | n + 1 => match a, b with
    | [], b => b
    | a, [] => a
    | x :: r, y :: t => if x < y then x :: keyUnion r (y :: t) n else if y < x then y :: keyUnion (x :: r) t n else x :: keyUnion r t n

def unionKeys (a b : List Nat) : List Nat := keyUnion a b (a.length + b.length)

/-- The nodes that the Thicket works on in this state. -/
def State.thkNodes (s : State) : List Nat :=
  unionKeys s.nodeKeys ((s.thk.ramps.filter (fun p => p.2.cur != 0 || decide (0 < p.2.n))).map (·.1))

/-- Cost of the Thicket with N active nodes (Table LT-6). -/
def State.thkCost (s : State) (n : Nat) : Nat :=
  let meters := (s.sel.filter (fun p => decide (0x29 * 1024 ≤ p.1) && decide (p.1 < 0x2A * 1024) && p.2.src != 0xFFFF)).length
  let tones := (s.thk.tones.filter (fun p => p.2.wave != 0)).length
  24 + ceilDiv n 64 + ceilDiv s.thk.dual.length 8 + ceilDiv meters 16 + 2 * tones

/-- Words of an effect slot's active set; word 3 holds EN, BYP, NBQ and DYN, word 12 D and DRAM (Table FX-2). -/
def State.fxWord (s : State) (n i : Nat) : Word := smGet s.fx.act (n * 128 + i) 0
def State.fxLive (s : State) (n : Nat) : Bool :=
  match smGet? s.fx.ch n with
  | some x => bitN (s.fxWord n 3).toNat 0 || x.fade.cur != 0 || decide (0 < x.fade.n)
  | none => bitN (s.fxWord n 3).toNat 0

def lineUnits (dram : Bool) (d : Nat) : Nat := if dram then 6 else if d = 0 then 0 else 2

/-- Units of a slot (Table LT-7). -/
def State.fxUnits (s : State) (n : Nat) : Nat :=
  if s.fxLive n then
    let dram := bitN (s.fxWord n 12).toNat 24
    let old := match smGet? s.fx.ch n with
      | some x => match x.old with
        | some (p, _) => lineUnits p.dram p.d
        | none => 0
      | none => 0
    6 + 5 * bitsOf (s.fxWord n 3) 3 4 + (if bitsOf (s.fxWord n 3) 7 2 = 0 then 0 else 24)
      + lineUnits dram (bitsOf (s.fxWord n 12) 0 24) + old
  else 0

/-- The slots that have an active set or a state. -/
def State.fxSlots (s : State) : List Nat :=
  unionKeys (s.fx.ch.map (·.1)) (s.fx.act.foldr (fun p l => if l.head? = some (p.1 / 128) then l else p.1 / 128 :: l) [])

def State.fxCost (s : State) : Nat := 16 + ceilDiv (s.fxSlots.foldl (fun a n => a + s.fxUnits n) 0) 16

/-- σmax of a voice at a rate, rounded up, from 1 to 16: its peak is held at the rate in force (R355). -/
def sigmaCeil (v : Voice) (now rate : Nat) : Nat := clampN 1 16 (ceilDiv (v.peak * fdHz now) (fdHz rate * 2 ^ 24))

def recUnits (ts : TS) (r : Recorder) : Nat :=
  (if r.en then 2 else 0) + (if r.play.isSome then 2 else 0)
    + (match r.run with
       | some x => if x.pre && decide (tsDiff ts (x.join + 31) ≤ 0) then 40 else 0
       | none => 0)

def State.clipCost (s : State) (rate : Nat) : Nat :=
  let snd (v : Voice) : Nat := 32 * sigmaCeil v s.clk.rate rate + 8
  let u := s.clip.voices.foldl (fun a p => a + snd p.2) 0
  let u := s.clip.tails.foldl (fun a p => a + snd p.2.snd) u
  16 + ceilDiv (s.loop.foldl (fun a p => a + recUnits s.time.ts p.2) u) 8

/-- S: bytes per sample of a format (R356). -/
def sampleS (fmt : Nat) : Nat := match fmt with
  | 0 => 2 | 1 => 3 | _ => 4

/-- DRAM traffic in bytes per tick (Table LT-8). -/
def State.dramCost (s : State) (rate : Nat) : Nat :=
  let line (n : Nat) : Nat :=
    if s.fxLive n then
      let dram := bitN (s.fxWord n 12).toNat 24
      let x? := smGet? s.fx.ch n
      let oldDram : Bool := match x? with
        | some x => match x.old with
          | some (p, _) => p.dram
          | none => false
        | none => false
      let xf : Bool := match x? with
        | some x => x.old.isSome
        | none => false
      if dram ∨ oldDram then (if xf then 16 else 8) else 0
    else 0
  let voice (v : Voice) : Nat :=
    let w := v.words.getD 5 0
    (sigmaCeil v s.clk.rate rate + 1) * sampleS (bitsOf w 16 2) + wB (bitN w.toNat 19)
  let a := s.fxSlots.foldl (fun a n => a + line n) 0
  let a := s.clip.voices.foldl (fun a p => a + voice p.2) a
  let a := s.clip.tails.foldl (fun a p => a + voice p.2.snd) a
  let a := s.loop.foldl (fun a p =>
    a + (if p.2.en then sampleS p.2.fmt else 0) + (if p.2.run.isSome then 1024 else 0)
      + (match p.2.play with
         | some x => sampleS x.fmt
         | none => 0)) a
  s.net.ctx.foldl (fun a p =>
    let w := smGet s.net.act (p.1 * 16 + 4) 0
    if decide (p.2.state ≠ .idle) && !bitN w.toNat 0 && bitsOf w 8 8 != 3 then a + 8 * bitsOf w 16 8 else a) a

/-- DRAM data rate in MT/s (MEM_CFG.RATE), and the capacity in bytes per tick (R356). -/
def State.dramMts (s : State) : Nat := match s.fld Fl.MEM_CFG.RATE with
  | 0 => 3733 | 1 => 3200 | 2 => 2667 | 3 => 2133 | _ => 1600
def State.dramCap (s : State) (rate : Nat) : Nat := 1600000 * s.dramMts / fdHz rate

/-- The costs of the priced engines and of DRAM at a rate: 0 Thicket, 1 effect, 2 clip, 3 DRAM. `n` is the number of
nodes that count. -/
def State.costs (s : State) (rate n : Nat) : List Nat := [s.thkCost n, s.fxCost, s.clipCost rate, s.dramCost rate]

/-- The first engine that exceeds its limit. -/
def overLimit (costs : List Nat) (b cap : Nat) : Option Nat :=
  (List.range 4).find? (fun i => decide ((if i = 3 then cap else b) < costs.getD i 0))

/-- Does the ledger fit the budget of a rate code and a level? -/
def State.fitsAt (s : State) (rate level : Nat) : Bool :=
  (overLimit (s.costs rate s.thkNodes.length) (budgetB rate level) (s.dramCap rate)).isNone

/-- A level that a staged PERF_LEVEL names. -/
def State.stagedLevel (s : State) : Option Nat :=
  (s.staging.filterMap (fun p => match p.cmd with
    | .perfLevel l => some l
    | _ => none)).head?

/-- The levels and rates against which commands are priced (R360): the one in force, and the one that is coming. -/
def State.priceAt (s : State) : List Nat × List Nat :=
  let lv := s.pwr.level :: s.pwr.target :: (match s.stagedLevel with
    | some l => [l]
    | none => [])
  let rt := s.clk.rate :: (match s.clk.rc with
    | some r => [r.old, r.new]
    | none => [])
  (lv, rt)

/-- The budget in use: the lower of those in force and coming (R360). -/
def State.budgetUsed (s : State) : Nat :=
  let (lv, rt) := s.priceAt
  rt.foldl (fun a r => lv.foldl (fun a l => min a (budgetB r l)) a) (budgetB s.clk.rate s.pwr.level)

def State.dramUsed (s : State) : Nat := s.priceAt.2.foldl (fun a r => min a (s.dramCap r)) (s.dramCap s.clk.rate)

/-- Admission of a command by the states before and after it (R358): an engine whose cost it raises above its limit. A
node that is active before or after counts (R179). -/
def admitCheck (s t : State) : Option Nat :=
  let n := (unionKeys s.thkNodes t.thkNodes).length
  let rate := s.clk.rate
  let was := s.costs rate s.thkNodes.length
  let is := t.costs rate n
  let b := s.budgetUsed
  let cap := s.dramUsed
  (List.range 4).find? (fun i =>
    decide ((if i = 3 then cap else b) < is.getD i 0) && decide (was.getD i 0 < is.getD i 0))

/-- A refusal for budget (R362, R363): PWR_BUD_LAST, the counter, BUD_REJECT at most once per second per engine. -/
def State.budNote (s : State) (h : Hdr) (opcode e cost : Nat) : State :=
  let s := s.bump Reg.PWR_BUD_REJCNT
  let s := s.wr Reg.PWR_BUD_LAST (wN (ringOf h * 2 ^ 24 + e * 2 ^ 20 + opcode))
  s.logLim Src.PWR 0x2101 2 e 3 1 s.time.dt (wN (ringOf h * 2 ^ 24 + opcode)) (wN e) (wN cost)

def State.budReject (s : State) (h : Hdr) (opcode e : Nat) (t : State) : State :=
  let n := (unionKeys s.thkNodes t.thkNodes).length
  s.budNote h opcode e ((t.costs s.clk.rate n).getD e 0)

/-- A command's effect at its commit boundary with its write-back (R326, R327, R329); `late` when it runs late. -/
def State.finish (h : Hdr) (opcode : Nat) (late : Bool) (d : Done) : State :=
  if d.deferred then d.st
  else
    let st := if d.status = .ok ∧ late then .late else d.status
    (d.st.badDesc h opcode st).complete h opcode st d.st.time.ts d.st.time.bdt d.r0 d.r1 d.r2 d.force

/-- The lateness of a timed command whose commit would fall in the tick in force, k+2 (R62). -/
def lateness (s : State) (h : Hdr) : Int := tsDiff s.time.ts h.target

/-- Where a command stands by its TIMED flag and late policy (R62 to R65): it commits now, it commits now as LATE, it
has expired, it waits in the pending store for its target, or its target is too far away. -/
inductive When where
  | now | nowLate | expired | later | tooFar
  deriving DecidableEq, BEq, Repr

/-- R62, R63, R65 for a command whose untimed commit boundary would be the one in force. -/
def whenOf (s : State) (h : Hdr) : When :=
  if !h.timed then .now
  else
    let l := lateness s h
    if l = 0 then .now
    else if l < 0 then (if -l > 2 ^ 30 then .tooFar else .later)
    else match h.late with
      | 0 => .nowLate
      | 1 => .expired
      | _ => if l ≤ s.lateWin (ringOf h) then .nowLate else .expired

/-- Entries of the pending store (R65). -/
abbrev pendMax : Nat := 8192

/-- The opcode of a payload (Table HR-10). -/
def opcodeOf : Cmd → Nat
  | .clockLeader _ => 0x0101 | .houseRate _ => 0x0102 | .timeWallSet _ => 0x0103 | .perfLevel _ => 0x0201
  | .sleep _ => 0x0202 | .ainSet _ => 0x0301 | .pdmSet _ => 0x0302 | .aoutSet _ => 0x0311
  | .spkSet _ => 0x0401 | .spkMeas _ => 0x0402 | .spkWatch _ => 0x0403 | .routeSet _ => 0x0501
  | .thkSwap _ => 0x0502 | .thkFader _ => 0x0503 | .toneSet _ => 0x0504 | .trailCommit _ => 0x0511
  | .fxCommit _ => 0x0601 | .clipCommit _ => 0x0611 | .clipStart _ => 0x0612 | .clipCtrl _ => 0x0613
  | .loopSet _ => 0x0621 | .loopCommit _ => 0x0622 | .blkLoad _ => 0x0701 | .blkUnload _ => 0x0702
  | .blkFill _ => 0x0703 | .sapSet _ => 0x0801 | .groveSet _ => 0x0811 | .groveStart _ => 0x0812
  | .groveStop _ => 0x0813 | .streamCtrl _ => 0x0901 | .netSync _ => 0x0902 | .ntxFrame _ => 0x0910
  | .nrxBuf _ => 0x0911 | .nop => 0x0A01 | .hpbData _ => 0x0A10 | .hcpData _ => 0x0A11
  | .listenSet _ => 0x0C01 | .listenWait _ => 0x0C02 | .prerollRead _ => 0x0C03 | .blzMark _ => 0x0D01
  | .fwActivate _ => 0x0E01 | .firebreakCtrl _ => 0x0E02 | .keyLoad _ => 0x0F01 | .keyClear _ => 0x0F02
  | .attest _ => 0x0F03 | .configLoad _ => 0x0F04 | .debugUnlock _ => 0x0F05 | .undefined n => n

/-- Header and ring checks of R328 (check 1): a reserved bit, policy 0b11, an opcode the ring's type does not accept. -/
def headerOk (s : State) (h : Hdr) (types : List Nat) : Bool :=
  !h.rsv && h.late != 3 && types.contains (s.ringType (ringOf h)) && !(h.chain && s.ringType (ringOf h) != 0)

/-- Counts a command refused for want of a pending entry; CLK_PEND_FULL reports the tick's refusals of its ring (R65). -/
def State.countFull (s : State) (ring : Nat) : State :=
  { s with host := { s.host with fullCnt := smSet s.host.fullCnt ring (smGet s.host.fullCnt ring 0 + 1) } }

/-- Puts a timed command into the pending store (R65): BUSY when it is full. -/
def State.enterPend (s : State) (h : Hdr) (c : Cmd) (opcode : Nat) : State :=
  if pendMax ≤ s.host.pend.length then (s.rejectStaged h opcode .busy).countFull (ringOf h)
  else { s with host := { s.host with pend := s.host.pend ++ [⟨h, c, s.time.ts - 2, s.host.grp, false⟩], grp := s.host.grp + 1 } }

/-- The effect, if admission takes it (R17, R358): else BUDGET. -/
def State.admitted (s : State) (h : Hdr) (opcode : Nat) (late : Bool) (d : Done) : State :=
  match admitCheck s d.st with
  | none => State.finish h opcode late d
  | some e => (s.budReject h opcode e d.st).rejectStaged h opcode .budget

/-- One command of a CMD ring, taken at its commit boundary, the tick in force: the checks of R328 in order, the late
policy, then the effect. `refusal` is check 5 (`.ok` when it passes); `eff` is the effect; `onRefuse` is what a refusal
by check 5 leaves beside its write-back. -/
def State.runCmd (s : State) (h : Hdr) (c : Cmd) (opcode : Nat) (valid hostOk : Bool) (refusal : Status) (eff : State → Done)
    (onRefuse : Status → State → State := fun _ s => s) : State :=
  if !(headerOk s h [0] && valid) then s.rejectStaged h opcode .invalid
  else if !hostOk then s.rejectStaged h opcode .denied
  else if s.flt.fire && opcode != 0x0A01 && opcode != 0x0D01 && opcode != 0x0E02 && whenOf s h != .tooFar && whenOf s h != .expired then
    s.rejectStaged h opcode .denied     -- Firebreak (Table FT-3)
  else match whenOf s h with
    | .tooFar => s.rejectStaged h opcode .invalid
    | .expired => s.rejectStaged h opcode .expired
    | .later => s.enterPend h c opcode
    | .now => if refusal = .ok then s.admitted h opcode false (eff s) else onRefuse refusal (s.rejectState h c opcode refusal)
    | .nowLate => if refusal = .ok then s.admitted h opcode true (eff s) else onRefuse refusal (s.rejectState h c opcode refusal)

/-! ## Ramps -/

/-- A factor that stands still. -/
def facAt (v : Rat) : Factor := ⟨v, v, v, 0⟩
abbrev facOne : Factor := ⟨1, 1, 1, 0⟩
abbrev facZero : Factor := ⟨0, 0, 0, 0⟩

/-- Starts a linear ramp to a target over n ticks (R95, R113). -/
def facGo (f : Factor) (tgt : Rat) (n : Nat) : Factor := if n = 0 then facAt tgt else ⟨f.cur, f.cur, tgt, n⟩

/-- Is the ramp still running? -/
def facMoving (f : Factor) : Bool := decide (f.cur ≠ f.tgt)

/-- Advances a ramp by one of S equal parts of a tick: 1/S of its increment per tick, and exactly to its target at
the end (R95, R113, R134). -/
def facTickS (f : Factor) (S : Nat) : Factor :=
  let d := (f.tgt - f.c0) / ((f.n * S : Nat) : Rat)
  if f.n = 0 then { f with cur := f.tgt }
  else if f.c0 < f.tgt then { f with cur := if f.cur + d < f.tgt then f.cur + d else f.tgt }
  else { f with cur := if f.tgt < f.cur + d then f.cur + d else f.tgt }

/-- Advances a ramp by one tick. -/
def facTick (f : Factor) : Factor := facTickS f 1

/-- The ticks that a running ramp has still to go. -/
def facLeft (f : Factor) : Option Nat :=
  if f.cur = f.tgt then none else some ((f.tgt - f.cur) * (f.n : Rat) / (f.tgt - f.c0)).ceil.toNat

/-- The value of a factor at step j of a tick of S steps: the tick's increment in equal parts (R95, R113). -/
def facStep (f : Factor) (j S : Nat) : Rat := f.cur + ((facTick f).cur - f.cur) * (j : Rat) / (S : Rat)

/-- The value of R173 in tick T+i: c0 + (v − c0) × (i+1)/N, rounded to nearest, ties away from zero. -/
def r173 (c0 v : Int) (n i : Nat) : Int :=
  if n ≤ i + 1 then v else roundAway ((c0 : Rat) + ((v - c0 : Int) : Rat) * ((i + 1 : Nat) : Rat) / (n : Rat))

/-- A value in use that stands still. -/
def grAt (v : Int) : GRamp := ⟨v, v, v, v, 0, 0, false⟩

/-- A ramp of length n that starts at the boundary (or step) in force, from the value in use before it. -/
def grGo (c0 v : Int) (n : Nat) (slot : Bool) : GRamp := ⟨r173 c0 v n 0, c0, c0, v, n, 1, slot⟩

/-- Divides by 2^n, rounding to the nearest, ties away from zero. -/
def shrAway (x : Int) (n : Nat) : Int :=
  let m : Nat := 2 ^ n
  if 0 ≤ x then ((x.toNat + m / 2) / m : Nat) else -(((-x).toNat + m / 2) / m : Nat)

/-- A ramp of length n that starts at the next boundary. -/
def grNext (c0 v : Int) (n : Nat) : GRamp := ⟨c0, c0, c0, v, n, 0, false⟩

/-- The dip of an output after a state error (Table FT-1): to zero over 8 tk, then up over 32 tk. The count is 0 without
a dip and 1 in the tick of the error. -/
def dipTick (d : Nat) : Nat := if d = 0 ∨ 41 ≤ d then 0 else d + 1
def dipScale (d : Nat) (v : Int) : Int :=
  if d < 2 then v
  else if d < 10 then shrAway (v * (9 - d : Nat)) 3
  else shrAway (v * ((d - 9 : Nat) : Int)) 5

/-- Is the ramp over: has its last tick passed? -/
def grOver (r : GRamp) : Bool := decide (r.n ≤ r.i)

/-- One tick (or step) of a ramp. -/
def grTick (r : GRamp) : GRamp :=
  if grOver r then { r with cur := r.tgt, prev := r.tgt, n := 0, i := 0, slot := false }
  else { r with prev := r.cur, cur := r173 r.c0 r.tgt r.n r.i, i := r.i + 1 }

/-- Is a ramp running in this tick (or step)? -/
def grRuns (r : GRamp) : Bool := decide (0 < r.n)

/-- The ticks (or steps) that a running ramp has still to go. -/
def grLeft (r : GRamp) : Option Nat := if r.i < r.n then some (r.n - r.i) else none

/-- Q1.31 saturation as the Thicket and the selectors do it: 0x80000001 to 0x7FFFFFFF (R171, R183). -/
def satSym (x : Int) : Int := clampI (-(2 ^ 31 - 1)) (2 ^ 31 - 1) x

/-- A Q1.31 value rounded to nearest and saturated to n bits. -/
def roundTo (n : Nat) (v : Int) : Int := clampI (-(2 ^ (n - 1))) (2 ^ (n - 1) - 1) (shrAway v (32 - n))

/-- Q1.31 saturation. -/
def satQ31 (x : Int) : Int := clampI (-(2 ^ 31)) (2 ^ 31 - 1) x

/-- A sample times a factor, rounded to Q1.31. -/
def scaleQ31 (x : Int) (f : Rat) : Int := satQ31 (roundAway ((x : Rat) * f))

/-! ## Device DRAM (R239, R459) -/

/-- What an address that nothing has written reads as. The manual gives DRAM no contents after power-on. -/
abbrev memBlank : Byte := 0

/-- One byte. -/
def memGet (m : List Host.Cell) (a : Nat) : Byte :=
  match m with
  | [] => memBlank
  | (k, b) :: r => if k = a then b else if a < k then memBlank else memGet r a

/-- Stores one byte: the list stays rising and holds no entry equal to the blank byte. -/
def memPut (m : List Host.Cell) (a : Nat) (b : Byte) : List Host.Cell :=
  match m with
  | [] => if b = memBlank then [] else [(a, b)]
  | (k, v) :: r =>
    if a < k then (if b = memBlank then (k, v) :: r else (a, b) :: (k, v) :: r)
    else if a = k then (if b = memBlank then r else (a, b) :: r)
    else (k, v) :: memPut r a b

/-- Addresses strictly rising from a bound, no entry equal to the blank byte. -/
def memWfFrom (lo : Nat) (m : List Host.Cell) : Bool :=
  match m with
  | [] => true
  | (k, b) :: r => decide (lo ≤ k) && b != memBlank && memWfFrom (k + 1) r

/-- The canonical form. -/
def memWf (m : List Host.Cell) : Bool := memWfFrom 0 m

/-- n bytes from an address as a little-endian number (R9). -/
def memRead (m : List Host.Cell) (a : Nat) : Nat → Nat
  | 0 => 0
  | n + 1 => (memGet m a).toNat + 256 * memRead m (a + 1) n

/-- Stores n bytes of a number, little-endian. -/
def memWrite (m : List Host.Cell) (a v : Nat) : Nat → List Host.Cell
  | 0 => m
  | n + 1 => memWrite (memPut m a (BitVec.ofNat 8 v)) (a + 1) (v / 256) n

/-- Stores a list of bytes. -/
def memBytes (m : List Host.Cell) (a : Nat) (l : List Byte) : List Host.Cell :=
  match l with
  | [] => m
  | b :: r => memBytes (memPut m a b) (a + 1) r

/-- Usable DRAM bytes: 15/16 of the installed capacity of MEM_CFG, at most 8 GiB (R239, R459, R485); none while the
controller is off. -/
def State.dramSize (s : State) : Nat :=
  if bitN (s.rd Reg.MEM_STATUS).toNat 0 then
    min ((s.fld Fl.MEM_CFG.DENSITY + 1) * (s.fld Fl.MEM_CFG.RANKS + 1)) 8 * 2 ^ 30 / 16 * 15
  else 0

/-- A region that obeys R239: aligned base, wholly inside the usable range. -/
def State.regionOk (s : State) (base len align : Nat) : Bool :=
  base % align == 0 && decide (base + len ≤ s.dramSize)

def overlap (a n b m : Nat) : Bool := decide (a < b + m) && decide (b < a + n) && decide (0 < n) && decide (0 < m)

/-- The regions that the device reserves for itself: the saved copy of Clearing and the dump (R408, R477). -/
def State.reserved (s : State) : List (Nat × Nat) :=
  (if s.flag Fl.PWR_SAVE_BASE_LO.VALID then
      [((s.rd Reg.PWR_SAVE_BASE_HI).toNat * 2 ^ 32 + s.fld Fl.PWR_SAVE_BASE_LO.BASE * 2 ^ 22, 2 ^ 22)] else [])
    ++ (if s.flag Fl.FLT_DUMP_DRAM_LO.VALID then
      [((s.rd Reg.FLT_DUMP_DRAM_HI).toNat * 2 ^ 32 + s.fld Fl.FLT_DUMP_DRAM_LO.BASE * 2 ^ 12, 2 ^ 18)] else [])

def State.hitsReserved (s : State) (base len : Nat) : Bool := s.reserved.any (fun r => overlap base len r.1 r.2)

/-! ## The sample interchange (R14) -/

/-- What a read of a source returns in this tick; a source that nobody writes reads as zero (R15). -/
def State.src (s : State) (a : Nat) : Smp := smGet s.inter a ⟨0, 0⟩

/-- Writes a source into the half that the next tick reads. -/
def State.put (s : State) (a : Nat) (v : Smp) : State := { s with inter2 := smSet s.inter2 a v }

/-- Places a source by the boundary, into the half that this tick reads: adc, pdm and trail (R14). -/
def State.place (s : State) (a : Nat) (v : Smp) : State := { s with inter := smSet s.inter a v }

/-- A value that the manual leaves open: the next free value, and the state with its counter advanced. -/
def State.freeNat (s : State) : Nat × State := (Config.freeValue s.free, { s with free := s.free + 1 })

end Sys2Proof.Machine
end

