-- ==== Sys2Proof/Machine/Blaze.lean ====
section
/-! DEFINITION. The Blaze event recorder (chapter 15): records, the committer, the store, seals, releases, the read
window and the drain. -/
namespace Sys2Proof.Machine

/-- Slots of the on-chip store (R446). -/
abbrev blzSlots : Nat := 4096

/-- The signed distance of a sequence number from another (R448, R451). -/
def seqDiff (a b : Word) : Int := (a - b).toInt

/-! ## Records (Table BZ-1) -/

/-- Words 0 to 6 of a record. -/
def recBody (seq : Word) (e : Ev) : List Word :=
  [wN (e.code + 2 ^ 16 * (e.sev % 8 + 8 * wB e.coal + 16 * (e.epoch.toNat % 16)) + 2 ^ 24 * e.src), seq,
   e.dt.extractLsb' 0 32, e.dt.extractLsb' 32 32, e.p0, e.p1, if e.coal then wN (min e.cnt (2 ^ 32 - 1)) else e.p2]

/-- The eight words of a slot; the tail is the sequence number XOR 0xA5A5A5A5. -/
def recWords (r : Rec) : List Word := recBody r.seq r.ev ++ [r.seq ^^^ 0xA5A5A5A5]

/-- One bit of a reflected CRC over the Castagnoli polynomial. -/
def crcBit (c : Word) : Nat → Word
  | 0 => c
  | n + 1 => crcBit (if c.getLsbD 0 then (c >>> 1) ^^^ 0x82F63B78 else c >>> 1) n

/-- CRC-32C of words, as bytes in increasing address order (R452). -/
def crc32c (l : List Word) : Word := (l.foldl (fun c w => crcBit (c ^^^ w) 32) 0xFFFFFFFF) ^^^ 0xFFFFFFFF

/-- The eight words of a copy in an EVT ring. -/
def evtWords (r : Rec) : List Word := recBody r.seq r.ev ++ [crc32c (recBody r.seq r.ev)]

/-! ## The store -/

/-- Slots that hold no record. -/
def State.freeSlots (s : State) : List Nat := (List.range blzSlots).filter (fun n => !s.blz.store.any (fun r => r.slot == n))

/-- Inserts a record in sequence order. -/
def recInsert (l : List Rec) (x : Rec) : List Rec := match l with
  | [] => [x]
  | r :: t => if 0 < seqDiff r.seq x.seq then x :: r :: t else r :: recInsert t x

/-- The oldest record whose severity is strictly lower (rule 2 of R446). -/
def State.overwritable (s : State) (sev : Nat) : Option Rec := s.blz.store.find? (fun r => decide (r.ev.sev < sev))

/-- Counts a record overwritten before the drain reached it (R454). -/
def State.evtLost (s : State) (r : Rec) (dt : DT) : State :=
  if s.blz.everRun ∧ 0 ≤ seqDiff r.seq s.blz.pos then
    (s.bump Reg.BLZ_EVT_LOST).logLim Src.BLZ 0xD006 3 0 1 1 dt r.seq 0 0
  else s

/-- A record at or above ALERT_SEV sets TWB_ALERT.LOG (R381). -/
def State.logAlert (s : State) (e : Ev) : State :=
  if s.fld Fl.TWB_CTRL.ALERT_SEV ≤ e.sev then s.alertSet Fl.TWB_ALERT.LOG else s

/-- Places a record by R446: in a free slot (which one, the manual leaves open), over the oldest record of a lower
severity, or nowhere. -/
def State.placeRec (s : State) (seq : Word) (e : Ev) (dt : DT) : Option State :=
  let free := s.freeSlots
  match free with
  | f0 :: _ =>
    let n := free.getD (Config.freeValue s.free % free.length) f0
    some (({ s with free := s.free + 1, blz := { s.blz with store := recInsert s.blz.store ⟨n, seq, e⟩ } } : State).logAlert e)
  | [] => match s.overwritable e.sev with
    | some r =>
      let rest := s.blz.store.erase r
      some (({ s with blz := { s.blz with store := recInsert rest ⟨r.slot, seq, e⟩ } }.evtLost r dt).logAlert e)
    | none => none

/-- Takes the next sequence number for a record that is placed, and counts it toward the SEAL (R442, R455). -/
def State.committed (s : State) (seq : Word) (e : Ev) (dt : DT) : State :=
  let span := s.blz.span ++ [Rec.mk 0 seq e]
  if span.length < 64 then { s with blz := { s.blz with seqNext := seq + 1, span := span } }
  else { s with blz := { s.blz with
    seqNext := seq + 2, span := [], seals := s.blz.seals ++ [SealDue.mk (seq + 1) dt s.time.epoch span] } }

/-- The record that the pending DROP summary makes (R447, Table BZ-3). -/
def dropEv (d : DropSum) : Ev :=
  ⟨Src.BLZ, 0xD001, d.top, d.dt, d.epoch, wN (min d.count (2 ^ 32 - 1)), wN d.mask, wN (min d.stage (2 ^ 32 - 1)), false, 1⟩

/-- Is the head of queue a earlier than that of queue b: by DT, then by source ID (R443)? -/
def headBefore (a b : Nat × Ev) : Bool :=
  if a.2.dt = b.2.dt then decide (a.1 < b.1) else decide (a.2.dt.toNat < b.2.dt.toNat)

/-- The queue whose head the committer takes. -/
def State.nextQueue (s : State) : Option (Nat × Ev) :=
  (s.blz.queues.filterMap (fun q => q.2.head?.map (fun e => (q.1, e)))).foldl (fun a q => match a with
    | none => some q
    | some b => if headBefore q b then some q else some b) none

/-- A record that R446 cannot place is dropped; its number is withdrawn. -/
def State.commitOne (s : State) (e : Ev) (dt : DT) : State := match s.placeRec s.blz.seqNext e dt with
  | some t => t.committed s.blz.seqNext e dt
  | none => s.countDrop e false

/-- BLZ_BOOT first after a reset, the pending DROP summary as soon as it can be placed, else the earliest staged entry
(R443, R447, R456). Nothing commits before a SEAL that a reset left to be written (R455). -/
def State.blzStep (s : State) (dt : DT) : State :=
  if s.blz.sealFirst ∧ s.blz.seals ≠ [] then s
  else match s.blz.boot with
  | some e => { s with blz := { s.blz with boot := none } }.commitOne e dt
  | none =>
    let staged := match s.nextQueue with
      | some (src, e) =>
        ({ s with blz := { s.blz with queues := smUpd s.blz.queues src [] List.tail } }).commitOne e dt
      | none => s
    match s.blz.drop with
    | some d => match ({ s with blz := { s.blz with drop := none } } : State).placeRec s.blz.seqNext (dropEv d) dt with
      | some t => t.committed s.blz.seqNext (dropEv d) dt
      | none => staged
    | none => staged

def execBlzCommit (dt : DT) (s : State) : Host.Outcome State Fault Refusal := .next ((s.advance dt).blzStep dt)

/-- Heartwood completes the chain value of the oldest SEAL that is due (R455), while it runs. -/
def execBlzSealWrite (dt : DT) (s : State) : Host.Outcome State Fault Refusal :=
  let s := s.advance dt
  match s.blz.seals, s.hwd.devKeys with
  | [], _ => .next s
  | _, none => .next s
  | x :: rest, some keys =>
    let e0 : Ev := ⟨Src.BLZ, 0xD002, 2, x.dt, x.epoch, 0, 0, 0, false, 1⟩
    let head := (recBody x.seq e0).take 4
    let c := sealChain keys.sealing (s.blz.prevSeal.extractLsb' 0 96) (x.span.map (fun r => recBody r.seq r.ev)) head
    let e : Ev := { e0 with p0 := c.extractLsb' 0 32, p1 := c.extractLsb' 32 32, p2 := c.extractLsb' 64 32 }
    let s := { s with blz := { s.blz with seals := rest, prevSeal := c, sealSeq := x.seq, sealFirst := s.blz.sealFirst && !rest.isEmpty } }
    .next (match s.placeRec x.seq e dt with
      | some t => t
      | none => s.countDrop e false)

/-- BLZ_MARK (R457): the record is staged at the commit boundary, under its DT. -/
def blzMarkEffect (p : BlzMarkP) (s : State) : Done := okDone (s.logAt Src.HST 0xD005 p.sev s.time.bdt p.p0 p.p1 p.p2)

def execBlzMark (h : Hdr) (p : BlzMarkP) (s : State) : Host.Outcome State Fault Refusal :=
  .next (s.runCmd h (.blzMark p) 0x0D01 (decide (p.sev ≤ 4)) true .ok (blzMarkEffect p))

/-- A second of the limiter of R561 ends. -/
def execRateLimitSecondEnd (code key : Nat) (dt : DT) (s : State) : Host.Outcome State Fault Refusal :=
  .next ((s.advance dt).limEnd code key dt)

/-! ## Releases and the window -/

/-- Has the drain delivered a record? -/
def State.delivered (s : State) (r : Rec) : Bool := s.blz.everRun && decide (seqDiff r.seq s.blz.pos < 0)

/-- A write to BLZ_RELEASE (R448). -/
def State.blzFree (s : State) (seq : Word) : State :=
  let gone (r : Rec) : Bool := decide (0 ≤ seqDiff seq r.seq) && (s.delivered r || !s.flag Fl.BLZ_CTRL.DRAIN_EN)
    && (r.ev.sev != 6 || s.flag Fl.BLZ_CTRL.REL_FATAL)
  { s with blz := { s.blz with store := s.blz.store.filter (fun r => !gone r) } }

/-- The earliest record at or after a sequence number. -/
def State.recFrom (s : State) (seq : Word) : Option Rec := s.blz.store.find? (fun r => decide (0 ≤ seqDiff r.seq seq))

/-- A write to BLZ_WIN_SEQ (R451). -/
def State.blzSelect (s : State) (seq : Word) : State :=
  let s := s.wr Reg.BLZ_WIN_SEQ seq
  { s with blz := { s.blz with win := (s.recFrom seq).map (fun r => (r.slot, r.seq == seq)) } }

/-- Word i of the window: the slot's as it stands; a slot that has been released since holds nothing that the manual
states. -/
def State.blzWinWord (s : State) (i : Nat) : Word := match s.blz.win with
  | none => 0
  | some (n, _) => match s.blz.store.find? (fun r => r.slot == n) with
    | some r => (recWords r).getD i 0
    | none => Config.windowOpen s.free i

def State.blzWinStat (s : State) : Word := match s.blz.win with
  | none => wN (2 ^ 30)
  | some (n, exact_) => wN (2 ^ 31 * wB exact_ + n)

def State.blzOldest (s : State) : Word := match s.blz.store with
  | [] => s.blz.seqNext
  | r :: _ => r.seq

def State.blzStatus (s : State) : Word :=
  wN (2 ^ 31 * wB s.blz.err + 2 ^ 30 * wB s.blz.drop.isSome + 2 ^ 29 * wB s.blz.run + s.blz.store.length)

/-! ## The drain -/

/-- Is a ring an enabled EVT ring? -/
def State.evtOk (s : State) (n : Nat) : Bool := (s.ring n).state == .running && s.ringType n == 6

/-- A write to BLZ_CTRL (R453). -/
def State.drainSet (s : State) (v : Word) : State :=
  if bitN v.toNat 31 then
    let ring := bitsOf v 24 6
    if s.evtOk ring then
      let s := s.wr Reg.BLZ_CTRL (v &&& 0xFF000000)
      let pos := if s.blz.everRun then
          (match s.blz.store with
           | [] => s.blz.pos
           | r :: _ => if seqDiff s.blz.pos r.seq < 0 then r.seq else s.blz.pos)
        else s.blzOldest
      { s with blz := { s.blz with run := true, err := false, everRun := true, pos := pos } }
    else { s with blz := { s.blz with err := true } }
  else { (s.wr Reg.BLZ_CTRL (v &&& 0xFF000000)) with blz := { s.blz with run := false } }

/-- Copies at most n records (R452). -/
def State.drainN (s : State) (ring : Nat) : Nat → State
  | 0 => s
  | n + 1 => match s.recFrom s.blz.pos with
    | none => s
    | some r =>
      let stop := match s.blz.seals with
        | x :: _ => decide (seqDiff x.seq r.seq ≤ 0) && decide (0 ≤ seqDiff x.seq s.blz.pos)
        | [] => false
      let a := s.slotAddr ring (s.ring ring).didx
      if stop then s
      else if !s.dmaAllowed a 32 true then (s.winViol ring a).ringErr ring 3
      else
        let s := s.updRing ring (fun x => { x with didx := (x.didx + 1) % 65536, wrote := true })
        { s with blz := { s.blz with evt := (ring, r) :: s.blz.evt, pos := r.seq + 1 } }.drainN ring n

/-- Phase 9 of a real tick (R452). -/
def State.drain (s : State) : State :=
  let ring := s.fld Fl.BLZ_CTRL.EVT_RING
  if !s.blz.run then s
  else if !s.evtOk ring then s.drainBreak ring
  else if !s.dmaOn then s
  else
    let r := s.ring ring
    let held := (r.didx + 65536 - r.hidx) % 65536
    s.drainN ring (s.ringSize ring - held)

end Sys2Proof.Machine
end

