-- ==== Sys2Proof/Machine/Ain.lean ====
section
/-! DEFINITION. Analog inputs and PDM channels (chapter 3): configuration checks, AIN_SET and PDM_SET, gain moves,
front-end and filter sequences, mic bias, stuck PDM data, modulator resets, input jacks, level processing. -/
namespace Sys2Proof.Machine

abbrev DcSt.zero : DcSt := ⟨0, 0⟩
abbrev AinCh.init : AinCh :=
  ⟨0, 0, false, none, facZero, facOne, facOne, facOne, none, 0, false, facZero, .zero, .zero, none, none, none, false⟩
abbrev PdmCh.init : PdmCh := ⟨facZero, facOne, facZero, facOne, none, none, .zero, .zero⟩

def State.ainCh (s : State) (n : Nat) : AinCh := smGet s.ain.ch n AinCh.init
def State.setAin (s : State) (n : Nat) (c : AinCh) : State := { s with ain := { s.ain with ch := smSet s.ain.ch n c } }
def State.pdmCh (s : State) (n : Nat) : PdmCh := smGet s.ain.pdm n PdmCh.init
def State.setPdm (s : State) (n : Nat) (c : PdmCh) : State := { s with ain := { s.ain with pdm := smSet s.ain.pdm n c } }

/-! ## Configuration images -/

/-- Fields of AIN_CFGn and AIN_PDMCHn, read from an image. -/
def cfgEn (w : Word) : Bool := bitN w.toNat 31
def cfgMute (w : Word) : Bool := bitN w.toNat 29
def cfgLink (w : Word) : Bool := bitN w.toNat 28
def cfgFilt (w : Word) : Nat := bitsOf w 26 2
def cfgDc (w : Word) : Nat := bitsOf w 23 3
def cfgSoft (w : Word) : Nat := bitsOf w 21 2
def cfgBias (w : Word) : Nat := bitsOf w 16 5
def cfgGain (w : Word) : Nat := bitsOf w 8 8
def cfgMode (w : Word) : Nat := bitsOf w 0 2

/-- Largest GAIN code of a mode (Table AI-1, Table AI-2). -/
def gainMax (mode : Nat) : Nat := match mode with
  | 0 => 120 | 1 => 48 | 2 => 60 | _ => 5

/-- A configuration that AIN_SET accepts for input n (R76, R81, R83, R84, R94, field ranges). -/
def ainCfgOk (n : Nat) (w : Word) : Bool :=
  let m := cfgMode w
  let common := cfgFilt w ≤ 1 && cfgDc w ≤ 4 && cfgGain w ≤ gainMax m
  if n < 8 then
    common && m != 3 && (cfgBias w == 0 || m == 0) && (!cfgLink w || (n == 7 && m == 0))
  else common && m == 3 && cfgBias w == 0 && !cfgLink w

/-- Reserved bits of the AIN_CFGn layout: 30 and 7..2. -/
def ainReserved (w : Word) : Bool := bitN w.toNat 30 || bitsOf w 2 6 != 0

/-- Reserved bits of the AIN_PDMCHn layout: 30, 28 and 20..0. -/
def pdmReserved (w : Word) : Bool := bitN w.toNat 30 || bitN w.toNat 28 || bitsOf w 0 21 != 0

def pdmCfgOk (w : Word) : Bool := cfgFilt w ≤ 1 && cfgDc w ≤ 4

/-- Takes a field of width w at bit lo from `new` when mask bit i selects it. -/
def takeFld (mask : BitVec 16) (i lo w : Nat) (old new : Word) : Word :=
  if bitN mask.toNat i then withBits old lo w (bitsOf new lo w) else old

/-- The configuration that results from the selected fields (R103). -/
def mergeAin (mask : BitVec 16) (old img : Word) : Word :=
  let w := takeFld mask 0 0 2 old img
  let w := takeFld mask 1 8 8 w img
  let w := takeFld mask 2 16 5 w img
  let w := takeFld mask 3 21 2 w img
  let w := takeFld mask 4 23 3 w img
  let w := takeFld mask 5 26 2 w img
  let w := takeFld mask 6 29 1 w img
  let w := takeFld mask 7 28 1 w img
  takeFld mask 8 31 1 w img

/-- The settle length N in ticks: 4,096 steps (R98). -/
def settleTk (rate : Nat) : Nat := 4096 / stepsPerTk rate

/-- The set level of a bias code in mV: 2.0 V + (c − 1) × 0.1 V, 0 for off (R81). A disabled input powers no bias (DESIGN
CHOICE, log entry 142). -/
def biasMv (w : Word) : Nat := if cfgEn w && cfgBias w != 0 then 2000 + (cfgBias w - 1) * 100 else 0

/-- The bias moves to the level of the front end's configuration over 3,072 steps (Table AI-8), unless its limit has
turned it off (R82). -/
def biasGo (c : AinCh) (rate : Nat) : AinCh :=
  { c with bias := facGo c.bias (if c.off then 0 else (biasMv c.analog : Rat)) (3072 / stepsPerTk rate) }

/-- AIN_STATUS.BIAS_ON: the bias is within 2 % of its set level, and neither limited nor turned off. -/
def biasOn (c : AinCh) : Bool :=
  let m : Rat := (biasMv c.analog : Rat)
  decide (biasMv c.analog ≠ 0) && !c.off && c.lim.isNone && decide (m * 98 / 100 ≤ c.bias.cur) && decide (c.bias.cur ≤ m * 102 / 100)

/-- A level factor moves towards one or zero with MUTE (R95). -/
def muteGo (f : Factor) (was is : Bool) (n : Nat) : Factor :=
  if was = is then f else facGo f (if is then 0 else 1) n

/-- Does a change of configuration switch the analog circuit (R98): MODE, BIAS, HS_LINK or EN? -/
def feChanged (old new : Word) : Bool :=
  cfgMode old != cfgMode new || cfgBias old != cfgBias new || cfgLink old != cfgLink new || cfgEn old != cfgEn new

/-! ## AIN_SET and PDM_SET -/

/-- Payload checks of AIN_SET (R76, R81, R83, R84, R103). -/
def ainSetValid (s : State) (p : CfgSetP) : Bool :=
  decide (p.chan < 10) && decide (p.mask.toNat < 512) && !ainReserved p.image
    && ainCfgOk p.chan (mergeAin p.mask (s.rd (Reg.AIN_CFG p.chan)) p.image)

/-- Is a source address the listening source while listening is enabled (R418)? -/
def State.lsnClaims (s : State) (addr : Nat) : Bool := s.flag Fl.WAK_LSN_CTRL.EN && s.fld Fl.WAK_LSN_CTRL.SRC == addr

/-- CONFLICT for clearing EN of the listening source (R418); BUSY while a sequence runs on the input (R100), and for a
change of HS_LINK while an identification on jack 1 runs (R534). CONFLICT is judged before BUSY (DESIGN CHOICE, log entry
140). -/
def ainSetRefusal (s : State) (p : CfgSetP) : Status :=
  if s.lsnClaims p.chan && cfgEn (s.rd (Reg.AIN_CFG p.chan)) && bitN p.mask.toNat 8 && !cfgEn p.image then .conflict
  else if (s.ainCh p.chan).seq.isSome then .busy
  else if p.chan == 7 && s.aout.hp1.phase == .identified && bitN p.mask.toNat 7
      && cfgLink p.image != cfgLink (s.rd (Reg.AIN_CFG 7)) then .busy
  else .ok

/-- The fault factor of an input that returns to one over 32 tk, unless its bias has been turned off (R82) or identification
on jack 1 holds AIN7 at zero (R121). -/
def State.faultUp (s : State) (n : Nat) (c : AinCh) : Factor :=
  if c.off || (n == 7 && s.aout.hold7) then c.fault else facGo c.fault 1 32

/-- AIN_SET at its commit boundary (R79, R80, R82, R95, R98 to R100, R103). -/
def ainSetEffect (p : CfgSetP) (s : State) : Done :=
  let n := p.chan
  let old := s.rd (Reg.AIN_CFG n)
  let new := mergeAin p.mask old p.image
  let c := s.ainCh n
  let t := s.time.ts
  let s := s.wr (Reg.AIN_CFG n) new
  let c := { c with mute := muteGo c.mute (cfgMute old) (cfgMute new) 32 }
  let biasSel := bitN p.mask.toNat 2
  -- bias turned off by its limit returns with an AIN_SET whose mask has BIAS (R82)
  let back := c.off && biasSel
  let c := if back then { c with off := false, lim := none } else c
  let N := settleTk s.clk.rate
  if !cfgEn old && !cfgEn new then
    ⟨s.setAin n { c with analog := new, gain := cfgGain new, steps := 0, due := false }, .ok, new, t, 0, false, false⟩
  else if feChanged old new then
    let c := { c with fault := facGo c.fault 0 32, seq := some ⟨true, t, old, false⟩ }
    let full := if cfgEn new then t + BitVec.ofNat 32 (64 + N) else t + 32
    ⟨(s.setAin n c).logAt Src.AIN 0x3008 1 s.time.bdt (wN n) old new, .ok, new, full, 0, false, false⟩
  else
    let c := if back then biasGo { c with fault := s.faultUp n c, analog := new } s.clk.rate else c
    let c := { c with analog := new, steps := if c.gain = cfgGain old then 0 else c.steps }
    if cfgFilt old != cfgFilt new then
      let c := { c with filt := facGo c.filt 0 32, seq := some ⟨false, t, old, false⟩ }
      ⟨s.setAin n c, .ok, new, t + 96, 0, false, false⟩
    else ⟨s.setAin n c, .ok, new, t, 0, false, false⟩

def execAinSet (h : Hdr) (p : CfgSetP) (s : State) : Host.Outcome State Fault Refusal :=
  .next (s.runCmd h (.ainSet p) 0x0301 (ainSetValid s p) true (ainSetRefusal s p) (ainSetEffect p))

/-- The configuration that results from PDM_SET's selected fields (R104). -/
def mergePdm (mask : BitVec 16) (old img : Word) : Word :=
  let w := takeFld mask 3 21 2 old img
  let w := takeFld mask 4 23 3 w img
  let w := takeFld mask 5 26 2 w img
  let w := takeFld mask 6 29 1 w img
  takeFld mask 8 31 1 w img

/-- PDM_SET's mask bits are 3, 4, 5, 6 and 8 (R104). -/
def pdmSetValid (s : State) (p : CfgSetP) : Bool :=
  decide (p.chan < 8) && Nat.land p.mask.toNat 0x178 == p.mask.toNat && !pdmReserved p.image
    && pdmCfgOk (mergePdm p.mask (s.rd (Reg.AIN_PDMCH p.chan)) p.image)

/-- BUSY while a filter change runs (R99, R100 by R104). -/
def pdmSetRefusal (s : State) (p : CfgSetP) : Status :=
  if s.lsnClaims (1024 + p.chan) && cfgEn (s.rd (Reg.AIN_PDMCH p.chan)) && bitN p.mask.toNat 8 && !cfgEn p.image then .conflict
  else if (s.pdmCh p.chan).seq.isSome then .busy
  else .ok

/-- PDM_SET at its commit boundary (R95, R99, R104). A change of EN alone reports T+32, the end of its ramp, also for a
disable (DESIGN CHOICE, log entry 141). -/
def pdmSetEffect (p : CfgSetP) (s : State) : Done :=
  let n := p.chan
  let old := s.rd (Reg.AIN_PDMCH n)
  let new := mergePdm p.mask old p.image
  let c := s.pdmCh n
  let t := s.time.ts
  let s := s.wr (Reg.AIN_PDMCH n) new
  let c := { c with mute := muteGo c.mute (cfgMute old) (cfgMute new) 32,
                    en := muteGo c.en (!cfgEn old) (!cfgEn new) 32 }
  let full := if cfgEn old != cfgEn new then t + 32 else t
  if cfgFilt old != cfgFilt new && cfgEn new then
    ⟨s.setPdm n { c with filt := facGo c.filt 0 32, seq := some ⟨false, t, old, false⟩ }, .ok, new, t + 96, 0, false, false⟩
  else ⟨s.setPdm n c, .ok, new, full, 0, false, false⟩

def execPdmSet (h : Hdr) (p : CfgSetP) (s : State) : Host.Outcome State Fault Refusal :=
  .next (s.runCmd h (.pdmSet p) 0x0302 (pdmSetValid s p) true (pdmSetRefusal s p) (pdmSetEffect p))

/-! ## Events of the inputs -/

/-- The gain code that the preamp moves to: the one in force in the analog circuit's configuration. -/
def ainGainTarget (c : AinCh) : Nat := cfgGain c.analog

/-- One increment towards the target, when a step boundary has called for it (R79). -/
def gainIncrement (c : AinCh) : AinCh :=
  let g := ainGainTarget c
  if !c.due then c
  else { c with due := false, gain := if c.gain < g then c.gain + 1 else if g < c.gain then c.gain - 1 else c.gain }

/-- GAIN_MOVE_INCREMENT: the increment that the last step boundary called for is applied (R79, R80, R84). -/
def execGainMoveIncrement (n : Nat) (s : State) : Host.Outcome State Fault Refusal :=
  .next (s.setAin n (gainIncrement (s.ainCh n)))

/-- A step boundary's check of a gain move (R79): an increment still to be applied comes first; then one is called for at
a change of the sign bit since the previous step, or at the 16th step without one. `x` is the Trail-tap decimator output
before level processing. -/
def gainStep (c : AinCh) (x : Int) : AinCh :=
  let c := gainIncrement c
  let neg := decide (x < 0)
  let c' := { c with sign := some neg, steps := c.steps + 1 }
  if c.gain = ainGainTarget c then { c' with steps := 0 }
  else if (c.sign.isSome && c.sign != some neg) || 16 ≤ c.steps + 1 then { c' with due := true, steps := 0 }
  else c'

/-- Is clip detection suspended: from T+32 to T+31+N of a front-end sequence (Table AI-8)? -/
def State.clipHeld (s : State) (c : AinCh) : Bool := match c.seq with
  | some q => q.fe && decide (0 ≤ tsDiff s.time.ts (q.t + 32))
      && !decide (0 ≤ tsDiff s.time.ts (q.t + BitVec.ofNat 32 (32 + settleTk s.clk.rate)))
  | none => false

/-- AIN_FE_SWITCH at T+32 (Table AI-8): the new configuration switches in, filter states clear, the bias starts to move; a
command that only disables ends here. -/
def execAinFeSwitch (n : Nat) (s : State) : Host.Outcome State Fault Refusal :=
  let c := s.ainCh n
  match c.seq with
  | some q =>
    if q.fe && !q.switched && decide (0 ≤ tsDiff s.time.ts (q.t + 32)) then
      let new := s.rd (Reg.AIN_CFG n)
      let s := if s.lsnClaims n && cfgEn new then
        { s with lsn := { s.lsn with gaps := (s.time.bdt, none) :: s.lsn.gaps } } else s
      let c := biasGo { c with analog := new, gain := cfgGain new, steps := 0, due := false, sign := none, fault := facZero,
                               dcThk := .zero, dcTrl := .zero } s.clk.rate
      .next (s.setAin n (if cfgEn new then { c with seq := some { q with switched := true }, noClip := true }
                         else { c with seq := none }))
    else .next s
  | none => .next s

/-- The zeros of the listening source end (R418). -/
def State.gapEnd (s : State) (n : Nat) : State := match s.lsn.gaps with
  | (a, none) :: l => if s.lsnClaims n then { s with lsn := { s.lsn with gaps := (a, some s.time.bdt) :: l } } else s
  | _ => s

/-- AIN_FE_SETTLED at T+32+N (Table AI-8): the fault factor ramps up over 32 tk and clip detection resumes. -/
def execAinFeSettled (n : Nat) (s : State) : Host.Outcome State Fault Refusal :=
  let c := s.ainCh n
  match c.seq with
  | some q =>
    if q.fe && q.switched && c.noClip
        && decide (0 ≤ tsDiff s.time.ts (q.t + BitVec.ofNat 32 (32 + settleTk s.clk.rate))) then
      .next ((s.gapEnd n).setAin n { c with fault := s.faultUp n c, noClip := false })
    else .next s
  | none => .next s

/-- AIN_FILT_SWITCH at T+32 of a filter change (R99): the Thicket-tap filter switches and its state clears; the tap
stays at zero until its ramp up starts at T+64. -/
def execAinFiltSwitch (pdm : Bool) (n : Nat) (s : State) : Host.Outcome State Fault Refusal :=
  if pdm then
    let c := s.pdmCh n
    match c.seq with
    | some q => if !q.switched && decide (0 ≤ tsDiff s.time.ts (q.t + 32)) then
        .next (s.setPdm n { c with seq := some { q with switched := true }, filt := facZero }) else .next s
    | none => .next s
  else
    let c := s.ainCh n
    match c.seq with
    | some q => if !q.fe && !q.switched && decide (0 ≤ tsDiff s.time.ts (q.t + 32)) then
        .next (s.setAin n { c with seq := some { q with switched := true }, filt := facZero }) else .next s
    | none => .next s

/-- Sets one bit of a W1C or flag register, and says whether it was clear. -/
def State.setBit (s : State) (off i : Nat) : State := s.wr off (wN (Nat.lor (s.rd off).toNat (2 ^ i)))
def State.bit (s : State) (off i : Nat) : Bool := bitN (s.rd off).toNat i

/-- BIAS_LIMIT (R82, R106): the load exceeds 10 mA; the flag sets, and is logged when it was clear. Cleared by
the host while the limit holds, it stays clear until the limit begins anew (DESIGN CHOICE, log entry 138). -/
def execBiasLimit (n : Nat) (dt : DT) (s : State) : Host.Outcome State Fault Refusal :=
  let s := s.advance dt
  if n < 8 ∧ cfgBias (s.ainCh n).analog ≠ 0 ∧ (s.ainCh n).off = false ∧ (s.ainCh n).lim = none then
    let was := s.bit Reg.AIN_FAULT (8 + n)
    let s := (s.setBit Reg.AIN_FAULT (8 + n)).setAin n { s.ainCh n with lim := some dt }
    .next (if was then s else s.logAt Src.AIN 0x3003 3 dt (wN n) (wN (cfgBias (s.ainCh n).analog)) 0)
  else .next s

/-- BIAS_LIMIT_END (R82): the load falls back, and the 100 ms run breaks; the output returns to its level. -/
def execBiasLimitEnd (n : Nat) (dt : DT) (s : State) : Host.Outcome State Fault Refusal :=
  let s := s.advance dt
  .next (s.setAin n { s.ainCh n with lim := none })

/-- BIAS_OFF (R82): the limit has held without a break for 100 ms: the bias turns off, both taps go to zero through
the fault factor, and the record is logged. The rule states no length for this ramp; it is the 32 tk of R95 (log
entry 20). -/
def execBiasOff (n : Nat) (dt : DT) (s : State) : Host.Outcome State Fault Refusal :=
  let s := s.advance dt
  match (s.ainCh n).lim with
  | some t0 =>
    if t0.toNat + 100000000 ≤ dt.toNat then
      let c := s.ainCh n
      let s := (s.setBit Reg.AIN_FAULT (16 + n)).setAin n { c with off := true, lim := none, bias := facZero, fault := facGo c.fault 0 32 }
      .next (s.logAt Src.AIN 0x3004 4 dt (wN n) (wN (cfgBias c.analog)) 0)
    else .next s
  | none => .next s

/-- The RATE code of the port of a PDM channel (Table AI-3). -/
def State.pdmRate (s : State) (port : Nat) : Nat := bitsOf (s.rd Reg.AIN_PDM_CFG) (2 * port) 2

/-- Is a RATE code allowed at a house rate (Table AI-3, R88)? -/
def pdmRateOk (code rate : Nat) : Bool := code != 3 || rate ≤ 1

/-- Has the port of a RATE code a Trail tap (Table AI-3)? -/
def pdmTrailTap (code : Nat) : Bool := code ≤ 1

/-- Does a port run its clock: is either of its channels enabled (R87)? -/
def State.pdmClocked (s : State) (port : Nat) : Bool :=
  cfgEn (s.rd (Reg.AIN_PDMCH (2 * port))) || cfgEn (s.rd (Reg.AIN_PDMCH (2 * port + 1)))

/-- PDM_STUCK (R89): the channel ramps to zero over 8 tk, the flag sets, the record is logged. -/
def execPdmStuck (n level : Nat) (dt : DT) (s : State) : Host.Outcome State Fault Refusal :=
  let s := s.advance dt
  let c := s.pdmCh n
  if n < 8 ∧ s.pdmClocked (n / 2) ∧ c.stuck = none then
    let s := (s.setBit Reg.AIN_FAULT (24 + n)).setPdm n { c with stuck := some level, fault := facGo c.fault 0 8 }
    .next (s.logAt Src.AIN 0x3007 3 dt (wN n) (wN level) 0)
  else .next s

/-- PDM_RECOVER (R89): the channel ramps up over 32 tk; the flag stays until it is cleared. -/
def execPdmRecover (n : Nat) (dt : DT) (s : State) : Host.Outcome State Fault Refusal :=
  let s := s.advance dt
  let c := s.pdmCh n
  .next (if c.stuck.isSome then s.setPdm n { c with stuck := none, fault := facGo c.fault 1 32 } else s)

/-- A clip event of an input in the tick in force (R96): the flag sets; the first event with both flags clear is logged;
the counter advances once in each tick that has an event. `dig` says whether the event is digital. -/
def State.ainClip (s : State) (n : Nat) (dig : Bool) : State :=
  let clear := !s.bit Reg.AIN_CLIP n && !s.bit Reg.AIN_CLIP (10 + n)
  let s := s.setBit Reg.AIN_CLIP (if dig then 10 + n else n)
  let s := if clear then s.log Src.AIN 0x3001 3 (wN n) (wN (wB dig)) 0 else s
  if (s.ainCh n).clipTs != some s.time.ts then
    let s := s.pinPulse 6 n (s.time.bdt + BitVec.ofNat 64 100000000)
    (s.bump (Reg.AIN_CLIPCNT n)).setAin n { s.ainCh n with clipTs := some s.time.ts }
  else s

/-- A digital clip of a PDM channel (R96). -/
def State.pdmClip (s : State) (n : Nat) : State :=
  let was := s.bit Reg.AIN_CLIP (24 + n)
  let s := s.setBit Reg.AIN_CLIP (24 + n)
  if was then s else s.log Src.AIN 0x3001 3 (wN (16 + n)) 1 0

/-- MOD_RESET (R97): ACLIP sets at every reset; the record is logged once per stretch, a run of consecutive ticks
each with a reset. A front-end sequence does not suppress it (DESIGN CHOICE, log entry 139). -/
def execModReset (n : Nat) (dt : DT) (s : State) : Host.Outcome State Fault Refusal :=
  let s := s.advance dt
  if n < 10 then
    let c := s.ainCh n
    let cont := c.modTs = some s.time.ts ∨ c.modTs = some (s.time.ts - 1)
    let s := (s.setAin n { c with modTs := some s.time.ts }).ainClip n false
    .next (if cont then s else s.logAt Src.AIN 0x3002 3 dt (wN n) 0 0)
  else .next s

def State.ainJack (s : State) (j : Nat) : Bool := if j = 0 then s.ain.jack0 else s.ain.jack1
def State.setAinJack (s : State) (j : Nat) (b : Bool) : State :=
  if j = 0 then { s with ain := { s.ain with jack0 := b } } else { s with ain := { s.ain with jack1 := b } }

/-- Does jack j drive the jack factor of its input (AIN_JACK_CFG.ACT)? -/
def State.ainAct (s : State) (j : Nat) : Bool := bitN (s.fld Fl.AIN_JACK_CFG.ACT) j

/-- The jack factor goes to zero over 8 tk on absence and to one over 32 tk on presence, while ACT is set; with ACT clear
it is one (R102). -/
def State.ainJackGo (s : State) (j : Nat) : State :=
  let c := s.ainCh j
  let up : Bool := s.ainJack j || !s.ainAct j
  if c.jack.tgt = (wB up : Rat) then s
  else s.setAin j { c with jack := facGo c.jack (wB up : Rat) (if up then 32 else 8) }

end Sys2Proof.Machine
end

