-- ==== Sys2Proof/Machine/Wake.lean ====
section
/-! DEFINITION. Wake sources (R398): which are active in the power state in force, and what Canopy does when one
fires. -/
namespace Sys2Proof.Machine

/-- The code of a sleep state (Table PW-3); 0 when the device is in none. -/
def pstateCode : PState → Nat
  | .awake => 0 | .shade => 1 | .glade => 2 | .clearing => 3 | .moss => 4 | .entering => 5 | .rolling => 6 | .waking => 7

/-- Does a block stand still (turn order 0 to 5): it has voted yes and has not resumed? After a sleep the blocks stand
until the first awake boundary opens (R403). -/
def State.blockStopped (s : State) (i : Nat) : Bool := match s.pwr.sleep with
  | none => s.pwr.woke
  | some z => match z.back with
    | some r => decide (i < r.left)
    | none => decide (i + 1 < z.turn)

/-- Are the MACs stopped: the network has voted for Glade or deeper (Table PW-4)? -/
def State.macsStopped (s : State) : Bool := s.blockStopped 1 && (match s.pwr.sleep with
  | some z => decide (2 ≤ z.chosen)
  | none => false)

/-- Is the device in a sleep state? -/
def State.asleep (s : State) : Bool := match s.pwr.state with
  | .shade | .glade | .clearing | .moss => true
  | _ => false

/-- Is a source (Table PW-5 bit, with its port, GPIO, jack or MAC number) armed or always active in the sleep state of
that code, by the arming that the SLEEP took (R398, R399, R413)? Bit 2 covers BAR accesses, HST_NUDGE and L1.2 exit
in Glade, and PERST_N release (number 1) in every state; number 2 is the L1.2 exit, bit 3 number 1 the SMBus address
match. -/
def wakeActive (z : SleepSt) (code bit num : Nat) : Bool := match bit with
  | 0 | 1 => true
  | 2 => match num with
    | 1 => true
    | 2 => code == 2 && bitN z.arm.toNat 2
    | _ => code == 2
  | 3 => num != 1 || bitN z.arm.toNat 3
  | 4 => bitN z.armSap.toNat num
  | 5 => bitN z.armSap.toNat (8 + num)
  | 6 => bitN z.arm.toNat (16 + num)
  | 7 => decide (code ≤ 2) && bitN z.arm.toNat 7
  | 8 => bitN z.arm.toNat (20 + num)
  | 9 => bitN z.armGpio.toNat num
  | 10 => code == 1
  | _ => false

/-- One 32.768 kHz cycle, in ns, rounded down. -/
abbrev keeperCycle : Nat := 30517

/-- Keeps the event to report: the first, or the lowest bit within one 32.768 kHz cycle (R398). -/
def wakeKeep (old : Option WakeEv) (e : WakeEv) : WakeEv := match old with
  | none => e
  | some o => if e.dt.toNat ≤ o.dt.toNat + keeperCycle ∧ e.bit < o.bit then { e with early := o.early } else o

/-- The number that WAK_SOURCE reports: the port, GPIO, jack or MAC, else 0 (Table PW-12). -/
def wakeNum (bit num : Nat) : Nat := if 4 ≤ bit ∧ bit ≤ 9 ∧ bit ≠ 7 then num else 0

/-- A wake source fires (R396, R398): ignored unless armed or always active; latched in WAK_LATCH; during entry the
entry goes on; in Glade, Clearing and Moss the exit starts. -/
def State.wakeFire (s : State) (bit num : Nat) (dt : DT) : State :=
  match s.pwr.sleep with
  | none => s
  | some z =>
    let code := z.chosen
    if !wakeActive z code bit num || (!s.asleep && s.pwr.state != .entering) then s
    else
      let s := s.wr Reg.WAK_LATCH (wN (Nat.lor (s.rd Reg.WAK_LATCH).toNat (2 ^ bit)))
      let e := wakeKeep s.pwr.wake ⟨bit, num, dt, s.pwr.state == .entering⟩
      let first : Bool := s.pwr.wake.isNone && s.pwr.state == .shade
      let ns := dt.toNat - s.pwr.stepDt.toNat
      let leaves : Bool := first || (!s.pwr.failed && (s.pwr.state == .glade || s.pwr.state == .clearing || s.pwr.state == .moss))
      let s := { s with pwr := { s.pwr with
        sleep := some (if leaves then { z with inNs := ns } else z),
        wake := some e, stepDt := if first then dt else s.pwr.stepDt } }
      if s.pwr.failed then s else if s.pwr.state = .glade ∨ s.pwr.state = .clearing ∨ s.pwr.state = .moss then
        { s with pwr := { s.pwr with state := .waking, left := code, step := 1, run := 1, stepDt := dt } }
      else s

end Sys2Proof.Machine
end

