-- ==== Sys2Proof/Machine/Aout.lean ====
section
/-! DEFINITION. Line outputs and headphones (chapter 4): AOUT_SET and the sequences of Table AO-7, range changes,
shorts, the charge pump, supplies, output factors. -/
namespace Sys2Proof.Machine

abbrev AoutCh.init : AoutCh := ⟨facZero, facOne, facZero, facOne, facOne, none, none, false, false, false⟩
abbrev HpJack.init : HpJack := ⟨.absent, 0, 0, 0, 0, none, false, none, false, false, 0, none⟩

def State.aoutCh (s : State) (n : Nat) : AoutCh := smGet s.aout.ch n AoutCh.init
def State.setAout (s : State) (n : Nat) (c : AoutCh) : State := { s with aout := { s.aout with ch := smSet s.aout.ch n c } }
def State.updAout (s : State) (n : Nat) (f : AoutCh → AoutCh) : State := s.setAout n (f (s.aoutCh n))
def State.hpJack (s : State) (j : Nat) : HpJack := if j = 0 then s.aout.hp0 else s.aout.hp1
def State.setHp (s : State) (j : Nat) (x : HpJack) : State :=
  if j = 0 then { s with aout := { s.aout with hp0 := x } } else { s with aout := { s.aout with hp1 := x } }

/-- The output channel of a sink address: line:0-7 are 0-7, hp:0-3 are 8-11 (Table AO-10, R127). -/
def aoutOfSink (a : ChAddr) : Option Nat :=
  let cls := a.toNat / 1024
  let i := a.toNat % 1024
  if cls = 0x20 ∧ i < 8 then some i else if cls = 0x21 ∧ i < 4 then some (8 + i) else none

/-- Channels of Table AO-10: lines and headphones. -/
abbrev lineChans : List Nat := [0, 1, 2, 3, 4, 5, 6, 7]
abbrev hpChans : List Nat := [8, 9, 10, 11]

/-- Reserved bits of the AOUT_CFGn layout: 30, 28 and 23..0. -/
def aoutReserved (w : Word) : Bool := bitN w.toNat 30 || bitN w.toNat 28 || bitsOf w 0 24 != 0
def cfgMramp (w : Word) : Nat := bitsOf w 24 2

/-- The mute ramp of an MRAMP code (R113). -/
def mrampTk (code : Nat) : Nat := match code with
  | 0 => 32 | 1 => 128 | 2 => 512 | _ => 2048

/-- The configuration that results from the selected fields (R127). -/
def mergeAout (mask : BitVec 16) (old img : Word) : Word :=
  let w := takeFld mask 0 31 1 old img
  let w := takeFld mask 1 29 1 w img
  let w := takeFld mask 2 24 2 w img
  takeFld mask 3 26 2 w img

/-- The 1,024 steps in which an enabled stage settles, rounded up to a tick (Table AO-7). -/
def stageTk (rate : Nat) : Nat := 1024 / stepsPerTk rate

/-- The mute factor after a configuration whose MUTE and MRAMP take effect (R113). -/
def muteTo (f : Factor) (w : Word) : Factor :=
  let tgt : Rat := if cfgMute w then 0 else 1
  if f.tgt = tgt then f else facGo f tgt (mrampTk (cfgMramp w))

/-- Starts the enable sequence of Table AO-7 on a channel: the stage powers. -/
def aoutEnableSeq (c : AoutCh) (t : TS) (w : Word) : AoutCh :=
  { c with fault := facZero, seq := some ⟨.enable, t, w, false, false⟩, out := false, wait := false, drive := true }

/-- Has a channel's stage its supply: a line output with its common mode risen, a headphone channel with AVDD and VIO1
valid (R114, Table AO-5)? -/
def State.supplyOk (s : State) (n : Nat) : Bool := if n < 8 then s.aout.vcm == .ok else s.sup.avdd && s.sup.vio1

/-- Enables a channel: its sequence starts now, or waits for its supply. -/
def State.aoutEnable (s : State) (n : Nat) (w : Word) : State :=
  let c := s.aoutCh n
  s.setAout n (if s.supplyOk n then aoutEnableSeq c s.time.ts w
    else { c with fault := facZero, seq := none, out := false, wait := true, drive := false, mute := muteTo c.mute w })

/-- Is the headphones' way back barred: CP_FAULT is still set after the charge pump stopped (R111)? -/
def State.cpBarred (s : State) (n : Nat) : Bool := decide (8 ≤ n) && s.aout.cpStop && s.flag Fl.AOUT_FAULT.CP_FAULT

def aoutSetValid (s : State) (p : SinkSetP) : Bool :=
  match aoutOfSink p.sink with
  | none => false
  | some n => decide (p.mask.toNat < 16) && !aoutReserved p.image
      && decide (cfgFilt (mergeAout p.mask (s.rd (Reg.AOUT_CFG n)) p.image) ≤ 1)

/-- The channel named; 0 where the payload check has failed before. -/
def aoutChan (p : SinkSetP) : Nat := (aoutOfSink p.sink).getD 0

/-- BUSY from T to the end of a sequence on the channel (R117). -/
def aoutSetRefusal (s : State) (p : SinkSetP) : Status :=
  let c := s.aoutCh (aoutChan p)
  if c.seq.isSome || c.rng.isSome then .busy else .ok

/-- After a charge-pump fault the headphones resume with an AOUT_SET that has EN set once CP_FAULT is cleared: every
enabled headphone channel runs the enable sequence (R111). -/
def State.cpResume (s : State) : State :=
  if s.aout.cpStop && !s.flag Fl.AOUT_FAULT.CP_FAULT then
    let s := { s with aout := { s.aout with cpStop := false } }
    [8, 9, 10, 11].foldl (fun s n => if cfgEn (s.rd (Reg.AOUT_CFG n)) then s.aoutEnable n (s.rd (Reg.AOUT_CFG n)) else s) s
  else s

/-- AOUT_SET at its commit boundary (R111 to R113, R116, R117, R127). -/
def aoutSetEffect (p : SinkSetP) (s : State) : Done :=
  let n := aoutChan p
  let old := s.rd (Reg.AOUT_CFG n)
  let new := mergeAout p.mask old p.image
  let t := s.time.ts
  let s := s.wr (Reg.AOUT_CFG n) new
  let c := s.aoutCh n
  let enSel := bitN p.mask.toNat 0 && cfgEn new
  let settle := stageTk s.clk.rate
  if enSel && (!cfgEn old || c.out || c.wait) && !s.cpBarred n then
    let s := s.aoutEnable n new
    let s := if 8 ≤ n then s.cpResume else s
    ⟨s, .ok, new, if s.supplyOk n then t + BitVec.ofNat 32 (64 + settle) else t, 0, false, false⟩
  else if cfgEn old && !cfgEn new then
    ⟨s.setAout n { c with fault := facGo c.fault 0 32, seq := some ⟨.disable, t, new, false, false⟩, wait := false }, .ok, new, t + 32, 0, false, false⟩
  else if cfgEn new && cfgFilt old != cfgFilt new then
    ⟨s.setAout n { c with fault := facGo c.fault 0 32, seq := some ⟨.filter, t, new, false, false⟩ }, .ok, new, t + 96, 0, false, false⟩
  else
    let s := s.setAout n { c with mute := muteTo c.mute new }
    ⟨if 8 ≤ n && enSel then s.cpResume else s, .ok, new, t, 0, false, false⟩

def execAoutSet (h : Hdr) (p : SinkSetP) (s : State) : Host.Outcome State Fault Refusal :=
  .next (s.runCmd h (.aoutSet p) 0x0311 (aoutSetValid s p) true (aoutSetRefusal s p) (aoutSetEffect p))

/-- Has the tick `t + d` come? -/
def State.reached (s : State) (t : TS) (d : Nat) : Bool := decide (0 ≤ tsDiff s.time.ts (t + BitVec.ofNat 32 d))

/-- The final row of a sequence: MUTE and MRAMP given with it take effect (R116). -/
def aoutFinal (c : AoutCh) (w : Word) : AoutCh := { c with mute := muteTo c.mute w }

/-- A channel's own sequence at T+32 (Table AO-7). -/
def aoutSwitchCh (c : AoutCh) (q : AoutSeq) : AoutCh := match q.kind with
  | .enable => { c with seq := some { q with switched := true }, drive := true }
  | .disable => aoutFinal { c with seq := none, fault := facZero, drive := false } q.cfg
  | .filter | .range => { c with seq := some { q with switched := true }, fault := facZero }

/-- Does the jack's channel pair play: is one of them enabled and driving? -/
def State.jackPlays (s : State) (j : Nat) : Bool := (s.aoutCh (8 + 2 * j)).drive || (s.aoutCh (9 + 2 * j)).drive

/-- After a write of AOUT_JACK_CFG: a change of a jack's RANGE while its channels play asks for the range sequence at
the next boundary; otherwise the range applies at once (R120, R128). -/
def State.rangeChange (s : State) (old : Word) : State :=
  [0, 1].foldl (fun s j =>
    let r := bitN (s.fld Fl.AOUT_JACK_CFG.RANGE) j
    if bitN (bitsOf old 12 2) j = r then s
    else if s.jackPlays j then { s with aout := { s.aout with rangeReq := Nat.lor s.aout.rangeReq (2 ^ j) } }
    else (s.setHp j { s.hpJack j with lo := r }).setFld (Fl.AOUT_JACK_STAT.LO j) (wB r)) s

/-- Does a channel's stage drive: on, and not stopped by the converters' turn of a sleep (Table AO-6)? -/
def State.drives (s : State) (n : Nat) : Bool := (s.aoutCh n).drive && !s.blockStopped 4

/-- Is the charge pump running (R111, Table AO-6): a headphone channel enabled and not stopped by the converters' turn of an
entry, or a jack armed for identification, with VIO1 valid and no fault; never in a sleep state? -/
def State.cpOn (s : State) : Bool :=
  let stopped : Bool := (s.pwr.state == .entering || s.pwr.state == .rolling) && s.blockStopped 4
  !s.aout.cpStop && s.sup.vio1 && !s.asleep
    && ((hpChans.any (fun n => cfgEn (s.rd (Reg.AOUT_CFG n))) && !stopped) || s.fld Fl.AOUT_JACK_CFG.HSID != 0)

/-- CP_FAULT (R111): the headphones' fault factors go to zero over 8 tk, the charge pump stops, the flag sets. -/
def execCpFault (mv : Int) (dt : DT) (s : State) : Host.Outcome State Fault Refusal :=
  let s := s.advance dt
  if s.cpOn ∧ -1500 < mv then
    let s := { s with aout := { s.aout with cpStop := true } }
    let s := [8, 9, 10, 11].foldl (fun s n => s.updAout n (fun c => { c with fault := facGo c.fault 0 8, out := true, seq := none })) s
    .next ((s.setFld Fl.AOUT_FAULT.CP_FAULT 1).logAt Src.AOUT 0x3106 4 dt (wI mv) 0 0)
  else .next s

/-- OUTPUT_SHORT (R112): the fault factor goes to zero over 8 tk, the stage leaves drive, the flag sets. -/
def execOutputShort (n : Nat) (dt : DT) (s : State) : Host.Outcome State Fault Refusal :=
  let s := s.advance dt
  if n < 12 ∧ (s.aoutCh n).out = false ∧ s.drives n then
    let s := s.updAout n (fun c => { c with fault := facGo c.fault 0 8, out := true, seq := none })
    if n < 8 then .next ((s.setBit Reg.AOUT_FAULT n).logAt Src.AOUT 0x3107 3 dt (wN n) 0 0)
    else .next ((s.setBit Reg.AOUT_FAULT (16 + (n - 8))).logAt Src.AOUT 0x3105 3 dt (wN (n - 8)) 0 0)
  else .next s

/-- Channels of a list that a supply loss stops while they drive. -/
def State.driving (s : State) (l : List Nat) : List Nat := l.filter s.drives

/-- Stops channels at once for a lost supply: fault factor zero, out of drive; one that was on waits for the supply's
return (Table AO-5, R114). -/
def State.supplyStop (s : State) (l : List Nat) : State :=
  l.foldl (fun s n => s.updAout n (fun c => if c.drive then
    { c with fault := facZero, drive := false, seq := none, wait := !c.out } else c)) s

/-- The mask of channels as in AOUT_STATUS.BUSY. -/
def maskOf (l : List Nat) : Nat := l.foldl (fun m n => Nat.lor m (2 ^ n)) 0

/-- A supply loss while channels drive: the flag and AOUT_SUPPLY, logged when Blaze is powered (R114). -/
def State.supplyLost (s : State) (which : Nat) (l : List Nat) (dt : DT) : State :=
  let hit := s.driving l
  let s' := s.supplyStop l
  if hit.isEmpty then s'
  else
    let s' := s'.setFld (if which = 0 then Fl.AOUT_FAULT.AVDD_LOSS else Fl.AOUT_FAULT.VIO1_LOSS) 1
    if s.coreDown then s' else s'.logAt Src.AOUT 0x3108 3 dt (wN which) (wN (maskOf hit)) 0

/-- AVDD_LOSS (R114). -/
def execAvddLoss (dt : DT) (s : State) : Host.Outcome State Fault Refusal :=
  let s := s.advance dt
  let s := s.supplyLost 0 (lineChans ++ hpChans) dt
  .next { s with sup := { s.sup with avdd := false }, aout := { s.aout with vcm := .off } }

/-- VIO1_LOSS (R114): the headphones clamp and the charge pump stops; the line outputs are unchanged. -/
def execVio1Loss (dt : DT) (s : State) : Host.Outcome State Fault Refusal :=
  let s := s.advance dt
  let s := s.supplyLost 1 hpChans dt
  .next { s with sup := { s.sup with vio1 := false } }

/-- AVDD_VALID (R114): the VCM ramp starts. -/
def execAvddValid (dt : DT) (s : State) : Host.Outcome State Fault Refusal :=
  let s := s.advance dt
  .next (if s.sup.avdd then s
    else { s with sup := { s.sup with avdd := true }, aout := { s.aout with vcm := .ramping } })

/-- VCM_RAMP_END (R114): at the next tick boundary the line outputs that wait run their enable sequence. -/
def execVcmRampEnd (dt : DT) (s : State) : Host.Outcome State Fault Refusal :=
  let s := s.advance dt
  .next (if s.aout.vcm = .ramping then { s with aout := { s.aout with vcm := .ok } } else s)

/-- VIO1_VALID (R114): at the next tick boundary the headphones that wait run their enable sequence. -/
def execVio1Valid (dt : DT) (s : State) : Host.Outcome State Fault Refusal :=
  let s := s.advance dt
  .next (if s.sup.vio1 then s
    else { s with sup := { s.sup with vio1 := true } })

/-! ## The outputs' part of a tick boundary -/

/-- Advances the ramps of a channel by one tick. -/
def aoutRamps (c : AoutCh) : AoutCh :=
  { c with mute := facTick c.mute, jack := facTick c.jack, fault := facTick c.fault, rfault := facTick c.rfault,
           state := facTick c.state }

/-- The scheduled rows of the sequences of a channel at a boundary: the ramp up at T+64 of filter and range changes,
and the end at full level (Table AO-7). -/
def State.aoutSched (s : State) (n : Nat) : State :=
  let c := s.aoutCh n
  let c := match c.seq with
    | some q => match q.kind with
      | .filter | .range =>
        if q.switched && !q.up && s.reached q.t 64 then { c with fault := facGo c.fault 1 32, seq := some { q with up := true } }
        else if q.up && s.reached q.t 96 then aoutFinal { c with seq := none } q.cfg else c
      | .enable => if q.up && s.reached q.t (64 + stageTk s.clk.rate) then aoutFinal { c with seq := none } q.cfg else c
      | .disable => c
    | none => c
  let c := match c.rng with
    | some q =>
      if q.switched && !q.up && s.reached q.t 64 then { c with rfault := facGo c.rfault 1 32, rng := some { q with up := true } }
      else if q.up && s.reached q.t 96 then { c with rng := none } else c
    | none => c
  let c := if c.out && !facMoving c.fault then { c with drive := false } else c
  s.setAout n c

/-- What waits for a tick boundary: enable sequences of channels whose supply has returned, range sequences (R114, R128). -/
def State.aoutRequests (s : State) : State :=
  let t := s.time.ts
  let en (s : State) (n : Nat) : State :=
    let w := s.rd (Reg.AOUT_CFG n)
    if (s.aoutCh n).wait && cfgEn w && s.supplyOk n && !(decide (8 ≤ n) && s.aout.cpStop) then s.aoutEnable n w else s
  let s := (lineChans ++ hpChans).foldl en s
  let req := s.aout.rangeReq
  let s := { s with aout := { s.aout with rangeReq := 0 } }
  hpChans.foldl (fun s n => if bitN req ((n - 8) / 2) then
    s.updAout n (fun c => { c with rfault := facGo c.rfault 0 32, rng := some ⟨.range, t, 0, false, false⟩ }) else s) s

/-- The product of the factors of a channel; the two fault factors of R128 give the lower. -/
def aoutFactor (c : AoutCh) : Rat := c.mute.cur * c.jack.cur * min c.fault.cur c.rfault.cur * c.state.cur

/-- The value a channel converts in a tick: its sink sample times its factors (R113). -/
def State.aoutValue (s : State) (n : Nat) (x : Int) : Int :=
  let c := s.aoutCh n
  if s.drives n then scaleQ31 x (aoutFactor c) else 0

end Sys2Proof.Machine
end

