-- ==== Sys2Proof/Machine/Spk.lean ====
section
/-! DEFINITION. Loudspeakers and the boost (chapter 5): SPK_SET, SPK_MEAS and SPK_WATCH, the sequences of Table AO-7 on
all outputs, latch and retry, pilots, power caps, supply and temperature faults, the boost target and the rail
limiter. -/
namespace Sys2Proof.Machine

abbrev Pilot.init : Pilot := ⟨0, facZero, 0, none, 0, 0, false⟩
abbrev SpkCh.init : SpkCh :=
  ⟨facZero, facZero, facOne, facOne, facOne, 1, 1, false, none, false, 0, none, false, 4, 0, [], false, false, false, 0,
   .none, Pilot.init, 0, false, none, none, [], 0, 0⟩

def State.spkCh (s : State) (n : Nat) : SpkCh := if n = 0 then s.spk.ch0 else s.spk.ch1
def State.setSpk (s : State) (n : Nat) (c : SpkCh) : State :=
  if n = 0 then { s with spk := { s.spk with ch0 := c } } else { s with spk := { s.spk with ch1 := c } }
def State.updSpk (s : State) (n : Nat) (f : SpkCh → SpkCh) : State := s.setSpk n (f (s.spkCh n))

/-- Full-scale voltage of an FSV code in mV (R134). -/
def fsvMv (code : Nat) : Nat := match code with
  | 0 => 8000 | 1 => 11300 | 2 => 13400 | 3 => 16000 | _ => 19000

/-- Headroom HR in mV: 1.0 + 0.25 × code V (SPK_CTRL). -/
def State.spkHr (s : State) : Nat := 1000 + 250 * s.fld Fl.SPK_CTRL.HR

/-- SLEW in mV per ns, which is V per µs. -/
def State.spkSlew (s : State) : Rat := match s.fld Fl.SPK_CTRL.SLEW with
  | 0 => 1 / 4 | 1 => 1 / 2 | _ => 1

/-- REL in mV per µs, which is V per ms. -/
def State.spkRel (s : State) : Rat := match s.fld Fl.SPK_CTRL.REL with
  | 0 => 1 / 2 | 1 => 1 | 2 => 2 | _ => 5

/-- The channel of a sink address spk:0 or spk:1 (Table AR-6). -/
def spkOfSink (a : ChAddr) : Option Nat :=
  if a.toNat / 1024 = 0x22 ∧ a.toNat % 1024 < 2 then some (a.toNat % 1024) else none

/-- How BST_OUT is fed (R136, R149, R153 to R155): the boost switches; its rectifier passes PVDD; the isolation switch
regulates from PVDD at no more than 8 V; it is open. -/
inductive Boost where
  | switching | passing | regulating | isolated
  deriving DecidableEq, Repr

/-- Are supply and temperature in range for the stage (R154)? -/
def State.stageOk (s : State) : Bool := !s.spk.pvddBad && decide (s.spk.dieLvl < 2)

/-- The boost stops where the target lies below PVDD, in every sleep state, and while the first comparator holds it. -/
def State.boostMode (s : State) : Boost :=
  if !s.stageOk || bitN s.spk.ovp 1 || s.pwr.state == .clearing || s.pwr.state == .moss then .isolated
  else if s.spk.clamp then .regulating
  else if s.asleep || s.spk.ovp != 0 || decide (s.spk.target < (s.spk.pvdd : Rat)) then .passing
  else .switching

/-- Does the boost rail follow its target: not stopped by PVDD, temperature, a comparator or a sleep state? -/
def State.boostOn (s : State) : Bool := s.stageOk && s.spk.ovp == 0 && !s.asleep

/-- May a channel start its sequences: not latched, not in an attempt, supply and temperature in range? -/
def State.spkFree (s : State) (n : Nat) : Bool :=
  let c := s.spkCh n
  !c.latch && c.retry == .none && s.stageOk

/-! ## SPK_SET -/

def spkReserved (w : Word) : Bool := bitN w.toNat 30 || bitN w.toNat 28 || bitsOf w 0 18 != 0
def spkFsv (w : Word) : Nat := bitsOf w 21 3
def spkTrailHr (w : Word) : Nat := bitsOf w 19 2
def spkOtAct (w : Word) : Bool := bitN w.toNat 18

/-- A configuration without a reserved field value (SPK_CFGn). -/
def spkCfgOk (w : Word) : Bool := cfgFilt w ≤ 1 && spkFsv w ≤ 4 && spkTrailHr w != 3

/-- The configuration that results from the selected fields (R160). -/
def mergeSpk (mask : BitVec 16) (old img : Word) : Word :=
  let w := takeFld mask 0 31 1 old img
  let w := takeFld mask 1 29 1 w img
  let w := takeFld mask 2 24 2 w img
  let w := takeFld mask 3 26 2 w img
  let w := takeFld mask 4 21 3 w img
  let w := takeFld mask 5 19 2 w img
  takeFld mask 6 18 1 w img

def spkSetValid (s : State) (p : SinkSetP) : Bool :=
  match spkOfSink p.sink with
  | none => false
  | some n => decide (p.mask.toNat < 256) && !spkReserved p.image
      && spkCfgOk (mergeSpk p.mask (s.rd (Reg.SPK_CFG n)) p.image)

def spkChan (p : SinkSetP) : Nat := (spkOfSink p.sink).getD 0

/-- The BUSY rule of R117 with SPK_STATUS.BUSY (R135). -/
def spkSetRefusal (s : State) (p : SinkSetP) : Status :=
  if (s.spkCh (spkChan p)).seq.isSome then .busy else .ok

/-- The boost clamp of R149. -/
def State.clampOn (s : State) : State :=
  { s with spk := { s.spk with clamp := true, low := decide (s.spk.bst < 8000), target := 8000 } }

/-- Starts an attempt of R151 on a channel: the clamp first. -/
def State.startAttempt (s : State) (n : Nat) : State :=
  let c := s.spkCh n
  let c := { c with tries := c.tries + 1, retry := .clamp, fault := facZero, drive := false, seq := none,
                    pilot := { c.pilot with win := none } }
  (s.setSpk n c).clampOn.wr (Reg.SPK_RETRY n) (wN c.tries)

/-- Clears one bit of a register. -/
def State.clrBit (s : State) (off i : Nat) : State := s.wr off (withBits (s.rd off) i 1 0)

/-- REARM (R160): clears LATCH, GIVEUP and CAP_TRIP, resets the count and starts one attempt. -/
def State.rearm (s : State) (n : Nat) : State :=
  let s := s.updSpk n (fun c => { c with latch := false, giveup := false, capTrip := false, tries := 0 })
  ((s.clrBit Reg.SPK_FAULT (18 + n)).clrBit Reg.SPK_FAULT (16 + n)).startAttempt n

/-- The mute factor of a configuration. -/
def spkMute (c : SpkCh) (w : Word) : SpkCh := { c with mute := muteTo c.mute w }

/-- SPK_SET at its commit boundary (R135, R160). -/
def spkSetEffect (p : SinkSetP) (s : State) : Done :=
  let n := spkChan p
  let old := s.rd (Reg.SPK_CFG n)
  let new := mergeSpk p.mask old p.image
  let t := s.time.ts
  let s := s.wr (Reg.SPK_CFG n) new
  let rearm := bitN p.mask.toNat 7
  let s := if rearm then s.rearm n else s
  let c := s.spkCh n
  let settle := stageTk s.clk.rate
  if !cfgEn old && cfgEn new then
    if s.spkFree n then
      ⟨s.setSpk n { c with fault := facZero, seq := some ⟨.enable, t, new, false, false⟩, settled := false,
                           fsv := spkFsv new, filt := cfgFilt new },
       .ok, new, t + BitVec.ofNat 32 (64 + settle), 0, false, false⟩
    else ⟨s.setSpk n (spkMute { c with fsv := spkFsv new, filt := cfgFilt new } new), .ok, new, t, 0, false, false⟩
  else if cfgEn old && !cfgEn new then
    ⟨s.setSpk n { c with fault := facGo c.fault 0 32, seq := some ⟨.disable, t, new, false, false⟩ }, .ok, new, t + 32, 0, false, false⟩
  else if cfgEn new && (cfgFilt old != cfgFilt new || spkFsv old != spkFsv new) && s.spkFree n then
    ⟨s.setSpk n { c with fault := facGo c.fault 0 32, seq := some ⟨.filter, t, new, false, false⟩ }, .ok, new, t + 96, 0, false, false⟩
  else ⟨s.setSpk n (spkMute { c with fsv := spkFsv new, filt := cfgFilt new } new), .ok, new, t, 0, false, false⟩

def execSpkSet (h : Hdr) (p : SinkSetP) (s : State) : Host.Outcome State Fault Refusal :=
  .next (s.runCmd h (.spkSet p) 0x0401 (spkSetValid s p) true (spkSetRefusal s p) (spkSetEffect p))

/-! ## The sequences of Table AO-7 on every output: 0-7 line, 8-11 headphone, 12-13 loudspeaker -/

/-- T+32 of a loudspeaker's sequence. -/
def spkSwitchCh (c : SpkCh) (q : AoutSeq) : SpkCh := match q.kind with
  | .enable => { c with seq := some { q with switched := true }, drive := true }
  | .disable => spkMute { c with seq := none, fault := facZero, drive := false } q.cfg
  | .filter | .range => { c with seq := some { q with switched := true }, fault := facZero,
                                 fsv := spkFsv q.cfg, filt := cfgFilt q.cfg }

/-- Has BST_OUT reached the boost target (R135)? -/
def State.bstReached (s : State) : Bool := s.boostOn && decide (s.spk.target ≤ (s.spk.bst : Rat))

/-- The ramp up of a loudspeaker's enable sequence. -/
def spkUp (c : SpkCh) (t : TS) : SpkCh := match c.seq with
  | some q => { c with fault := facGo c.fault 1 32, seq := some { q with up := true }, upAt := t }
  | none => c

/-- AOUT_SEQ_SWITCH (R116, R135): at T+32 the filter, range, full scale or stage of a channel switches. -/
def execAoutSeqSwitch (n : Nat) (s : State) : Host.Outcome State Fault Refusal :=
  if 12 ≤ n then
    let c := s.spkCh (n - 12)
    match c.seq with
    | some q => if !q.switched && s.reached q.t 32 then .next (s.setSpk (n - 12) (spkSwitchCh c q)) else .next s
    | none => .next s
  else
    let c := s.aoutCh n
    let s := match c.seq with
      | some q => if !q.switched && s.reached q.t 32 then s.setAout n (aoutSwitchCh c q) else s
      | none => s
    let c := s.aoutCh n
    match c.rng with
    | some q =>
      if !q.switched && s.reached q.t 32 then
        let j := (n - 8) / 2
        let s := s.setAout n { c with rng := some { q with switched := true }, rfault := facZero }
        let x := s.hpJack j
        .next ((s.setHp j { x with lo := bitN (s.fld Fl.AOUT_JACK_CFG.RANGE) j }).setFld (Fl.AOUT_JACK_STAT.LO j)
          (wB (bitN (s.fld Fl.AOUT_JACK_CFG.RANGE) j)))
      else .next s
    | none => .next s

/-- AOUT_STAGE_SETTLED (R116, R135): 1,024 steps after T+32 the ramp up of an enabled stage starts; a loudspeaker's
also waits for BST_OUT. -/
def execAoutStageSettled (n : Nat) (s : State) : Host.Outcome State Fault Refusal :=
  if 12 ≤ n then
    let c := s.spkCh (n - 12)
    match c.seq with
    | some q =>
      if q.kind == .enable && q.switched && !q.up && s.reached q.t (32 + stageTk s.clk.rate) then
        let c := { c with settled := true }
        .next (s.setSpk (n - 12) (if s.bstReached then spkUp c s.time.ts else c))
      else .next s
    | none => .next s
  else
    let c := s.aoutCh n
    match c.seq with
    | some q =>
      if q.kind == .enable && q.switched && !q.up && s.reached q.t (32 + stageTk s.clk.rate) then
        .next (s.setAout n { c with fault := facGo c.fault 1 32, seq := some { q with up := true } })
      else .next s
    | none => .next s

/-- BOOST_READY (R135, R155): BST_OUT has reached its target; a waiting ramp up starts. -/
def execBoostReady (n : Nat) (s : State) : Host.Outcome State Fault Refusal :=
  if s.boostOn then
    let s := { s with spk := { s.spk with bst := max s.spk.bst s.spk.target.ceil.toNat } }
    let c := s.spkCh n
    let c := if c.wake.isSome then { c with wake := none, state := facGo c.state 1 32 } else c
    let c := match c.seq with
      | some q => if q.kind == .enable && c.settled && !q.up then spkUp c s.time.ts else c
      | none => c
    .next (s.setSpk n c)
  else .next s

/-! ## SPK_MEAS and SPK_WATCH -/

/-- The kind of pilot that is in force: the next one, where one waits for the running one to ramp out. -/
def pilotKind (p : Pilot) : Nat := if p.next ≠ 0 then p.next else if p.amp.tgt = 0 then 0 else p.kind

def spkMeasValid (p : SpkMeasP) : Bool := decide (p.chan < 2) && decide (p.op < 4)

/-- Op 2 below 88.2 kHz and op 3 without a sub-audible pilot are INVALID (R161). -/
def spkMeasRefusal (s : State) (p : SpkMeasP) : Status :=
  if p.op = 2 ∧ s.clk.rate < 2 then .invalid
  else if p.op = 3 ∧ pilotKind (s.spkCh p.chan).pilot ≠ 1 then .invalid
  else .ok

/-- Is a wait a measurement of a channel with an op? -/
def isMeas (w : Wait) (n op : Nat) : Bool := match w.kind with
  | .spkMeas c o _ => c == n && o == op
  | _ => false

/-- Outstanding waits of an op on a channel complete with ABORTED (R162). -/
def State.abortMeas (s : State) (n op : Nat) : State :=
  (s.host.waits.filter (fun w => isMeas w n op)).foldl (fun s w => s.endWait w .aborted 0 0 0) s

/-- A pilot that begins: its ramp up, its sine at phase zero, with SPK_PILOT as it stands (R143, R164). -/
def pilotNew (p : Pilot) (kind : Nat) (dt : DT) (setup : Word) : Pilot :=
  { p with kind := kind, amp := facGo facZero 1 64, next := 0, win := none, since := dt, setup := setup }

/-- Starts a pilot of a kind, replacing another (R143, R162). -/
def pilotStart (p : Pilot) (kind : Nat) (dt : DT) (setup : Word) : Pilot :=
  if pilotKind p = kind then p
  else if p.kind = 0 then pilotNew p kind dt setup
  else { p with amp := facGo p.amp 0 64, next := kind, win := none }

/-- SPK_MEAS at its commit boundary (R161, R162). -/
def spkMeasEffect (h : Hdr) (p : SpkMeasP) (s : State) : Done :=
  let c := s.spkCh p.chan
  if p.op = 0 then
    okDone (s.setSpk p.chan { c with pilot := { c.pilot with amp := facGo c.pilot.amp 0 64, next := 0, win := none } })
  else if p.op = 3 then laterDone (s.armWait h 0x0402 (.spkMeas p.chan 3 p.calTemp) p.timeout)
  else
    let other := 3 - p.op
    let s := if pilotKind c.pilot = other then s.abortMeas p.chan other else s
    let s := s.updSpk p.chan (fun c => { c with pilot := pilotStart c.pilot p.op s.time.bdt (s.rd Reg.SPK_PILOT) })
    laterDone (s.armWait h 0x0402 (.spkMeas p.chan p.op 0) p.timeout)

def execSpkMeas (h : Hdr) (p : SpkMeasP) (s : State) : Host.Outcome State Fault Refusal :=
  .next (s.runCmd h (.spkMeas p) 0x0402 (spkMeasValid p) true (spkMeasRefusal s p) (spkMeasEffect h p))

def spkWatchValid (p : SpkWatchP) : Bool := (decide (p.chan < 2) || p.chan == 255) && decide (p.mask.toNat < 128)

/-- SPK_WATCH: a wait (R163). -/
def spkWatchEffect (h : Hdr) (p : SpkWatchP) (s : State) : Done :=
  laterDone (s.armWait h 0x0403 (.spkWatch p.chan p.mask) p.timeout)

def execSpkWatch (h : Hdr) (p : SpkWatchP) (s : State) : Host.Outcome State Fault Refusal :=
  .next (s.runCmd h (.spkWatch p) 0x0403 (spkWatchValid p) true .ok (spkWatchEffect h p))

/-! ## Latch and retry -/

/-- Notes an event for the next tick (R152, R163). -/
def State.spkNote (s : State) (n bits code sev : Nat) (p1 p2 : Word) : State :=
  { s with spk := { s.spk with evs := s.spk.evs ++ [⟨n, bits, code, sev, p1, p2, s.rd (Reg.SPK_LIMCNT n), wN s.spk.bst⟩] } }

/-- More attempts are left under RETRY_MAX: 0 none, 255 unlimited (R151). -/
def State.triesLeft (s : State) (c : SpkCh) : Bool :=
  s.fld Fl.SPK_PROT.RETRY_MAX == 255 || decide (c.tries < s.fld Fl.SPK_PROT.RETRY_MAX)

def isProbe (r : Retry) : Bool := match r with
  | .probe _ => true
  | _ => false

/-- A latch (R148, R149, R151): both legs to high impedance, the fault factor to zero without a ramp, the clamp. During
a probe it ends the attempt, with SPK_RETRY and, after the last attempt, SPK_GIVEUP; else it is reported by the record
given. `bits` are the mask bits of R163. -/
def State.spkLatch (s : State) (n : Nat) (dt : DT) (bits code sev : Nat) (p1 p2 : Word) : State :=
  let c := s.spkCh n
  let probe := isProbe c.retry
  let s := s.setSpk n { c with latch := true, fault := facZero, drive := false, seq := none, limits := [],
                               retry := .sched dt, pilot := { c.pilot with win := none } }
  let s := s.clampOn
  let s := if probe then s.spkNote n bits 0x4003 2 (wN c.tries) 0 else s.spkNote n bits code sev p1 p2
  if probe && !s.triesLeft c then
    ((s.updSpk n (fun c => { c with giveup := true, retry := .none })).setBit Reg.SPK_FAULT (18 + n)).spkNote n 64 0x4005 5
      (wN c.tries) 0
  else s

/-- SPK_LIMIT_EVENT (R146 to R148): the counter advances; the eighth event within 64 µs latches the channel. -/
def execSpkLimitEvent (n : Nat) (dt : DT) (s : State) : Host.Outcome State Fault Refusal :=
  let s := s.advance dt
  let c := s.spkCh n
  if n < 2 ∧ c.drive then
    let s := s.bump (Reg.SPK_LIMCNT n)
    let l := dt :: c.limits.filter (fun d => decide (dt.toNat ≤ d.toNat + 64000))
    if 8 ≤ l.length then
      .next ((s.setBit Reg.SPK_FAULT n).spkLatch n dt 1 0x4001 4 (s.rd (Reg.SPK_LIMCNT n)) (wN s.spk.bst))
    else .next (s.setSpk n { c with limits := l, pilot := { c.pilot with win := none } })
  else .next s

/-- SPK_BROADBAND_SHORT (R148): a soft short. -/
def execSpkBroadbandShort (n milliohms : Nat) (dt : DT) (s : State) : Host.Outcome State Fault Refusal :=
  let s := s.advance dt
  if n < 2 ∧ (s.spkCh n).drive ∧ milliohms < 100 * s.fld Fl.SPK_PROT.SHORT_Z then
    .next ((s.setBit Reg.SPK_FAULT (14 + n)).spkLatch n dt 3 0x4002 4 (wN milliohms) 0)
  else .next s

/-- SPK_CLAMP_RELEASE (R149): BST_OUT is below 8 V; the clamp is released at the next tick boundary. -/
def execSpkClampRelease (bstMv : Nat) (s : State) : Host.Outcome State Fault Refusal :=
  if s.spk.clamp ∧ bstMv < 8000 then .next { s with spk := { s.spk with low := true, bst := bstMv } } else .next s

/-- Delay of an attempt after the latch that ended the previous one, in ms (Table SP-5). -/
def attemptMs (k : Nat) : Nat := match k with
  | 0 | 1 => 100 | 2 => 200 | 3 => 400 | 4 => 800 | 5 => 1600 | _ => 3200

/-- SPK_RETRY_ATTEMPT (R151, Table SP-5). -/
def execSpkRetryAttempt (n : Nat) (dt : DT) (s : State) : Host.Outcome State Fault Refusal :=
  let s := s.advance dt
  let c := s.spkCh n
  match c.retry with
  | .sched since =>
    if n < 2 ∧ s.stageOk ∧ !c.giveup ∧ !c.capTrip ∧ s.triesLeft c ∧ cfgEn (s.rd (Reg.SPK_CFG n))
        ∧ since.toNat + attemptMs (c.tries + 1) * 1000000 ≤ dt.toNat then .next (s.startAttempt n)
    else .next s
  | _ => .next s

/-- No channel waits under the clamp or probes. -/
def State.noAttempt (s : State) : Bool :=
  [s.spk.ch0, s.spk.ch1].all (fun c => c.retry != .clamp && !isProbe c.retry)

/-- The clamp of R149 ends; so does what a comparator of R153 holds. -/
def State.clampOff (s : State) : State := { s with spk := { s.spk with clamp := false, low := false, ovp := 0 } }

/-- SPK_PROBE_END (R151): 1 ms of probe has passed; |Z| decides. -/
def execSpkProbeEnd (n milliohms : Nat) (dt : DT) (s : State) : Host.Outcome State Fault Refusal :=
  let s := s.advance dt
  let c := s.spkCh n
  match c.retry with
  | .probe t0 =>
    if t0.toNat + 1000000 ≤ dt.toNat then
      if 100 * s.fld Fl.SPK_PROT.SHORT_Z ≤ milliohms then
        let s := s.setSpk n { c with latch := false, retry := .none, tries := 0, fault := facGo c.fault 1 32 }
        let s := if s.noAttempt then s.clampOff else s
        .next ((s.wr (Reg.SPK_RETRY n) 0).spkNote n 32 0x4004 2 (wN c.tries) (wN milliohms))
      else .next ((s.setBit Reg.SPK_FAULT (14 + n)).spkLatch n dt 3 0x4002 4 (wN milliohms) 0)
    else .next s
  | _ => .next s

/-! ## Pilot windows -/

/-- Length of a window in ns (R144). -/
def windowNs (p : Pilot) : Nat :=
  if p.kind = 2 then 50000000 else 1000000000 * 2 ^ bitsOf p.setup 2 2

/-- Coil temperature in 0.1 °C from a resistance and a calibration (R145). -/
def coilTemp (r : Nat) (cal : Word) (alu : Bool) : Int :=
  let alpha : Rat := if alu then 403 / 100000 else 393 / 100000
  let t := (signedOf 16 (bitsOf cal 0 16) : Rat) + 10 * (((r : Rat) / (bitsOf cal 16 16 : Rat)) - 1) / alpha
  clampI (-32768) 32767 (roundAway t)

/-- The waits of a channel's op arrive with a result (R161). -/
def State.measArrive (s : State) (n : Nat) (f : Wait → Option (Word × Word × Word)) : State :=
  s.host.waits.foldl (fun s w => match w.kind with
    | .spkMeas c _ _ => if c == n then (match f w with
        | some (r0, r1, r2) => s.arrive w .ok r0 r1 r2 0
        | none => s) else s
    | _ => s) s

/-- The class of a resistance and a temperature (Table SP-4). -/
def State.spkClass (s : State) (r : Nat) (t : Option Int) : Nat :=
  if r < 100 * s.fld Fl.SPK_PROT.SHORT_Z then 2
  else if 1000 * s.fld Fl.SPK_PROT.OPEN_Z < r then 1
  else match t with
    | some t => if (10 * s.fld Fl.SPK_PROT.TMAX : Int) < t then 3 else 0
    | none => 0

/-- The action of a class (Table SP-4). -/
def State.classAct (s : State) (n cls r : Nat) (t : Option Int) (dt : DT) : State :=
  let c := s.spkCh n
  let s := match cls with
    | 1 => ((s.setBit Reg.SPK_FAULT (10 + n)).spkNote n 4 0x4006 3 (wN r) 0)
    | 2 => (s.setBit Reg.SPK_FAULT (14 + n)).spkLatch n dt 3 0x4002 4 (wN r) 0
    | 3 =>
      let s := (s.setBit Reg.SPK_FAULT (12 + n)).spkNote n 8 0x4007 3 (wI (t.getD 0)) (wN r)
      if spkOtAct (s.rd (Reg.SPK_CFG n)) && c.coil.tgt != 1 / 2 then
        s.setSpk n { c with coil := facGo c.coil (1 / 2) 512 } else s
    | _ => s
  match t with
  | some t => if c.coil.tgt != 1 && decide (t ≤ (10 * s.fld Fl.SPK_PROT.TMAX : Int) - 100) then
      s.updSpk n (fun c => { c with coil := facGo c.coil 1 2048 }) else s
  | none => s

/-- SPK_PILOT_WINDOW (R144, R145, R161): a window of the running pilot ends. An invalid window, or one that protection
or a ramp has broken (R143, R146), updates nothing. -/
def execSpkPilotWindow (n : Nat) (valid : Bool) (milliohms nanohenry : Nat) (dt : DT) (s : State) :
    Host.Outcome State Fault Refusal :=
  let s := s.advance dt
  let c := s.spkCh n
  match c.pilot.win with
  | some t0 =>
    if n < 2 ∧ t0.toNat + windowNs c.pilot ≤ dt.toNat then
      let s := s.setSpk n { c with pilot := { c.pilot with win := some dt, setup := s.rd Reg.SPK_PILOT } }
      if !valid then .next s
      else if c.pilot.kind = 2 then
        let s := s.wr (Reg.SPK_COIL_IND n) (wN nanohenry)
        .next (s.measArrive n (fun w => if isMeas w n 2 then some (wN milliohms, wN nanohenry, wN c.cls) else none))
      else
        let s := s.wr (Reg.SPK_COIL_RES n) (wN milliohms)
        -- op 3 calibrates from this result first
        let cal3 := s.host.waits.find? (fun w => isMeas w n 3)
        let s := match cal3 with
          | some w => match w.kind with
            | .spkMeas _ _ t => s.wr (Reg.SPK_CALDAT n) (wN (min milliohms 65535 * 65536 + t.toNat))
            | _ => s
          | none => s
        let cal := s.rd (Reg.SPK_CALDAT n)
        let t := if bitsOf cal 16 16 = 0 then none else some (coilTemp milliohms cal (bitN c.pilot.setup.toNat 4))
        let s := match t with
          | some t => s.wr (Reg.SPK_COIL_TEMP n) (wN (bitsOf (wI t) 0 16))
          | none => s
        let cls := s.spkClass milliohms t
        let s := s.updSpk n (fun c => { c with cls := cls })
        let s := s.measArrive n (fun w => if isMeas w n 1 || isMeas w n 3 then
          some (wN milliohms, wI (t.getD 0), wN cls) else none)
        .next (s.classAct n cls milliohms t dt)
    else .next s
  | none => .next s

/-! ## Power cap -/

/-- Limit of a cap mode in mW; none when off (R158). -/
def State.capLimit (s : State) (mode : Nat) : Option Nat := match mode with
  | 0 => none | 1 => some 15000 | 2 => some 100000 | _ => some (100 * s.fld Fl.SPK_CAP.CUSTOM_W)

/-- Since when a measure has been below 80 % of its limit. -/
def lowSince (since : Option DT) (mw : Nat) (lim : Option Nat) (dt : DT) : Option DT := match lim with
  | none => none
  | some l => if 10 * mw < 8 * l then (match since with
      | some d => some d
      | none => some dt) else none

/-- May the factor rise: no cap, or the measure has been below 80 % for 1 s? -/
def mayRise (since : Option DT) (lim : Option Nat) (dt : DT) : Bool := match lim, since with
  | none, _ => true
  | some _, some d => decide (d.toNat + 1000000000 ≤ dt.toNat)
  | some _, none => false

/-- Over 90 % of a limit. -/
def over90 (mw : Nat) (lim : Option Nat) : Bool := match lim with
  | none => false
  | some l => decide (9 * l < 10 * mw)

/-- The fall in dB of an update of 1 ms that the manual leaves open, up to 6/100 dB (R158): a rate of 6 dB per 100 ms. -/
def capFall (mw : Nat) (lim : Option Nat) : Rat := match lim with
  | none => 0
  | some l => if over90 mw lim then
      (let db := Config.capFall mw l
       if db < 0 then 0 else if 6 / 100 < db then 6 / 100 else db) else 0

/-- A factor raised by a level change in dB, at most to one. -/
def dbUp (f db : Rat) : Rat :=
  let g := f * dbRatio db
  if g < f then f else if 1 < g then 1 else g

/-- A factor lowered by a level change in dB. -/
def dbDown (f db : Rat) : Rat :=
  let g := f * dbRatio (-db)
  if f < g then f else g

/-- SPK_CAP_LIMIT when a cap factor leaves one, for the first time or after 10 s at one (R165). -/
def State.capLog (s : State) (n who mw lim : Nat) (was : Rat) (dt : DT) : State :=
  let c := s.spkCh n
  if was = 1 ∧ c.cap < 1 then
    let due := match c.capOne with
      | none => true
      | some d => decide (d.toNat + 10000000000 ≤ dt.toNat)
    if due then s.logAt Src.SPK 0x4008 2 dt (wN who) (wN mw) (wN lim) else s
  else s

/-- One channel's cap factor in an update: its own measure first, then the total's. -/
def State.capChan (s : State) (n mw tot : Nat) (dt : DT) : State :=
  let lim := s.capLimit (if n = 0 then s.fld Fl.SPK_CAP.MODE0 else s.fld Fl.SPK_CAP.MODE1)
  let limT := s.capLimit (s.fld Fl.SPK_CAP.MODE_TOT)
  let c := s.spkCh n
  let low := lowSince c.capLow mw lim dt
  let was := c.cap
  let ownOver := over90 mw lim
  let totOver := over90 tot limT
  -- a fall for the total is the same for both channels; with the channel's own, the larger of the two
  let db := max (capFall mw lim) (capFall tot limT)
  let cap := if db = 0 then c.cap else dbDown c.cap db
  let cap := if !ownOver && !totOver && mayRise low lim dt && mayRise s.spk.totLow limT dt then dbUp cap (3 / 1000) else cap
  let s := s.setSpk n { c with cap := cap, capLow := low, capOne := if cap = 1 then (if was = 1 then c.capOne else some dt) else c.capOne }
  if ownOver then s.capLog n n mw (lim.getD 0) was dt else s.capLog n 2 tot (limT.getD 0) was dt

/-- SPK_PMEAN_UPDATE (R157, R158). -/
def execSpkPmeanUpdate (mw0 mw1 : Nat) (dt : DT) (s : State) : Host.Outcome State Fault Refusal :=
  let s := s.advance dt
  let tot := mw0 + mw1
  let s := ((s.wr (Reg.SPK_PMEAN 0) (wN mw0)).wr (Reg.SPK_PMEAN 1) (wN mw1)).wr (Reg.SPK_PMEAN 2) (wN tot)
  let s := { s with spk := { s.spk with totLow := lowSince s.spk.totLow tot (s.capLimit (s.fld Fl.SPK_CAP.MODE_TOT)) dt } }
  .next ((s.capChan 0 mw0 tot dt).capChan 1 mw1 tot dt)

/-- SPK_CAP_TRIP (R159): the backstop latches the channel; it does not retry. -/
def execSpkCapTrip (n mw : Nat) (dt : DT) (s : State) : Host.Outcome State Fault Refusal :=
  let s := s.advance dt
  match s.capLimit (if n = 0 then s.fld Fl.SPK_CAP.MODE0 else s.fld Fl.SPK_CAP.MODE1) with
  | some l =>
    if n < 2 ∧ 5 * l < 4 * mw ∧ !(s.spkCh n).capTrip then
      let s := (s.setBit Reg.SPK_FAULT (16 + n)).spkLatch n dt 17 0x4009 4 (wN mw) (wN l)
      .next (s.updSpk n (fun c => { c with capTrip := true, retry := .none }))
    else .next s
  | none => .next s

/-! ## Rail, supply and temperature -/

/-- SPK_BST_OVP (R153): a comparator trips; both channels latch. -/
def execSpkBstOvp (comparator mv : Nat) (dt : DT) (s : State) : Host.Outcome State Fault Refusal :=
  let s := s.advance dt
  if (comparator = 1 ∧ 27500 ≤ mv) ∨ (comparator = 2 ∧ 28500 ≤ mv) then
    let s := { s with spk := { s.spk with ovp := Nat.lor s.spk.ovp comparator, bst := mv } }
    let s := (s.setFld Fl.SPK_FAULT.BST_OVP 1).spkNote comparator 0 0x400A 5 (wN mv) 0
    .next ((s.spkLatch 0 dt 1 0 0 0 0).spkLatch 1 dt 1 0 0 0 0)
  else .next s

/-- A bridge stops with both legs at PGND; an attempt under way ends, and the schedule counts from here. -/
def spkStop (dt : DT) (c : SpkCh) : SpkCh :=
  { c with fault := facZero, drive := false, seq := none, pilot := { c.pilot with win := none },
           retry := if c.retry == .clamp || isProbe c.retry then .sched dt else c.retry }

/-- PVDD_FAULT (R154): the bridges and the boost stop. -/
def execPvddFault (isOver : Bool) (mv : Nat) (dt : DT) (s : State) : Host.Outcome State Fault Refusal :=
  let s := s.advance dt
  if (if isOver then 22000 < mv else mv < 5500) then
    let s := { s with spk := { s.spk with pvddBad := true, enReq := false, pvdd := mv, ch0 := spkStop dt s.spk.ch0, ch1 := spkStop dt s.spk.ch1 },
                      sup := { s.sup with pvdd := false } }
    let s := s.setFld (if isOver then Fl.SPK_FAULT.PVDD_OV else Fl.SPK_FAULT.PVDD_UV) 1
    .next (s.logAt Src.SPK 0x400B 4 dt (wN (wB isOver)) (wN mv) 0)
  else .next s

/-- PVDD_RETURN (R154): PVDD has been back for 10 ms; the channels re-enable from the next boundary. -/
def execPvddReturn (dt : DT) (s : State) : Host.Outcome State Fault Refusal :=
  let s := s.advance dt
  if s.spk.pvddBad ∨ s.sup.pvdd = false then
    .next { s with spk := { s.spk with pvddBad := false, enReq := true }, sup := { s.sup with pvdd := true } }
  else .next s

/-- A thermal factor towards a target on both channels. -/
def State.dieGo (s : State) (tgt : Rat) (n : Nat) : State :=
  { s with spk := { s.spk with ch0 := { s.spk.ch0 with die := facGo s.spk.ch0.die tgt n },
                               ch1 := { s.spk.ch1 with die := facGo s.spk.ch1.die tgt n } } }

/-- Above 150 °C a sequence or an attempt under way ends. -/
def spkHalt (dt : DT) (c : SpkCh) : SpkCh :=
  { c with seq := none, retry := if c.retry == .clamp || isProbe c.retry then .sched dt else c.retry }

/-- DIE_THERMAL (R154): the junction crosses 140, 150 or 130 °C. -/
def execDieThermal (tenths : Int) (dt : DT) (s : State) : Host.Outcome State Fault Refusal :=
  let s := (s.advance dt).wr Reg.TOP_TEMP (wN (bitsOf (wI tenths) 0 16))
  if 1500 < tenths then
    if s.spk.dieLvl < 2 then
      let s := { s.dieGo 0 8 with spk := { (s.dieGo 0 8).spk with dieLvl := 2 } }
      let s := (s.updSpk 0 (spkHalt dt)).updSpk 1 (spkHalt dt)
      .next ((s.setFld Fl.SPK_FAULT.THERMAL 1).logAt Src.SPK 0x400C 4 dt 1 (wI tenths) 0)
    else .next s
  else if 1400 < tenths then
    if s.spk.dieLvl < 1 then
      let s := { s.dieGo (1 / 2) 512 with spk := { (s.dieGo (1 / 2) 512).spk with dieLvl := 1 } }
      .next (s.logAt Src.SPK 0x400C 4 dt 0 (wI tenths) 0)
    else .next s
  else if tenths < 1300 then
    if 0 < s.spk.dieLvl then
      let re := decide (s.spk.dieLvl = 2)
      let up (c : SpkCh) : SpkCh := { c with die := facOne, fault := facZero, drive := false }
      let s := if re then (s.updSpk 0 up).updSpk 1 up else s.dieGo 1 32
      let s := { s with spk := { s.spk with dieLvl := 0, enReq := s.spk.enReq || re } }
      .next (s.logAt Src.SPK 0x400C 4 dt 2 (wI tenths) 0)
    else .next s
  else .next s

/-! ## The loudspeakers' part of tick and step boundaries -/

/-- The thermal factor: the lower of the coil's and the junction's (R154). -/
def spkTherm (c : SpkCh) : Rat := min c.coil.cur c.die.cur

/-- The factors that act before the interpolator's output, and all six (R134). The rail factor acts at the modulator
input (R140). -/
def spkLevel (c : SpkCh) : Rat := c.mute.cur * c.fault.cur * c.state.cur * spkTherm c * c.cap
def spkFactor (c : SpkCh) : Rat := spkLevel c * c.rail

/-- Advances the linear ramps by one of S parts of a tick (R134). -/
def spkRamps (S : Nat) (c : SpkCh) : SpkCh :=
  { c with mute := facTickS c.mute S, fault := facTickS c.fault S, state := facTickS c.state S, coil := facTickS c.coil S,
           die := facTickS c.die S }

/-- A pilot at a boundary: its ramp, its replacement, the start of its windows (R143, R162); `ok` says whether it may
run. -/
def pilotTick (p : Pilot) (ok : Bool) (bdt : DT) (setup : Word) : Pilot :=
  let p := { p with amp := facTick p.amp, held := !ok }
  if p.kind = 0 then p
  else if p.amp.tgt = 0 then
    if facMoving p.amp then p
    else if p.next ≠ 0 then pilotNew p p.next bdt setup
    else { p with kind := 0, win := none }
  else if !ok then { p with win := none }
  else if facMoving p.amp then p
  else match p.win with
    | none => { p with win := some bdt, setup := setup }
    | some _ => p

/-- The scheduled rows of a loudspeaker's sequence at a boundary (Table AO-7). -/
def spkSched (s : State) (c : SpkCh) : SpkCh := match c.seq with
  | some q => match q.kind with
    | .filter | .range =>
      if q.switched && !q.up && s.reached q.t 64 then spkUp c s.time.ts
      else if q.up && s.reached q.t 96 then spkMute { c with seq := none } q.cfg else c
    | .enable =>
      if q.up && s.reached c.upAt 32 then spkMute { c with seq := none } q.cfg
      else if c.settled && !q.up && s.bstReached then spkUp c s.time.ts else c
    | .disable => c
  | none => c

/-- Requests and waits of a loudspeaker at a boundary: the enable after a supply or temperature fault, the probe that
follows a clamp, the wake ramp that waits at most 10 ms (R151, R154, R155). -/
def State.spkReq (s : State) (n : Nat) : State :=
  let c := s.spkCh n
  let t := s.time.ts
  let w := s.rd (Reg.SPK_CFG n)
  let c := if s.spk.enReq && cfgEn w && s.spkFree n && c.seq.isNone then
      { c with fault := facZero, seq := some ⟨.enable, t, w, false, false⟩, settled := false } else c
  let c := if s.spk.clamp && s.spk.low && c.retry == .clamp && s.stageOk then
      { c with retry := .probe s.time.bdt, fault := facAt (1 / 10), drive := true } else c
  let c := match c.wake with
    | some d => if s.bstReached || decide (d.toNat + 10000000 ≤ s.time.bdt.toNat) then
        { c with wake := none, state := facGo c.state 1 32 } else c
    | none => c
  let c := if s.spk.dieLvl = 2 && !facMoving c.die then { c with drive := false } else c
  s.setSpk n c

/-- A loudspeaker channel's boundary work before the commits. `trail` says whether the Trail owns it. -/
def State.spkTickCh (s : State) (trail : Bool) (n : Nat) : State :=
  let c := s.spkCh n
  let c := if trail then c else spkRamps 1 c
  let c := spkSched s c
  let s := (s.setSpk n c).spkReq n
  let c := s.spkCh n
  let ok := c.fault.cur == 1 && c.state.cur == 1 && !c.latch && c.retry == .none
    && (c.limits.filter (fun d => decide (s.time.bdt.toNat ≤ d.toNat + 64000))).isEmpty
  s.setSpk n { c with pilot := pilotTick c.pilot ok s.time.bdt (s.rd Reg.SPK_PILOT) }

/-- The arrivals of one event on the SPK_WATCH waits (R152, R163). -/
def State.spkReport (s : State) (e : SpkEv) : State :=
  let s := s.host.waits.foldl (fun s w => match w.kind with
    | .spkWatch c m =>
      let hit := Nat.land e.bits m.toNat
      if (c == e.chan || c == 255) && hit != 0 then
        let b := ((List.range 8).find? (bitN hit)).getD 0
        s.arrive w .ok (wN (b + 256 * e.chan)) e.limcnt e.bst b
      else s
    | _ => s) s
  if e.code = 0 then s else s.log Src.SPK e.code e.sev (wN e.chan) e.p1 e.p2

/-- The loudspeakers at a tick boundary, before the commits; then the events since the last one are reported (R152). -/
def State.spkTick (s : State) (trail0 trail1 : Bool) : State :=
  let s := (s.spkTickCh trail0 0).spkTickCh trail1 1
  let s := { s with spk := { s.spk with enReq := false } }
  if s.spk.clamp && s.spk.low && s.noAttempt then s.clampOff else s

def State.spkEvents (s : State) : State :=
  let l := s.spk.evs
  l.foldl State.spkReport { s with spk := { s.spk with evs := [] } }

/-- Need of a sample in mV: its magnitude times FSV, plus the headroom (R137). -/
def State.need (s : State) (c : SpkCh) (x : Rat) : Rat := (if x < 0 then -x else x) * (fsvMv c.fsv : Rat) + (s.spkHr : Rat)

/-- One tick in ns. -/
def tickNs (rate : Nat) : Rat := 1000000000 / (fdHz rate : Rat)

/-- A Thicket-rate sample read at this boundary enters the plan with the DT at which it plays (R132, R137). -/
def State.spkRead (s : State) (n : Nat) (x : Int) : State :=
  let c := s.spkCh n
  let v := (x : Rat) / 2 ^ 31 * spkFactor c
  let tk : Rat := (if c.filt = 1 then 20 else 4) + 18 / (ccPerTk s.clk.rate : Rat)
  let at_ := s.time.bdt + BitVec.ofNat 64 (tk * tickNs s.clk.rate).floor.toNat
  let keep := c.plan.filter (fun p => decide (s.time.bdt.toNat < p.2.toNat))
  s.setSpk n { c with plan := (s.need c v, at_) :: keep }

/-- The Trail floor of a channel (R139). -/
def State.trailFloor (s : State) (n : Nat) : Rat :=
  let f : Rat := match spkTrailHr (s.rd (Reg.SPK_CFG n)) with
    | 0 => 1 / 2 | 1 => 71 / 100 | _ => 1
  f * (fsvMv (s.spkCh n).fsv : Rat) + (s.spkHr : Rat)

/-- What a channel asks of the plan at a DT (R137 to R139). -/
def State.chanPlan (s : State) (n : Nat) (trail : Bool) (now : DT) : Rat :=
  let c := s.spkCh n
  if !cfgEn (s.rd (Reg.SPK_CFG n)) then 0
  else
    let base : Rat := if c.tfloor then s.trailFloor n else 0
    if trail then max base c.trailMv
    else
      let p := c.plan.foldl (fun m q => if now.toNat < q.2.toNat then
        max m (q.1 - s.spkSlew * ((q.2.toNat : Rat) - (now.toNat : Rat))) else m) base
      if 2 ≤ s.clk.rate then max p ((fsvMv c.fsv : Rat) + (s.spkHr : Rat) - s.spkSlew * (2 * tickNs s.clk.rate)) else p

/-- BOOST_TARGET (R137 to R139, R149). -/
def State.boostTarget (s : State) (trail0 trail1 : Bool) : State :=
  let now := s.time.dt
  let plan := min 26000 (max 8000 (max (s.chanPlan 0 trail0 now) (s.chanPlan 1 trail1 now)))
  let step := tickNs s.clk.rate / (1000 * (stepsPerTk s.clk.rate : Rat))
  let t := if s.spk.clamp then 8000 else if s.spk.target ≤ plan then plan else max plan (s.spk.target - s.spkRel * step)
  { s with spk := { s.spk with target := t } }

/-- The boost in a sleep state (R155): it idles with BST_OUT at PVDD in Shade and Glade; in Clearing and Moss BST_OUT is
discharged. The target is at its least, 8 V, as no sample is left to plan for. -/
def State.boostSleep (s : State) (chosen : Nat) : State :=
  { s with spk := { s.spk with bst := if chosen ≤ 2 then s.spk.pvdd else 0, target := 8000 } }

/-- Carrier frequency in Hz (R130). -/
def carrierHz (rate : Nat) : Nat := if family441 rate then 705600 else 768000

/-- The rail factor in one carrier period with a value at the modulator input (R140). -/
def State.railFactor (s : State) (n : Nat) (x : Word) : State :=
  let c := s.spkCh n
  let v := (x.toInt.natAbs : Rat) / 2 ^ 31 * (fsvMv c.fsv : Rat)
  let capable : Rat := (s.spk.bst : Rat) - 1000
  if capable < v then
    let ratio := max 0 (capable / v)
    let s := s.setSpk n { c with rail := min c.rail ratio, acting := true }
    let cnt := bitsOf (s.rd Reg.SPK_RAILCNT) (16 * n) 16
    let s := s.wr Reg.SPK_RAILCNT (withBits (s.rd Reg.SPK_RAILCNT) (16 * n) 16 (min (cnt + 1) 65535))
    s.logLim Src.SPK 0x400D 1 n 1 1 s.time.dt (wN n) 1 0
  else s.setSpk n { c with rail := dbUp c.rail (20 / (carrierHz s.clk.rate : Rat)), acting := false }

/-- A sine at a frequency in Hz, a time in ns after its phase zero: a factor from −1 to 1. -/
def sineAt (hz : Rat) (ns : Rat) : Rat := sinTurn (hz * ns / 1000000000)

/-- The pilot of a channel at a time, in parts of FSV (R143): −40 dB, at SFREQ in 0.25 Hz or at UFREQ in kHz; zero while
it is suspended. -/
def pilotAt (p : Pilot) (ns : Rat) : Rat :=
  let hz : Rat := if p.kind = 2 then 1000 * (bitsOf p.setup 16 8 : Rat) else (bitsOf p.setup 8 8 : Rat) / 4
  if p.kind = 0 || p.held then 0 else p.amp.cur / 100 * sineAt hz (ns - (p.since.toNat : Rat))

/-- A level as Q1.31, where the manual leaves its rounding open. -/
def q31Free (x : Rat) : Int := satQ31 (roundFree (x * 2 ^ 31))

/-- What a loudspeaker channel gives its interpolator (R134, R151): its sample times the level factors; in a probe, a 1 kHz
sine at −20 dBFS in place of the sample, the fault factor being held at 1/10. -/
def State.spkValue (s : State) (n : Nat) (v : Int) : Int :=
  let c := s.spkCh n
  match c.retry with
  | .probe t0 => q31Free (c.fault.cur * sineAt 1000 ((s.time.dt.toNat : Rat) - (t0.toNat : Rat)))
  | _ => if c.drive && !s.blockStopped 4 then scaleQ31 v (spkLevel c) else 0

/-- SPK_RAIL_LIMIT (R140) in one carrier period with the interpolator's value `x` at a time; the modulator is given that
value times the rail factor, and the pilot. -/
def State.railPeriod (s : State) (n : Nat) (x : Word) (ns : Rat) : State :=
  let s := s.railFactor n x
  s.updSpk n (fun c => { c with out := q31Free ((x.toInt : Rat) / 2 ^ 31 * c.rail + pilotAt c.pilot ns) })

/-- The carrier periods of a step, from a time on. -/
def State.railRun (s : State) (n : Nat) (ns : Rat) : List Word → State
  | [] => s
  | x :: l => (s.railPeriod n x ns).railRun n (ns + 1000000000 / (carrierHz s.clk.rate : Rat)) l

/-- The loudspeakers at a step boundary: Trail-owned ramps, BST_OUT, the target and the rail limiter. -/
def State.spkStep (s : State) (trail0 trail1 : Bool) (bst pvdd : Nat) (mods : List (Nat × List Word)) : State :=
  let S := stepsPerTk s.clk.rate
  let s := if trail0 then s.updSpk 0 (spkRamps S) else s
  let s := if trail1 then s.updSpk 1 (spkRamps S) else s
  let s := { s with spk := { s.spk with bst := bst, pvdd := pvdd } }
  let s := s.boostTarget trail0 trail1
  mods.foldl (fun s m => if m.1 < 2 && (s.spkCh m.1).drive then s.railRun m.1 (s.time.dt.toNat : Rat) m.2 else s) s

/-- The pilots when a HOUSE_RATE stops the sinks at T (R162): each ramps out with them over 32 tk. The kind in force is the
one that comes back at S, but for an ultrasonic pilot that the new rate does not allow. -/
def State.pilotRateStop (s : State) (new : Nat) : State :=
  [0, 1].foldl (fun s n => s.updSpk n (fun c =>
    let k := pilotKind c.pilot
    { c with pilot := { c.pilot with
      amp := facGo c.pilot.amp 0 32, next := if k = 2 ∧ new < 2 then 0 else k, win := none } })) s

/-- A pilot resumes at S with its ramp and a new window (R162). -/
def State.pilotRateResume (s : State) : State :=
  [0, 1].foldl (fun s n => s.updSpk n (fun c =>
    let k := pilotKind c.pilot
    { c with pilot := if k = 0 then Pilot.init else pilotNew c.pilot k s.time.bdt (s.rd Reg.SPK_PILOT) })) s

end Sys2Proof.Machine
end

