-- ==== Sys2Proof/Machine/Thicket.lean ====
section
/-! DEFINITION. The Thicket (chapter 6): selectors and crossfaders, node and bus gain banks, THK_SWAP, THK_FADER,
ROUTE_SET, TONE_SET, meters, and the engine's work in a tick. -/
namespace Sys2Proof.Machine

/-! ## Addresses (Tables AR-5, AR-6) -/

abbrev noSrc : ChAddr := 0xFFFF
def clsOf (a : ChAddr) : Nat := a.toNat / 1024
def idxOf (a : ChAddr) : Nat := a.toNat % 1024
/-- The address of a class and an index, as the key of the sparse tables. -/
def addrOf (cls i : Nat) : Nat := cls * 1024 + i

/-- Indices of a source class (Table AR-5); none for an undefined class. -/
def sourceMax (cls : Nat) : Option Nat := match cls with
  | 0x00 => some 10 | 0x01 => some 8 | 0x02 => some 256 | 0x03 => some 512 | 0x04 => some 256 | 0x05 => some 256
  | 0x06 => some 256 | 0x07 => some 288 | 0x08 => some 16 | 0x09 => some 32 | 0x0A => some 8 | 0x0B => some 4
  | _ => none

/-- Indices of a sink class (Table AR-6). -/
def sinkMax (cls : Nat) : Option Nat := match cls with
  | 0x20 => some 8 | 0x21 => some 4 | 0x22 => some 2 | 0x23 => some 256 | 0x24 => some 512 | 0x25 => some 256
  | 0x26 => some 256 | 0x27 => some 32 | 0x28 => some 384 | 0x29 => some 512
  | _ => none

def inMax (m : Option Nat) (i : Nat) : Bool := match m with
  | some n => decide (i < n)
  | none => false

def isSource (a : ChAddr) : Bool := inMax (sourceMax (clsOf a)) (idxOf a)
def isSink (a : ChAddr) : Bool := inMax (sinkMax (clsOf a)) (idxOf a)

/-- What a selector accepts: a source address, or 0xFFFF for none (R26, R206). -/
def srcOk (a : ChAddr) : Bool := a == noSrc || isSource a

/-- Output channel 0-13 of a line, hp or spk sink: the sinks that a Trail channel may own (R27). -/
def outOf (a : ChAddr) : Option Nat :=
  if isSink a then (match clsOf a with
    | 0x20 => some (idxOf a)
    | 0x21 => some (8 + idxOf a)
    | 0x22 => some (12 + idxOf a)
    | _ => none) else none

/-- The sink address of an output channel. -/
def outAddr (k : Nat) : ChAddr :=
  BitVec.ofNat 16 (if k < 8 then addrOf 0x20 k else if k < 12 then addrOf 0x21 (k - 8) else addrOf 0x22 (k - 12))

/-- N of a ramp class (Table TH-1). -/
def rampTk (cls : Nat) : Nat := match cls with
  | 0 => 0 | 1 => 16 | 2 => 64 | 3 => 256 | 4 => 1024 | _ => 4096

/-- The last tick of a ramp of length n from T; T itself for n = 0. -/
def lastTick (t : TS) (n : Nat) : TS := t + BitVec.ofNat 32 (n - 1)

/-! ## Selectors -/

abbrev fullShare : Int := 0x100000
abbrev Sel.init : Sel := ⟨noSrc, ⟨0x100000, 0x100000, 0x100000, 0x100000, 0, 0, false⟩, [], none, noSrc, none, none⟩
def State.selOf (s : State) (a : ChAddr) : Sel := smGet s.sel a.toNat Sel.init
def State.setSel (s : State) (a : ChAddr) (x : Sel) : State := { s with sel := smSet s.sel a.toNat x }

/-- The value of a source address in the tick in force; 0xFFFF reads zero. -/
def State.srcAt (s : State) (a : ChAddr) : Smp := if a = noSrc then ⟨0, 0⟩ else s.src a.toNat

/-- The mix of a crossfader (R183): each source by its share, rounded and saturated. -/
def State.selMix (s : State) (x : Sel) : Smp :=
  if x.fades.isEmpty && x.up.cur == fullShare then s.srcAt x.src
  else
    let v := s.srcAt x.src
    let acc := x.fades.foldl (fun a f => a + (s.srcAt f.1).val * f.2.cur) (v.val * x.up.cur)
    let tag := x.fades.foldl (fun t f => if f.2.cur = 0 then t else max t (s.srcAt f.1).tag) v.tag
    ⟨satSym (shrAway acc 20), tag⟩

/-- The ramp that a change of the house rate gives every sink (Table TK-3). -/
def State.rateFade (s : State) (v : Smp) : Smp :=
  if s.clk.fade.cur = fullShare then v else ⟨shrAway (v.val * s.clk.fade.cur) 20, v.tag⟩

/-- What a sink other than a lane reads in this tick. -/
def State.sinkVal (s : State) (a : ChAddr) : Smp := s.rateFade (s.selMix (s.selOf a))

/-- A selector's crossfade at a boundary. -/
def selTick (x : Sel) : Sel :=
  { x with up := grTick x.up, fades := (x.fades.filter (fun f => !grOver f.2)).map (fun f => (f.1, grTick f.2)) }

/-- A new source by a ramp of n ticks: what was in force fades out (R183). -/
def selFade (x : Sel) (new : ChAddr) (n : Nat) : Sel :=
  if n = 0 then { x with src := new, up := grAt fullShare, fades := [], follow := none }
  else { x with src := new, up := grGo 0 fullShare n false, fades := (x.src, grGo x.up.prev 0 n false) :: x.fades, follow := none }

/-! ## Lanes -/

def State.laneSrc (s : State) (l : Nat) : ChAddr := BitVec.ofNat 16 (s.fld (Fl.THK_LANE.SRC l))
def State.setLaneSrc (s : State) (l : Nat) (a : ChAddr) : State := s.setFld (Fl.THK_LANE.SRC l) a.toNat

/-- The value of a lane (R166, R184). -/
def State.laneVal (s : State) (l : Nat) : Smp :=
  let b := s.srcAt (s.laneSrc l)
  match smGet? s.thk.dual l with
  | none => s.rateFade b
  | some d =>
    let a := s.srcAt d.old
    let x : Rat := ((a.val * ((d.n - d.i : Nat) : Int) + b.val * (d.i : Int) : Int) : Rat) / (d.n : Rat)
    s.rateFade ⟨roundAway x, if d.i < d.n then max a.tag b.tag else b.tag⟩

/-- The dual-feed slots at a boundary: the next tick of each, or the end from boundary T+N. -/
def dualTick (m : SMap DualFeed) : SMap DualFeed :=
  (m.filter (fun p => decide (p.2.i < p.2.n))).map (fun p => (p.1, { p.2 with i := p.2.i + 1 }))

/-! ## Who owns an output (R27, R202, R203) -/

/-- The step offset of the Trail commit of this boundary that names a channel. -/
def dueStep (s : State) (c : Nat) : Nat :=
  match s.trl.due.find? (fun d => d.t == s.time.ts && bitN d.mask c) with
  | some d => d.s
  | none => 0

/-- The Trail channel, with its step offset, that releases output k at the boundary in force: by a command of this
boundary's commit set, or one that has been applied. -/
def State.trlRelNow (s : State) (k : Nat) : Option (Nat × Nat) :=
  match s.trl.relTrl.find? (fun x => x.1 == k) with
  | some x => some x.2
  | none => match smGet? s.trl.rel k with
    | some (c, t) => if t = s.time.ts then some (c, dueStep s c) else none
    | none => none

/-- Does a Trail channel own output k after the releases of the boundary in force: the owner, unless it is the one that
releases (R202)? A claim of the same boundary counts. -/
def State.trlHolds (s : State) (k : Nat) : Bool := match smGet? s.trl.owner k, s.trlRelNow k with
  | none, _ => false
  | some o, some (c, _) => o != c
  | some _, none => true

/-- The Trail channel that claims output k at the boundary in force. -/
def State.trlClaimNow (s : State) (k : Nat) : Option (Nat × Nat) :=
  match s.trl.clmTrl.find? (fun x => x.1 == k) with
  | some x => some x.2
  | none => match smGet? s.trl.claim k, smGet? s.trl.owner k with
    | some t, some c => if t = s.time.ts then some (c, dueStep s c) else none
    | _, _ => none

/-- A handover (R203): the selector follows the Trail channel; `toTrail` says which way. Logged once. -/
def State.handover (s : State) (k c : Nat) (toTrail : Bool) : State :=
  let a := outAddr k
  let x := s.selOf a
  if x.follow = some c then s
  else
    let old := match x.fades with
      | f :: _ => f.1
      | [] => noSrc
    let x := if toTrail then { x with follow := some c, fOld := old, fades := [], up := grAt fullShare }
             else { x with follow := some c, fOld := noSrc, fades := [], up := grAt fullShare }
    (s.setSel a x).log Src.TRL 0x5102 1 (wN a.toNat) (wN (wB (!toTrail))) (wN c)

/-- The last tick of a 64-step crossfade that starts at step offset j of the tick in force. -/
def State.stepEnd (s : State) (j n : Nat) : TS := s.time.ts + BitVec.ofNat 32 ((j + n - 1) / stepsPerTk s.clk.rate)

/-! ## ROUTE_SET -/

def routeSetValid (p : RouteSetP) : Bool := isSink p.sink && srcOk p.source && decide (p.ramp ≤ 5)

/-- Check 5 of ROUTE_SET: dual-feed slots (R185), ownership of outputs (R27, R202). -/
def routeSetRefusal (s : State) (p : RouteSetP) : Status :=
  if clsOf p.sink = 0x28 then
    let l := idxOf p.sink
    if s.laneSrc l = p.source then .ok
    else if (smGet? s.thk.dual l).isSome then .busy
    else if p.ramp ≠ 0 ∧ 64 ≤ s.thk.dual.length then .busy
    else .ok
  else match outOf p.sink with
    | some k =>
      if p.source = noSrc ∨ (s.selOf p.sink).src = p.source then .ok
      else if s.trlHolds k then .conflict else .ok
    | none => .ok

/-- THK_DUAL_FULL for a refusal for want of a slot, by the slots as the check found them (R185). -/
def routeSetRefused (h : Hdr) (p : RouteSetP) (found : State) (st : Status) (s : State) : State :=
  if st = .busy ∧ clsOf p.sink = 0x28 ∧ (smGet? found.thk.dual (idxOf p.sink)).isNone then
    s.log Src.THK 0x5005 3 (wN (idxOf p.sink)) (wN (ringOf h)) 0
  else s

/-- The result of ROUTE_SET: previous source and last tick (Table TH-8). -/
def routeDone (s : State) (prev : ChAddr) (last : TS) : Done := ⟨s, .ok, wN prev.toNat, last, 0, false, false⟩

/-- ROUTE_SET at its commit boundary (R183 to R185, R202, R203, R206). -/
def routeSetEffect (p : RouteSetP) (s : State) : Done :=
  let t := s.time.ts
  let n := rampTk p.ramp
  if clsOf p.sink = 0x28 then
    let l := idxOf p.sink
    let old := s.laneSrc l
    if old = p.source then routeDone s old t
    else
      let s := s.setLaneSrc l p.source
      if n = 0 then routeDone s old t
      else routeDone { s with thk := { s.thk with dual := smSet s.thk.dual l ⟨old, n, 1⟩ } } old (lastTick t n)
  else
    let x := s.selOf p.sink
    if x.src = p.source then routeDone s x.src t
    else if clsOf p.sink = 0x29 then
      let s := s.setSel p.sink { x with src := p.source }
      let m := s.thk.meter
      let i := idxOf p.sink
      let s := { s with thk := { s.thk with meter := { m with changed := if m.changed.contains i then m.changed else i :: m.changed } } }
      routeDone s x.src t
    else
      let y := selFade x p.source n
      match outOf p.sink with
      | none => routeDone (s.setSel p.sink y) x.src (lastTick t n)
      | some k =>
        if p.source = noSrc then
          -- a release; in a handover the selector follows the Trail channel that claims the sink
          let y := { y with rel := some t, fades := if n = 0 then [(x.src, grGo fullShare 0 0 false)] else y.fades }
          let s := s.setSel p.sink y
          match s.trlClaimNow k with
          | some (c, j) => routeDone (s.handover k c true) x.src (s.stepEnd j 64)
          | none => routeDone s x.src (lastTick t n)
        else
          let s := s.setSel p.sink { y with claim := if x.src = noSrc then some t else y.claim }
          match (if x.src = noSrc then s.trlRelNow k else none) with
          | some (c, j) => routeDone (s.handover k c false) x.src (s.stepEnd j 64)
          | none => routeDone s x.src (lastTick t n)

def execRouteSet (h : Hdr) (p : RouteSetP) (s : State) : Host.Outcome State Fault Refusal :=
  .next (s.runCmd h (.routeSet p) 0x0501 (routeSetValid p) true (routeSetRefusal s p) (routeSetEffect p)
    (routeSetRefused h p s))

/-! ## Node words and their in-use values -/

def nodeKey (l b : Nat) : Nat := b * 512 + l
def wordGain (w : Word) : Int := signedOf 24 (bitsOf w 0 24)
def wordMute (w : Word) : Bool := bitN w.toNat 28
def wordRamp (w : Word) : Nat := bitsOf w 24 4
/-- The target of a word (R169). -/
def wordTarget (w : Word) : Int := if wordMute w then 0 else wordGain w
abbrev busReset : Word := 0x00100000

def State.actNode (s : State) (k : Nat) : Word := smGet s.thk.act k 0
def State.actBusW (s : State) (b : Nat) : Word := smGet s.thk.actBus b busReset
/-- The in-use values of this tick (R169). -/
def State.nodeUse (s : State) (k : Nat) : Int := match smGet? s.thk.ramps k with
  | some r => r.cur
  | none => wordTarget (s.actNode k)
def State.busUse (s : State) (b : Nat) : Int := match smGet? s.thk.busRamps b with
  | some r => r.cur
  | none => wordTarget (s.actBusW b)
/-- The in-use values of the tick before, from which a ramp that starts now goes (R173, R208). -/
def State.nodePrev (s : State) (k : Nat) : Int := match smGet? s.thk.ramps k with
  | some r => r.prev
  | none => wordTarget (s.actNode k)
def State.busPrev (s : State) (b : Nat) : Int := match smGet? s.thk.busRamps b with
  | some r => r.prev
  | none => wordTarget (s.actBusW b)

/-- Stores a word in a sparse bank; the default value is not listed. -/
def bankSet (m : SMap Word) (k : Nat) (d v : Word) : SMap Word := if v = d then smDel m k else smSet m k v

/-! ## THK_SWAP -/

def thkSwapValid (mode : Nat) : Bool := decide (mode ≤ 1)

/-- Check 5 of THK_SWAP (R178). -/
def thkSwapRefusal (s : State) : Status :=
  if !s.flag Fl.THK_CTRL.SWAP_EN then .denied
  else if s.flag Fl.THK_AP_STATUS.BAD then .invalid
  else if s.thk.swapAt = some s.time.ts then .busy else .ok

/-- The keys of some banks and ramps, each once, rising. -/
def keysOf {α β γ : Type} (a : SMap α) (b : SMap β) (c : SMap γ) : List Nat :=
  let m : SMap Unit := a.foldl (fun m p => smSet m p.1 ()) []
  let m := b.foldl (fun m p => smSet m p.1 ()) m
  (c.foldl (fun m p => smSet m p.1 ()) m).map (·.1)

/-- The ramps that a change of active words starts: for each key whose in-use value differs from its new target, over
the class of the new word (R177). The number of ramps and the longest length come with them. -/
def swapRamps (keys : List Nat) (prev : Nat → Int) (new : Nat → Word) : SMap GRamp × Nat × Nat :=
  keys.foldl (fun (acc : SMap GRamp × Nat × Nat) k =>
    let w := new k
    let v := wordTarget w
    if prev k = v then acc
    else (smSet acc.1 k (grGo (prev k) v (rampTk (wordRamp w)) false), acc.2.1 + 1, max acc.2.2 (rampTk (wordRamp w))))
    ([], 0, 0)

/-- THK_SWAP at its commit boundary (R177, R207). A swap is applied before the faders of the same boundary (R182), so
the caller commits swaps first. -/
def thkSwapEffect (mode : Nat) (s : State) : Done :=
  let t := s.time.ts
  let keys := keysOf s.thk.act s.thk.shd s.thk.ramps
  let bkeys := keysOf s.thk.actBus s.thk.shdBus s.thk.busRamps
  let newAct := s.thk.shd
  let newBus := s.thk.shdBus
  let (r, n, l) := swapRamps keys s.nodePrev (fun k => smGet newAct k 0)
  let (rb, nb, lb) := swapRamps bkeys s.busPrev (fun b => smGet newBus b busReset)
  let s := { s with thk := { s.thk with
    act := newAct, actBus := newBus, shd := if mode = 0 then s.thk.act else s.thk.shd,
    shdBus := if mode = 0 then s.thk.actBus else s.thk.shdBus, ramps := r, busRamps := rb, swapAt := some t } }
  let s := s.log Src.THK 0x5002 1 (wN mode) (wN n) (wN nb)
  ⟨s, .ok, wN n, lastTick t (max l lb), wN nb, true, false⟩

/-- A command that locks a shadow writes its write-back in every case (R176). -/
def State.runLocking (s : State) (h : Hdr) (c : Cmd) (opcode : Nat) (valid : Bool) (refusal : Status) (eff : State → Done) : State :=
  s.runCmd { h with want := true } c opcode valid true refusal eff

def execThkSwap (h : Hdr) (mode : Nat) (s : State) : Host.Outcome State Fault Refusal :=
  .next (s.runLocking h (.thkSwap mode) 0x0502 (thkSwapValid mode) (thkSwapRefusal s) (thkSwapEffect mode))

/-! ## THK_FADER -/

def thkFaderValid (p : FaderP) : Bool :=
  (decide (p.lane < 384) || p.lane == 65535) && decide (p.bus < 288) && wordRamp p.word == 0
    && bitsOf p.word 29 3 == 0 && decide (p.len < 65536)

/-- Fader slots in use (R181). -/
def State.faderSlots (s : State) : Nat := (s.thk.ramps.filter (fun p => p.2.slot && grRuns p.2)).length

/-- BUSY when a slot is needed and none is free (R181): those of running ramps, and those that the FADERs of this commit set
have taken, whether or not a SWAP of the set has ended their nodes' ramps. -/
def thkFaderRefusal (s : State) (p : FaderP) : Status :=
  if p.lane = 65535 ∨ p.len = 0 then .ok
  else
    let own := match smGet? s.thk.ramps (nodeKey p.lane p.bus) with
      | some r => r.slot && grRuns r
      | none => false
    let more := (s.thk.fresh.filter (fun k => !(match smGet? s.thk.ramps k with
      | some r => r.slot && grRuns r
      | none => false))).length
    if !own && !s.thk.fresh.contains (nodeKey p.lane p.bus) && decide (4096 ≤ s.faderSlots + more) then .busy else .ok

/-- A refused FADER is counted for its ring; the record of the tick follows (R181). -/
def thkFaderRefused (h : Hdr) (st : Status) (s : State) : State :=
  if st = .busy then { s with thk := { s.thk with fullCnt := smUpd s.thk.fullCnt (ringOf h) 0 (· + 1) } } else s

/-- THK_FADER_FULL, once in a tick for each ring (R181). -/
def State.faderFullLog (s : State) : State :=
  let l := s.thk.fullCnt
  l.foldl (fun s p => s.log Src.THK 0x5004 3 (wN p.1) (wN p.2) 0) { s with thk := { s.thk with fullCnt := [], fresh := [] } }

/-- THK_FADER at its commit boundary (R181, R182, R208). -/
def thkFaderEffect (p : FaderP) (s : State) : Done :=
  let t := s.time.ts
  let v := wordTarget p.word
  if p.lane = 65535 then
    let c0 := s.busPrev p.bus
    let s := { s with thk := { s.thk with actBus := bankSet s.thk.actBus p.bus busReset p.word,
                                          busRamps := smSet s.thk.busRamps p.bus (grGo c0 v p.len false) } }
    ⟨s, .ok, wN (bitsOf (wI c0) 0 24), lastTick t p.len, 0, false, false⟩
  else
    let k := nodeKey p.lane p.bus
    let c0 := s.nodePrev k
    let s := { s with thk := { s.thk with act := bankSet s.thk.act k 0 p.word,
                                          fresh := if p.len = 0 then s.thk.fresh else k :: s.thk.fresh.filter (· != k),
                                          ramps := smSet s.thk.ramps k (grGo c0 v p.len (decide (0 < p.len))) } }
    ⟨s, .ok, wN (bitsOf (wI c0) 0 24), lastTick t p.len, 0, false, false⟩

/-- THK_FADER; a fader that is refused for want of a slot is also logged. -/
def execThkFader (h : Hdr) (p : FaderP) (s : State) : Host.Outcome State Fault Refusal :=
  .next ((s.runCmd h (.thkFader p) 0x0503 (thkFaderValid p) true (thkFaderRefusal s p) (thkFaderEffect p)
    (thkFaderRefused h)).faderFullLog)

/-! ## Tones -/

abbrev Tone.init (i : Nat) : Tone := ⟨0, 0, ⟨0, 0, 0, 0, 0, 0, false⟩, 0, BitVec.ofNat 32 (i + 1), false⟩
def State.toneOf (s : State) (i : Nat) : Tone := smGet s.thk.tones i (Tone.init i)

/-- Is a sine frequency (Q24.8) within 1 Hz to 0.45 × Fd (R209)? -/
def toneFreqOk (freq rate : Nat) : Bool := decide (256 ≤ freq) && decide (freq * 100 ≤ 45 * 256 * fdHz rate)

def toneSetValid (s : State) (p : ToneSetP) : Bool :=
  decide (p.tone < 8) && decide (p.wave ≤ 3) && decide (p.ramp ≤ 5) && decide (0 ≤ p.level.toInt)
    && (p.wave != 1 || toneFreqOk p.freq.toNat s.clk.rate)

/-- TONE_SET at its commit boundary (R189, R209). -/
def toneSetEffect (p : ToneSetP) (s : State) : Done :=
  let x := s.toneOf p.tone
  let n := rampTk p.ramp
  let x :=
    if p.wave = 0 then { x with level := grGo x.level.prev 0 n false, off := true }
    else
      let start := x.wave != 1
      { x with wave := p.wave, freq := p.freq, off := false, phase := if start then 0 else x.phase,
               level := grGo x.level.prev p.level.toInt n false }
  okDone { s with thk := { s.thk with tones := smSet s.thk.tones p.tone x } }

def execToneSet (h : Hdr) (p : ToneSetP) (s : State) : Host.Outcome State Fault Refusal :=
  .next (s.runCmd h (.toneSet p) 0x0504 (toneSetValid s p) true .ok (toneSetEffect p))

/-- A tone's sample of a tick and its state after it. -/
def toneRun (i rate : Nat) (x : Tone) : Int × Tone :=
  if x.wave = 0 then (0, x)
  else
    let l := x.level.cur
    -- a maximal-length generator never leaves for the all-zero state
    let nx := BitVec.ofNat 32 (Config.noiseNext x.lfsr.toNat)
    let lf := if nx = 0 then x.lfsr else nx
    match x.wave with
    | 1 =>
      let ph := x.phase + (x.freq.toNat : Rat) / 256 / (fdHz rate : Rat)
      (satQ31 (roundFree ((l : Rat) * sinTurn x.phase)), { x with phase := ph - (ph.floor : Rat) })
    | 2 => (satQ31 (shrAway (l * x.lfsr.toInt) 31), { x with lfsr := lf })
    | _ => (satQ31 (shrAway (l * Config.pink i x.lfsr.toNat) 31), { x with lfsr := lf })

/-- A tone's level ramp at a boundary; a tone turned off ends when its ramp has ended. -/
def toneTick (x : Tone) : Tone :=
  if x.off && grOver x.level then { x with wave := 0, off := false, level := grAt 0 } else { x with level := grTick x.level }

/-! ## The Thicket in a tick -/

/-- The ramps at a boundary: those whose last tick has passed end, the others advance. -/
def rampsTick (m : SMap GRamp) : SMap GRamp := (m.filter (fun p => !grOver p.2)).map (fun p => (p.1, grTick p.2))

/-- The Thicket's, the tones' and the selectors' ramps at a boundary. -/
def State.thkRamps (s : State) : State :=
  { s with thk := { s.thk with ramps := rampsTick s.thk.ramps, busRamps := rampsTick s.thk.busRamps,
                               dual := dualTick s.thk.dual,
                               tones := s.thk.tones.map (fun p => (p.1, toneTick p.2)) },
           sel := s.sel.map (fun p => (p.1, selTick p.2)) }

/-- The sum of a bus (R170), and the highest quality tag among its open lanes. -/
def State.busSums (s : State) : SMap (Int × Nat) :=
  (keysOf s.thk.act s.thk.ramps ([] : SMap Unit)).foldl (fun m k =>
    let g := s.nodeUse k
    if g = 0 then m
    else
      let v := s.laneVal (k % 512)
      smUpd m (k / 512) (0, 0) (fun x => (x.1 + v.val * g, max x.2 v.tag))) []

/-- One bus in a tick (R171): its output, the clip count and the record. -/
def State.busRun (s : State) (b : Nat) (acc : Int) (tag : Nat) : State :=
  let y := shrAway (acc * s.busUse b) 40
  let z := satSym y
  let s := s.put (addrOf 0x07 b) ⟨z, tag⟩
  if y = z then s
  else
    let s := s.bump (Reg.THK_CLIPCNT b)
    s.logLim Src.THK 0x5001 3 b 3 1 s.time.dt (wN b) (s.rd (Reg.THK_CLIPCNT b)) 0

/-- Phase 6 of the Thicket engine: the buses and the tones. -/
def State.thkRun (s : State) : State :=
  let s := s.busSums.foldl (fun s p => s.busRun p.1 p.2.1 p.2.2) s
  s.thk.tones.foldl (fun s p =>
    let (v, x) := toneRun p.1 s.clk.rate p.2
    let s := { s with thk := { s.thk with tones := smSet s.thk.tones p.1 x } }
    s.put (addrOf 0x0A p.1) ⟨v, 0⟩) s

/-! ## Counts (R179) -/

def State.nodesAct (s : State) : Nat := (s.thk.act.filter (fun p => wordTarget p.2 != 0)).length
def State.nodesShd (s : State) : Nat := (s.thk.shd.filter (fun p => wordTarget p.2 != 0)).length
def State.nodesUnion (s : State) : Nat :=
  ((keysOf s.thk.act s.thk.shd ([] : SMap Unit)).filter (fun k =>
    wordTarget (s.actNode k) != 0 || wordTarget (smGet s.thk.shd k 0) != 0)).length

/-! ## Meters -/

/-- The square root of a number, rounded down. -/
def isqrt (n : Nat) : Nat :=
  (List.range 40).reverse.foldl (fun r i => if (r + 2 ^ i) * (r + 2 ^ i) ≤ n then r + 2 ^ i else r) 0

/-- |x| as a non-negative Q1.31 number (R186). -/
def magQ31 (x : Int) : Nat := min x.natAbs (2 ^ 31 - 1)

/-- A meter's gathering of one sample. -/
def meterTake (a : MeterAcc) (x : Int) : MeterAcc := ⟨max a.peak (magQ31 x), a.sum + x.natAbs * x.natAbs⟩

/-- The meters at the end of a tick (R186, R187): each sample is gathered, and the last tick of a window makes its
report due. -/
def State.meterTick (s : State) : State :=
  let m := s.thk.meter
  if !m.on then s
  else
    let period := if m.done = 0 then s.fld Fl.THK_METER_CFG.PERIOD else m.period
    let acc := s.sel.foldl (fun a p => if p.1 / 1024 = 0x29 && p.2.src != noSrc then
      smUpd a (p.1 % 1024) ⟨0, 0⟩ (fun x => meterTake x (s.srcAt p.2.src).val) else a) m.acc
    let m := if period ≤ m.done + 1 then
        { m with done := 0, period := period, seq := m.seq + 1, changed := [], acc := [],
                 due := some ⟨m.seq, s.time.ts, s.time.bdt, s.time.epoch, period, m.changed,
                   acc.map (fun p => (p.1, (p.2.peak, min (isqrt (p.2.sum / period)) (2 ^ 31 - 1))))⟩ }
      else { m with done := m.done + 1, period := period, acc := acc }
    { s with thk := { s.thk with meter := m } }

def State.meterBase (s : State) : Addr := s.rd64 Reg.THK_METER_BASE_LO Reg.THK_METER_BASE_HI

/-- Words i, i+1, … of a bit map of n words over a list of bit numbers. -/
def bitWords (l : List Nat) (n : Nat) : List Word :=
  (List.range n).map (fun i => wN (l.foldl (fun m b => if b / 32 = i then Nat.lor m (2 ^ (b % 32)) else m) 0))

/-- The words of a report (Table TH-3), in the order in which they are written: the first sequence field first, its copy
after all the values. -/
def meterWords (r : MeterRep) : List Word :=
  [r.seq, r.ts, r.dt.extractLsb' 0 32, r.dt.extractLsb' 32 32, wN r.epoch.toNat, wN r.period] ++ bitWords r.changed 16
    ++ List.replicate 10 (0 : Word)
    ++ (List.range 512).flatMap (fun m => match r.vals.find? (fun v => v.1 == m) with
      | some v => [wN v.2.1, wN v.2.2]
      | none => [(0 : Word), 0])
    ++ [r.seq] ++ List.replicate 31 (0 : Word)

/-- The address of the slot of a sequence (R187). -/
def State.meterSlot (s : State) (seq : Word) : Addr := s.meterBase + BitVec.ofNat 64 (seq.toNat % 2 * 0x1100)

/-- METER_REPORT (R187, R188): the report of the window that has ended is written to slot q mod 2; a write that fails
on the link stops reporting. -/
def execMeterReport (ok : Bool) (s : State) : Host.Outcome State Fault Refusal :=
  let m := s.thk.meter
  match m.due with
  | none => .next s
  | some r =>
    if ok then .next { s with thk := { s.thk with meter := { m with due := none, sent := some (s.meterSlot r.seq, meterWords r) } } }
    else
      let s := { s with thk := { s.thk with meter := { m with due := none, on := false, acc := [], done := 0 } } }
      let s := (s.setFld Fl.THK_METER_CFG.EN 0).setFld Fl.THK_STATUS.METER_ERR 1
      .next (s.log Src.THK 0x5006 4 (s.meterBase.extractLsb' 0 32) r.seq 0)

/-- EN of THK_METER_CFG as a write leaves it (R186, R188): set from clear, the buffer is checked first. -/
def State.meterEn (s : State) (en : Bool) : State :=
  let m := s.thk.meter
  if en && !m.on then
    if s.dmaAllowed s.meterBase 8704 true then
      let s := { s with thk := { s.thk with meter := { m with on := true, done := 0, acc := [], changed := [] } } }
      (s.setFld Fl.THK_METER_CFG.EN 1).setFld Fl.THK_STATUS.METER_ERR 0
    else (s.setFld Fl.THK_METER_CFG.EN 0).setFld Fl.THK_STATUS.METER_ERR 1
  else if !en then { (s.setFld Fl.THK_METER_CFG.EN 0) with thk := { s.thk with meter := { m with on := false, acc := [], done := 0 } } }
  else s

/-! ## The table aperture's regions of this chapter (R174 to R176) -/

/-- A bad or a discarded aperture write. -/
def State.apBad (s : State) (off : Nat) (discard : Bool) : State :=
  let f := if discard then Fl.THK_AP_STATUS.DISCARD else Fl.THK_AP_STATUS.BAD
  let first := !s.flag Fl.THK_AP_STATUS.BAD && !s.flag Fl.THK_AP_STATUS.DISCARD
  let was := s.flag f
  let s := (s.setFld f 1).bumpFld Fl.THK_AP_STATUS.COUNT
  let s := if first then s.wr Reg.THK_AP_FIRST (wN (off % 2 ^ 24)) else s
  if was then s else s.log Src.THK 0x5003 3 (wN off) (wN (wB discard)) 0

/-- Is a node or bus gain word free of reserved bits and classes? -/
def nodeWordOk (w : Word) : Bool := bitsOf w 29 3 == 0 && decide (wordRamp w ≤ 5)

/-- Is a SWAP staged in this tick (R176)? -/
def State.shadowLock (s : State) : Bool := s.staging.any (fun p => match p.cmd with
  | .thkSwap _ => true
  | _ => false)

/-- A write of one word to the node or bus gain regions. -/
def State.apThk (s : State) (off : Nat) (w : Word) : State :=
  let node := decide (off < 0x90000)
  let hole := if node then decide (384 ≤ off % 0x800 / 4) else decide (0x90480 ≤ off)
  if hole || !nodeWordOk w then s.apBad off false
  else if s.shadowLock then s.apBad off true
  else if node then { s with thk := { s.thk with shd := bankSet s.thk.shd (nodeKey (off % 0x800 / 4) (off / 0x800)) 0 w } }
  else { s with thk := { s.thk with shdBus := bankSet s.thk.shdBus ((off - 0x90000) / 4) busReset w } }

/-- A read of one word from them. -/
def State.apThkRead (s : State) (off : Nat) : Word :=
  let act := s.flag Fl.THK_CTRL.READ_ACTIVE
  if off < 0x90000 then
    if 384 ≤ off % 0x800 / 4 then 0
    else
      let k := nodeKey (off % 0x800 / 4) (off / 0x800)
      if act then s.actNode k else smGet s.thk.shd k 0
  else if 0x90480 ≤ off then 0
  else
    let b := (off - 0x90000) / 4
    if act then s.actBusW b else smGet s.thk.shdBus b busReset

/-- The banks at the first tick (R180): the shadow is copied, every in-use value equals its target. -/
def State.thkFirst (s : State) : State :=
  { s with thk := { s.thk with act := s.thk.shd, actBus := s.thk.shdBus, ramps := [], busRamps := [] } }

end Sys2Proof.Machine
end

