-- ==== Sys2Proof/Machine/Trail.lean ====
section
/-! DEFINITION. The Trail (chapter 6): parameter sets, TRAIL_COMMIT, the step-rate graph, the output mux and its
crossfades, ownership of outputs. -/
namespace Sys2Proof.Machine

/-! ## Parameter sets (Table TH-7) -/

/-- A word of a set at reset (R198). -/
def trlReset (i : Nat) : Word := match i with
  | 0 | 1 => 0xFFFFFFFF
  | 6 | 11 => 0x40000000
  | 16 => 31
  | 17 => 0x00100000
  | 18 => 0x0000FFFF
  | _ => 0

def trlKey (c i : Nat) : Nat := c * 32 + i
def State.trlShd (s : State) (c i : Nat) : Word := smGet s.trl.shd (trlKey c i) (trlReset i)
def State.trlAct (s : State) (c i : Nat) : Word := smGet s.trl.act (trlKey c i) (trlReset i)

/-- Input j of a set read through a word function. -/
def setInput (f : Nat → Word) (j : Nat) : ChAddr := BitVec.ofNat 16 (bitsOf (f (j / 2)) (16 * (j % 2)) 16)
def setSink (f : Nat → Word) : ChAddr := BitVec.ofNat 16 (bitsOf (f 18) 0 16)
def setEn (f : Nat → Word) : Bool := bitN (f 19).toNat 0
def setThr (f : Nat → Word) : Nat := bitsOf (f 16) 0 5
def setRel (f : Nat → Word) : Nat := bitsOf (f 16) 8 2
/-- N of GRAMP in steps (R200). -/
def setGramp (f : Nat → Word) : Nat := match bitsOf (f 19) 1 2 with
  | 0 => 0 | 1 => 16 | 2 => 64 | _ => 256
def setGain (f : Nat → Word) (j : Nat) : Int := signedOf 24 (bitsOf (f (2 + j)) 0 24)
def setOut (f : Nat → Word) : Int := signedOf 24 (bitsOf (f 17) 0 24)

/-- The mux position that a set asks for: its sink while EN is set (R200). -/
def setMux (f : Nat → Word) : Option Nat := if setEn f then outOf (setSink f) else none

/-- An input that R191 allows. -/
def State.trlInputOk (s : State) (a : ChAddr) : Bool :=
  a == noSrc || (isSource a && (match clsOf a with
    | 0x00 => true
    | 0x01 => pdmTrailTap (s.pdmRate (idxOf a / 2))
    | 0x07 => true
    | _ => false))

/-- A set that TRAIL_COMMIT accepts (R191, R196, Table TH-4). -/
def State.trlSetOk (s : State) (f : Nat → Word) : Bool :=
  (List.range 4).all (fun j => s.trlInputOk (setInput f j)) && (decide (setThr f ≤ 24) || setThr f == 31)
    && (setSink f == noSrc || (outOf (setSink f)).isSome)

/-- Reserved bits of a word of a set. -/
def trlWordOk (i : Nat) (w : Word) : Bool := match i with
  | 2 | 3 | 4 | 5 | 17 => bitsOf w 24 8 == 0
  | 16 => bitsOf w 5 3 == 0 && bitsOf w 10 22 == 0
  | 18 => bitsOf w 16 16 == 0
  | 19 => bitsOf w 3 29 == 0
  | _ => if i < 20 then true else w == 0

abbrev TrlCh.init : TrlCh :=
  ⟨false, grAt 0, grAt 0, grAt 0, grAt 0, grAt 0x100000, ⟨0, 0, 0, 0⟩, ⟨0, 0, 0, 0⟩, 1, grAt 0, none, none, 0, 0, 0, 0⟩

def State.trlCh (s : State) (c : Nat) : TrlCh := smGet s.trl.ch c TrlCh.init
def State.setTrl (s : State) (c : Nat) (x : TrlCh) : State := { s with trl := { s.trl with ch := smSet s.trl.ch c x } }

/-- Is a channel enabled or in its EN fade-out (R193)? -/
def trlActive (x : TrlCh) : Bool := x.en || x.fade.cur != 0 || grRuns x.fade

/-- The buses that the enabled inputs of a set name. -/
def setBuses (f : Nat → Word) : List Nat :=
  (List.range 4).filterMap (fun j => let a := setInput f j; if clsOf a = 0x07 ∧ isSource a then some (idxOf a) else none)

def addNew (l : List Nat) (x : Nat) : List Nat := if l.contains x then l else x :: l

/-- The merge interpolators in use (R193): distinct buses over the channels that run; `sets` gives each channel's words,
`run` says which run. -/
def mergeBuses (sets : Nat → Nat → Word) (run : Nat → Bool) : List Nat :=
  (List.range 16).foldl (fun l c => if run c then (setBuses (sets c)).foldl addNew l else l) []

def State.mergeCount (s : State) : Nat := (mergeBuses s.trlAct (fun c => trlActive (s.trlCh c))).length

/-- The output that a Trail channel owns. -/
def State.ownedBy (s : State) (c : Nat) : Option Nat := (s.trl.owner.find? (fun p => p.2 == c)).map (·.1)

/-! ## TRAIL_COMMIT -/

def trailCommitValid (s : State) (p : TrailCommitP) : Bool := decide (p.s < stepsPerTk s.clk.rate)

def maskList (m : Nat) : List Nat := (List.range 16).filter (bitN m)

/-- The words of a channel after the commit: the shadow where the mask names it. -/
def State.trlNew (s : State) (mask c : Nat) : Nat → Word := if bitN mask c then s.trlShd c else s.trlAct c

/-- A claim of output k by channel c that another owner holds after the releases (R202). -/
def State.claimBlocked (s : State) (mask c k : Nat) : Bool :=
  let x := s.selOf (outAddr k)
  -- a selector that has claimed the output at this boundary holds it, whatever releases came with it
  let sel := x.src != noSrc && !(s.trl.relSel.contains k && x.claim != some s.time.ts)
  let other := match smGet? s.trl.owner k with
    | some o => o != c && s.trlHolds k && !(bitN mask o && setMux (s.trlShd o) != some k)
    | none => false
  let twice := (maskList mask).any (fun c' => c' != c && setMux (s.trlShd c') == some k)
  sel || other || twice

/-- A crossfade of a channel runs past step s of the tick in force (R204). -/
def trlXfading (x : TrlCh) (s : Nat) : Bool := match x.xf with
  | some f => decide (s < 64 - f.i)
  | none => false

/-- Does a commit that waits for its activation step name a channel (R199)? -/
def State.trlWaits (s : State) (c : Nat) : Bool := s.trl.due.any (fun d => bitN d.mask c)

/-- Check 5 of TRAIL_COMMIT (R191, R193, R199, R202, R204). -/
def trailCommitRefusal (s : State) (p : TrailCommitP) : Status :=
  let m := p.mask.toNat
  let cs := maskList m
  if !cs.all (fun c => s.trlSetOk (s.trlShd c)) then .invalid
  else if 16 < (mergeBuses (fun c => if s.trlWaits c then s.trlShd c else s.trlNew m c)
      (fun c => ((bitN m c || s.trlWaits c) && setEn (s.trlShd c)) || trlActive (s.trlCh c))).length then .conflict
  else if cs.any (fun c => match setMux (s.trlShd c) with
    | some k => s.ownedBy c != some k && s.claimBlocked m c k
    | none => false) then .conflict
  else if cs.any (fun c => setMux (s.trlShd c) != s.ownedBy c && trlXfading (s.trlCh c) p.s) then .busy
  else .ok

/-- The releases and claims of a commit: (output, channel, step offset) each (R202). -/
def State.trlMoves (s : State) (p : TrailCommitP) : List (Nat × Nat × Nat) × List (Nat × Nat × Nat) :=
  (maskList p.mask.toNat).foldl (fun acc c =>
    let a := s.ownedBy c
    let b := setMux (s.trlShd c)
    if a = b then acc
    else
      let rel := match a with
        | some k => (k, c, p.s) :: acc.1
        | none => acc.1
      let clm := match b with
        | some k => (k, c, p.s) :: acc.2
        | none => acc.2
      (rel, clm)) ([], [])

/-- The steps for which a commit's longest crossfade or ramp runs on a channel (Table TH-12). -/
def State.trlSteps (s : State) (c : Nat) : Nat :=
  let f := s.trlShd c
  let x := s.trlCh c
  let g := setGramp f
  let gains := [(x.g0, setGain f 0), (x.g1, setGain f 1), (x.g2, setGain f 2), (x.g3, setGain f 3), (x.go, setOut f)]
  let gr := if gains.any (fun p => p.1.cur != p.2) then g else 0
  let xf := if setEn f != x.en || setMux f != s.ownedBy c then 64 else 0
  max gr xf

/-- TRAIL_COMMIT at its commit boundary (R199, R202, R203, R210): releases before claims; the sets become active at
step s. -/
def trailCommitEffect (p : TrailCommitP) (s : State) : Done :=
  let t := s.time.ts
  let m := p.mask.toNat
  let (rel, clm) := s.trlMoves p
  let steps := (maskList m).foldl (fun n c => max n (s.trlSteps c)) 0
  let last := if steps = 0 then t else s.stepEnd p.s steps
  let s := { s with trl := { s.trl with due := s.trl.due ++ [TrlDue.mk t p.s m] } }
  let s := rel.foldl (fun s x =>
    -- a claim of the same boundary may already have taken the output over
    let s := { s with trl := { s.trl with
      owner := if smGet? s.trl.owner x.1 = some x.2.1 then smDel s.trl.owner x.1 else s.trl.owner,
      rel := smSet s.trl.rel x.1 (x.2.1, t) } }
    if (s.selOf (outAddr x.1)).claim = some t then s.handover x.1 x.2.1 false else s) s
  let s := clm.foldl (fun s x =>
    let s := { s with trl := { s.trl with owner := smSet s.trl.owner x.1 x.2.1, claim := smSet s.trl.claim x.1 t } }
    if (s.selOf (outAddr x.1)).rel = some t then s.handover x.1 x.2.1 true else s) s
  let s := s.log Src.TRL 0x5101 1 (wN m) (wN p.s) last
  ⟨s, .ok, t, wN p.s, last, true, false⟩

def execTrailCommit (h : Hdr) (p : TrailCommitP) (s : State) : Host.Outcome State Fault Refusal :=
  .next (s.runLocking h (.trailCommit p) 0x0511 (trailCommitValid s p) (trailCommitRefusal s p) (trailCommitEffect p))

/-! ## A step of the Trail -/

/-- Takes a committed set into the active set of a channel at its activation step (R199 to R201). Ramps that run have taken
this step already: the new ones start from the value in use in the step before. -/
def State.trlActivate (s : State) (c : Nat) : State :=
  let f := s.trlShd c
  let x := s.trlCh c
  let n := setGramp f
  let x := { x with g0 := grGo x.g0.prev (setGain f 0) n false, g1 := grGo x.g1.prev (setGain f 1) n false,
                    g2 := grGo x.g2.prev (setGain f 2) n false, g3 := grGo x.g3.prev (setGain f 3) n false,
                    go := grGo x.go.prev (setOut f) n false }
  let on := setEn f
  let mux := setMux f
  let x :=
    if on && !x.en then
      { x with b1 := ⟨0, 0, 0, 0⟩, b2 := ⟨0, 0, 0, 0⟩, lim := 1, fade := grGo x.fade.prev 0x100000 64 false,
               sink := mux, xf := match mux with
                 | some _ => some ⟨x.sink, mux, 1⟩
                 | none => none }
    else if !on && x.en then { x with fade := grGo x.fade.prev 0 64 false }
    else if on && x.sink != mux then { x with sink := mux, xf := some ⟨x.sink, mux, 1⟩ }
    else x
  let x := { x with en := on }
  let act := (List.range 32).foldl (fun m i => bankSet m (trlKey c i) (trlReset i) (f i)) s.trl.act
  let s := { s with trl := { s.trl with act := act } }
  -- the Trail floor of a loudspeaker holds from the step at which the crossfade onto it begins (R139)
  let s := match mux with
    | some k => if 12 ≤ k then s.updSpk (k - 12) (fun y => { y with tfloor := true }) else s
    | none => s
  s.setTrl c x

/-- A handover's end: the selectors that follow a channel go on alone (R203). -/
def State.unfollow (s : State) (c : Nat) : State :=
  { s with sel := s.sel.map (fun p => if p.2.follow = some c then
      (p.1, { p.2 with follow := none, fOld := noSrc, fades := [], up := grAt fullShare }) else p) }

/-- An output that a Trail channel leaves: the floor of a loudspeaker is released, unless another channel owns it (R139). -/
def State.floorOff (s : State) (c : Nat) (k : Option Nat) : State := match k with
  | some k => if 12 ≤ k && (match smGet? s.trl.owner k with
      | some o => o == c
      | none => true) then s.updSpk (k - 12) (fun y => { y with tfloor := false }) else s
  | none => s

/-- The ramps and crossfades of a channel at a step. -/
def State.trlAdvance (s : State) (c : Nat) : State :=
  let x := s.trlCh c
  let endFade := decide (x.fade.tgt = 0) && grOver x.fade && x.sink.isSome && !x.en
  let endXf := match x.xf with
    | some f => decide (64 ≤ f.i)
    | none => false
  let s := if endFade then (s.floorOff c x.sink).unfollow c else s
  let s := if endXf then (match x.xf with
    | some f => (s.floorOff c (if f.from_ = f.dest then none else f.from_)).unfollow c
    | none => s) else s
  s.setTrl c { x with
    g0 := grTick x.g0, g1 := grTick x.g1, g2 := grTick x.g2, g3 := grTick x.g3, go := grTick x.go, fade := grTick x.fade,
    sink := if endFade then none else x.sink,
    xf := if endXf then none else x.xf.map (fun f => { f with i := f.i + 1 }) }

/-- Saturation to Q4.28, ±(8 − 2^−28). -/
def satQ428 (x : Int) : Int := clampI (-(2 ^ 31 - 1)) (2 ^ 31 - 1) x

/-- One biquad (R195): coefficients b0, b1, b2, a1, a2 (Q2.30), the input (Q4.28); the output with its history and
whether it saturated. -/
def biquad (b0 b1 b2 a1 a2 : Int) (h : BqHist) (x : Int) : Int × BqHist × Bool :=
  let acc := (b0 * x + b1 * h.x1 + b2 * h.x2) * 2 ^ 28 - a1 * h.y1 - a2 * h.y2     -- 86 fractional bits
  let y := shrAway acc 30
  let y := if y < -(2 ^ 63) ∨ 2 ^ 63 ≤ y then Config.histOverflow y else y
  let z := shrAway acc 58
  let q := satQ428 z
  (q, ⟨x, h.x1, y, h.y1⟩, q != z)

/-- A limiter gain after one step of recovery toward one (R196): g + (1 − g)(1 − e^(−step/τ)). -/
def limRecover (rel rate : Nat) (g : Rat) : Rat :=
  let tau : Rat := match rel with
    | 0 => 5 / 1000 | 1 => 20 / 1000 | 2 => 100 / 1000 | _ => 500 / 1000
  let step : Rat := 1 / ((fdHz rate * stepsPerTk rate : Nat) : Rat)
  let x := nearFree (g + (1 - g) * (1 - expNat (-(step / tau))))
  if x < g then g else if 1 < x then 1 else x

/-- The limiter (R196): its output as a multiple of 2^-28 kept exactly, and its gain. -/
def limiter (thr rel rate : Nat) (g : Rat) (x : Int) : Rat × Rat :=
  if thr = 31 then ((x : Rat), 1)
  else
    let th := dbRatio (-((thr : Nat) : Rat) / 2)
    let g := if g = 1 then 1 else limRecover rel rate g
    let a := (x.natAbs : Rat) / 2 ^ 28
    let g := if th < a * g then th / a else g
    ((x : Rat) * g, g)

/-- Stages 1 to 6 of a channel on one step's values (Table TH-4): the output, the channel after it, and whether any
saturation acted. -/
def trlCompute (f : Nat → Word) (rate : Nat) (x : TrlCh) (vals : Nat → Int) : Int × TrlCh × Bool :=
  let v (j : Nat) : Int := let a := setInput f j; if a = noSrc then 0 else vals a.toNat
  let sum := v 0 * x.g0.cur + v 1 * x.g1.cur + v 2 * x.g2.cur + v 3 * x.g3.cur     -- 51 fractional bits
  let r := shrAway sum 23
  let q := satQ428 r
  let co (i : Nat) : Int := (f i).toInt
  let (y1, h1, s1) := biquad (co 6) (co 7) (co 8) (co 9) (co 10) x.b1 q
  let (y2, h2, s2) := biquad (co 11) (co 12) (co 13) (co 14) (co 15) x.b2 y1
  let (o, g) := limiter (setThr f) (setRel f) rate x.lim y2
  let z := roundAway (o * (x.go.cur : Rat) / 2 ^ 17)                                -- 28 + 20 - 31
  let out := satSym z
  (out, { x with b1 := h1, b2 := h2, lim := g }, (q != r) || s1 || s2 || (out != z))

/-- A limiter's reduction in units of 0.1 dB, −20·log10 g (R197): exact, and as a whole number whose rounding the manual leaves
open. -/
def limTenths (g : Rat) : Rat := -(200 * log10 g)
def limDb (g : Rat) : Nat := (roundFree (limTenths g)).toNat

/-- One channel in a step: its compute, its delay of two steps, its counters and records (R192, R197, R213). -/
def State.trlChannel (s : State) (c : Nat) (vals : Nat → Int) : State :=
  let x := s.trlCh c
  if trlActive x then
    let (out, x, sat) := trlCompute (s.trlAct c) s.clk.rate x vals
    let out := if s.clk.tfade.cur = 0x100000 then out else shrAway (out * s.clk.tfade.cur) 20    -- Table TK-3
    let out := dipScale x.dip out
    let f := s.trlAct c
    let tags := (List.range 4).map (fun j => let a := setInput f j; if a = noSrc then 0 else (s.srcAt a).tag)
    let s := s.setTrl c { x with p1 := x.p0, p0 := out, tag := tags.foldl max (if x.dip < 2 then (if s.step = 0 then 0 else x.tag) else 3) }
    let s := if sat then
        let s := s.bump (Reg.TRL_SATCNT c)
        s.logLim Src.TRL 0x5103 3 c 3 1 s.time.dt (wN c) (s.rd (Reg.TRL_SATCNT c)) 0
      else s
    if 60 < limTenths x.lim then
      s.logLim Src.TRL 0x5104 1 c 5 (limDb x.lim) s.time.dt (wN c) (wN (limDb x.lim)) 0
    else s
  else s.setTrl c { x with p1 := x.p0, p0 := 0 }

/-- The share, of 2^20, that a Trail channel has of an output: its crossfade and its EN fader (R200, R201). -/
def trlShare (x : TrlCh) (k : Nat) : Int :=
  let xf : Int := match x.xf with
    | some f =>
      if f.dest = some k then shrAway (0x100000 * (f.i : Int)) 6
      else if f.from_ = some k then shrAway (0x100000 * ((64 - f.i : Nat) : Int)) 6
      else 0
    | none => if x.sink = some k then 0x100000 else 0
  shrAway (xf * x.fade.cur) 20

/-- The share that a handover's selector leaves to a Trail channel (R203): its crossfade, or its EN fader where the channel
is being disabled. -/
def trlHand (x : TrlCh) (k : Nat) : Int := if x.en then trlShare { x with fade := grAt 0x100000 } k else trlShare x k

/-- A state error in a channel (Table FT-1): the histories clear, and the output dips. -/
def State.trlErr (s : State) (c : Nat) : State :=
  let x := s.trlCh c
  s.setTrl c { x with b1 := ⟨0, 0, 0, 0⟩, b2 := ⟨0, 0, 0, 0⟩, lim := 1, dip := 1 }

/-- The Trail channels' contribution to an output: delivered outputs by their shares. `dl` are the outputs delivered at
this step. -/
def State.trlInto (s : State) (k : Nat) (dl : List (Nat × Int)) : Int :=
  dl.foldl (fun a p => a + shrAway (p.2 * trlShare (s.trlCh p.1) k) 20) 0

/-- Does the Trail own output k or fade on it? -/
def State.trlOn (s : State) (k : Nat) : Bool :=
  (smGet? s.trl.owner k).isSome || s.trl.ch.any (fun p => trlShare p.2 k != 0)

/-- The selector's contribution to an output in a handover: its mix by the complement of the Trail's crossfade (R203). -/
def State.selInto (s : State) (k : Nat) : Int :=
  let x := s.selOf (outAddr k)
  match x.follow with
  | some c =>
    let v := (s.srcAt (if x.src = noSrc then x.fOld else x.src)).val
    shrAway (v * (0x100000 - trlHand (s.trlCh c) k)) 20
  | none => (s.selMix x).val

/-- The value at the modulator input of an output, before its factors (R201). -/
def State.modInput (s : State) (k : Nat) (dl : List (Nat × Int)) : Int := satSym (s.selInto k + s.trlInto k dl)

/-- The Trail at a step boundary: crossfades and ramps, the sets that become active, the channels' work; it answers
the outputs that reach their sinks at this step. -/
def State.trlStep (s : State) (vals : Nat → Int) : State × List (Nat × Int) :=
  let s := { s with clk := { s.clk with tfade := grTick s.clk.tfade } }
  let s := if s.step = 0 then { s with trl := { s.trl with ch := smMap s.trl.ch (fun (x : TrlCh) => { x with dip := dipTick x.dip }) } } else s
  let cs := s.trl.ch.map (·.1)
  let s := cs.foldl State.trlAdvance s
  let (now, later) := s.trl.due.partition (fun d => d.t == s.time.ts && decide (d.s ≤ s.step))
  let s := { s with trl := { s.trl with due := later } }
  let s := now.foldl (fun s d => (maskList d.mask).foldl State.trlActivate s) s
  let dl := s.trl.ch.map (fun p => (p.1, p.2.p1))
  let cs := s.trl.ch.map (·.1)
  (cs.foldl (fun s c => s.trlChannel c vals) s, dl)

/-! ## The aperture's Trail region and the first tick -/

/-- The sets locked by a TRAIL_COMMIT from its staging tick to its activation step (R199). -/
def State.trlLock (s : State) (c : Nat) : Bool :=
  s.staging.any (fun p => match p.cmd with
    | .trailCommit q => bitN q.mask.toNat c
    | _ => false) || s.trlWaits c

/-- A write of one word to the Trail region. -/
def State.apTrl (s : State) (off : Nat) (w : Word) : State :=
  let i := (off - 0xB0000) / 4
  if !trlWordOk (i % 32) w then s.apBad off false
  else if s.trlLock (i / 32) then s.apBad off true
  else { s with trl := { s.trl with shd := bankSet s.trl.shd i (trlReset (i % 32)) w } }

def State.apTrlRead (s : State) (off : Nat) : Word :=
  let i := (off - 0xB0000) / 4
  if s.flag Fl.TRL_CTRL.READ_ACTIVE then smGet s.trl.act i (trlReset (i % 32)) else smGet s.trl.shd i (trlReset (i % 32))

/-- The shadow sets at the first tick (R205): in ascending order, each that passes becomes active without crossfades or
ramps; one that fails sets its bit of TRL_ERR and stays disabled. -/
def State.trlFirst (s : State) : State :=
  let pass (s : State) (c : Nat) : State :=
    let f := s.trlShd c
    let merge := mergeBuses (fun d => if d = c then f else s.trlAct d) (fun d => if d = c then setEn f else (s.trlCh d).en)
    let taken := match setMux f with
      | some k => (smGet? s.trl.owner k).isSome || (s.selOf (outAddr k)).src != noSrc
      | none => false
    if s.trlSetOk f && decide (merge.length ≤ 16) && !taken then
      let act := (List.range 32).foldl (fun m i => bankSet m (trlKey c i) (trlReset i) (f i)) s.trl.act
      let on := setEn f
      let x := { TrlCh.init with en := on, g0 := grAt (setGain f 0), g1 := grAt (setGain f 1), g2 := grAt (setGain f 2),
                                 g3 := grAt (setGain f 3), go := grAt (setOut f), fade := grAt (if on then 0x100000 else 0),
                                 sink := setMux f }
      let s := { s with trl := { s.trl with act := act, owner := match setMux f with
        | some k => smSet s.trl.owner k c
        | none => s.trl.owner } }
      let s := match setMux f with
        | some k => if 12 ≤ k then s.updSpk (k - 12) (fun y => { y with tfloor := true }) else s
        | none => s
      s.setTrl c x
    else s.setBit Reg.TRL_ERR c
  (List.range 16).foldl pass s

end Sys2Proof.Machine
end

