-- ==== Sys2Proof/Machine/Fx.lean ====
section
/-! DEFINITION. Effect slots (chapter 7): parameter sets, FX_COMMIT, the chain of Table FX-1 in a tick, the DRAM
regions that writers hold. -/
namespace Sys2Proof.Machine

/-! ## Slot parameter sets (Table FX-2) -/

/-- A word of a set at reset (R219). -/
def fxReset (i : Nat) : Word :=
  if i = 0 then 0x0000FFFF
  else if i = 1 ∨ i = 2 ∨ i = 8 ∨ i = 14 then 0x00100000
  else if i = 4 then 0x01000000
  else if 20 ≤ i ∧ i < 70 ∧ (i - 20) % 5 = 0 then 0x40000000
  else 0

def fxKey (n i : Nat) : Nat := n * 128 + i
def State.fxShd (s : State) (n i : Nat) : Word := smGet s.fx.shd (fxKey n i) (fxReset i)
def State.fxAct (s : State) (n i : Nat) : Word := smGet s.fx.act (fxKey n i) (fxReset i)

/-! Fields of a set, read through a word function. -/

def fxSide (f : Nat → Word) : ChAddr := BitVec.ofNat 16 (bitsOf (f 0) 0 16)
def fxG (f : Nat → Word) (i : Nat) : Int := signedOf 24 (bitsOf (f i) 0 24)
def fxEn (f : Nat → Word) : Bool := bitN (f 3).toNat 0
def fxByp (f : Nat → Word) : Bool := bitN (f 3).toNat 1
def fxLink (f : Nat → Word) : Bool := bitN (f 3).toNat 2
def fxNbq (f : Nat → Word) : Nat := bitsOf (f 3) 3 4
def fxDyn (f : Nat → Word) : Nat := bitsOf (f 3) 7 2
def fxGramp (f : Nat → Word) : Nat := bitsOf (f 3) 9 3
def fxTh (f : Nat → Word) : Int := signedOf 16 (bitsOf (f 4) 0 16)
def fxRatio (f : Nat → Word) : Nat := bitsOf (f 4) 16 16
def fxKnee (f : Nat → Word) : Nat := bitsOf (f 5) 0 16
def fxRange (f : Nat → Word) : Nat := bitsOf (f 5) 16 16
def fxAttack (f : Nat → Word) : Nat := bitsOf (f 6) 0 16
def fxRelease (f : Nat → Word) : Nat := bitsOf (f 6) 16 16
def fxHold (f : Nat → Word) : Nat := bitsOf (f 7) 0 16
def fxRms (f : Nat → Word) : Bool := bitN (f 7).toNat 16
def fxD (f : Nat → Word) : Nat := bitsOf (f 12) 0 24
def fxDram (f : Nat → Word) : Bool := bitN (f 12).toNat 24
def fxFb (f : Nat → Word) : Int := (f 13).toInt
def fxBase (f : Nat → Word) : Nat := (f 16).toNat + 2 ^ 32 * (f 17).toNat
def fxLen (f : Nat → Word) : Nat := (f 18).toNat
def fxPlace (f : Nat → Word) : LinePlace := ⟨fxD f, fxDram f, fxBase f, fxLen f⟩

/-- Reserved bits of a word of a set. -/
def fxWordOk (i : Nat) (w : Word) : Bool :=
  if i = 0 then bitsOf w 16 16 == 0
  else if i = 1 ∨ i = 2 ∨ i = 8 ∨ i = 14 ∨ i = 15 then bitsOf w 24 8 == 0
  else if i = 3 then bitsOf w 12 20 == 0
  else if i = 7 then bitsOf w 17 15 == 0
  else if i = 9 ∨ i = 10 ∨ i = 11 ∨ i = 19 ∨ 70 ≤ i then w == 0
  else if i = 12 then bitsOf w 25 7 == 0
  else true

/-- Every field in its stated range (R218 to R220, Table FX-2). -/
def State.fxSetOk (s : State) (n : Nat) (f : Nat → Word) : Bool :=
  srcOk (fxSide f) && decide (fxNbq f ≤ 10) && decide (fxGramp f ≤ 5) && decide (-1200 ≤ fxTh f) && decide (fxTh f ≤ 0)
    && decide (0x0100 ≤ fxRatio f) && decide (fxRatio f ≤ 0x4000) && decide (fxKnee f ≤ 240) && decide (fxRange f ≤ 1000)
    && (!fxLink f || n % 2 == 0)
    && (if fxDram f then decide (1 ≤ fxD f) && decide (fxD f + 1 ≤ fxLen f) && s.regionOk (fxBase f) (4 * fxLen f) 64
        else decide (fxD f ≤ 4095))
    && (fxFb f == 0 || fxD f != 0)

abbrev FxCh.init : FxCh :=
  ⟨grAt 0, grAt 0, grAt 0x100000, grAt 0x100000, grAt 0x100000, grAt 0x100000, grAt 0, [], 0, 0, false, 0, [], 0, 0, none,
   grAt 0x100000, none, grAt 0x100000, 0, 0⟩

def State.fxCh (s : State) (n : Nat) : FxCh := smGet s.fx.ch n FxCh.init
def State.setFx (s : State) (n : Nat) (x : FxCh) : State := { s with fx := { s.fx with ch := smSet s.fx.ch n x } }

/-- Is a slot enabled or in its EN fade-out? -/
def State.fxRuns (s : State) (n : Nat) : Bool :=
  let x := s.fxCh n
  fxEn (s.fxAct n) || x.fade.cur != 0 || grRuns x.fade

/-! ## Writer regions in force (R240): who, base, bytes -/

/-- The writers: slot n as n, recorder r's ring as 1000 + r, its take as 2000 + r, the listeners'
buffers as 3000 (R297). -/
def State.writers (s : State) : List (Nat × Nat × Nat) :=
  (s.fx.ch.filterMap (fun p => if s.fxRuns p.1 && fxDram (s.fxAct p.1) then
      some (p.1, fxBase (s.fxAct p.1), 4 * fxLen (s.fxAct p.1)) else none))
    ++ s.loop.filterMap (fun p => if p.2.en then
      some (1000 + p.1, p.2.base, p.2.rlen * (match p.2.fmt with | 0 => 2 | 1 => 3 | _ => 4)) else none)
    ++ s.loop.filterMap (fun p => match p.2.run with
      | some r => some (2000 + p.1, r.base, r.cap * (match p.2.fmt with | 0 => 2 | 1 => 3 | _ => 4))
      | none => none)
    ++ (if s.net.ctx.any (fun p => decide (p.2.state ≠ .idle) && !bitN (smGet s.net.act (p.1 * 16 + 4) 0).toNat 0) then
      [(3000, (s.rd64 Reg.NET_RXBUF_BASE_LO Reg.NET_RXBUF_BASE_HI).toNat, 8 * 1024 * 1024)] else [])

/-- Does a region overlap a writer's, other than some? -/
def State.hitsWriter (s : State) (base len : Nat) (skip : Nat → Bool) : Bool :=
  s.writers.any (fun w => !skip w.1 && overlap base len w.2.1 w.2.2)

/-! ## FX_COMMIT -/

def fxCommitValid (p : TableCommitP) : Bool :=
  decide (1 ≤ p.count) && decide (p.first + p.count ≤ 256) && p.table == 0

def slotList (p : TableCommitP) : List Nat := (List.range p.count).map (· + p.first)

/-- A change of LINK in slot 2m needs both slots of the pair in the range (R220). -/
def State.linkPairOk (s : State) (p : TableCommitP) (n : Nat) : Bool :=
  n % 2 == 1 || fxLink (s.fxShd n) == fxLink (s.fxAct n) || decide (n + 1 < p.first + p.count)

/-- Check 5 of FX_COMMIT (R220, R240). -/
def fxCommitRefusal (s : State) (p : TableCommitP) : Status :=
  let l := slotList p
  if !l.all (fun n => s.fxSetOk n (s.fxShd n) && s.linkPairOk p n) then .invalid
  else
    let wants (n : Nat) : Bool := fxEn (s.fxShd n) && fxDram (s.fxShd n)
    let inside (k : Nat) : Bool := l.contains k
    if l.any (fun n => wants n && s.hitsReserved (fxBase (s.fxShd n)) (4 * fxLen (s.fxShd n))) then .denied
    else if l.any (fun n => wants n && (s.hitsWriter (fxBase (s.fxShd n)) (4 * fxLen (s.fxShd n)) inside
        || l.any (fun m => m != n && wants m
            && overlap (fxBase (s.fxShd n)) (4 * fxLen (s.fxShd n)) (fxBase (s.fxShd m)) (4 * fxLen (s.fxShd m))))) then .conflict
    else .ok

/-- One slot's set becomes active (R220, R221); the longest ramp it starts comes with it. -/
def State.fxActivate (s : State) (n : Nat) : State × Nat :=
  let f := s.fxShd n
  let o := s.fxAct n
  let x := s.fxCh n
  let g := rampTk (fxGramp f)
  let go (r : GRamp) (v : Int) : GRamp := if r.prev = v then grAt v else grGo r.prev v g false
  let moved := x.gin.prev != fxG f 1 || x.gout.prev != fxG f 2 || x.mkup.prev != fxG f 8 || x.dry.prev != fxG f 14 || x.wet.prev != fxG f 15
  let x := { x with gin := go x.gin (fxG f 1), gout := go x.gout (fxG f 2), mkup := go x.mkup (fxG f 8),
                    dry := go x.dry (fxG f 14), wet := go x.wet (fxG f 15) }
  let lineNew := fxPlace f != fxPlace o
  let x := if lineNew then { x with old := some (fxPlace o, x.fill), xf := grGo 0 0x100000 64 false, fill := 0,
                                    err := none, dfac := grAt 0x100000 } else x
  let on := fxEn f && !fxEn o
  let off := !fxEn f && fxEn o
  -- the gate of a linked pair is the pair's: it goes on while the other slot runs
  let shared := fxLink (s.fxShd (n / 2 * 2)) && fxLink (s.fxAct (n / 2 * 2)) && s.fxRuns (if n % 2 = 0 then n + 1 else n - 1)
  let x :=
    if on then { x with hist := [], e := 0, g := if shared then x.g else 0, opened := shared && x.opened,
                        hold := if shared then x.hold else 0, line := [], fill := 0, old := none, err := none,
                        dfac := grAt 0x100000, fade := grGo x.fade.prev 0x100000 32 false }
    else if off then { x with fade := grGo x.fade.prev 0 32 false }
    else x
  let bypC := fxByp f != fxByp o
  let x := if bypC then { x with byp := grGo x.byp.prev (if fxByp f then 0x100000 else 0) 32 false } else x
  let act := (List.range 128).foldl (fun m i => bankSet m (fxKey n i) (fxReset i) (f i)) s.fx.act
  let s := { s with fx := { s.fx with act := act } }
  let n1 := max (if moved then g else 0) (max (if lineNew then 64 else 0) (if on || off || bypC then 32 else 0))
  (s.setFx n x, n1)

/-- FX_COMMIT at its commit boundary (R220, R242). -/
def fxCommitEffect (p : TableCommitP) (s : State) : Done :=
  let (s, n) := (slotList p).foldl (fun (a : State × Nat) k => let (s, m) := a.1.fxActivate k; (s, max a.2 m)) (s, 0)
  ⟨s, .ok, wN p.count, lastTick s.time.ts n, 0, true, false⟩

def execFxCommit (h : Hdr) (p : TableCommitP) (s : State) : Host.Outcome State Fault Refusal :=
  .next (s.runLocking h (.fxCommit p) 0x0601 (fxCommitValid p) (fxCommitRefusal s p) (fxCommitEffect p))

/-! ## The chain in a tick (Table FX-1) -/

/-- The biquads of a slot in series. -/
def fxBiquads (f : Nat → Word) (hist : List BqHist) (n : Nat) (x : Int) : Int × List BqHist × Bool :=
  (List.range n).foldl (fun (a : Int × List BqHist × Bool) i =>
    let co (j : Nat) : Int := (f (20 + 5 * i + j)).toInt
    let (y, h, sat) := biquad (co 0) (co 1) (co 2) (co 3) (co 4) (hist.getD i ⟨0, 0, 0, 0⟩) a.1
    (y, a.2.1 ++ [h], a.2.2 || sat)) (x, [], false)

/-- What a delay line returns D words back, D > 0 (R218): zero until D ticks of new input have been written. A line that is
being left goes on with the words written since, which are those of the newest `recent` ticks (R220). -/
def State.lineRead (s : State) (x : FxCh) (p : LinePlace) (fill recent : Nat) : Int :=
  if fill < p.d then 0
  else if p.dram && decide (recent < p.d) then
    signedOf 32 (memRead s.dram (p.base + 4 * ((x.pos + p.len * 2 ^ 32 - p.d) % p.len)) 4)
  else x.line.getD (p.d - 1) 0

/-- A part of d_out: what a line returns, and with D = 0 a share of w itself (R218), times a weight of 2^20. -/
structure LineTap where
  sum : Int                  -- of the line's values
  own : Int                  -- the weight of w
  deriving DecidableEq, Repr

def State.lineTap (s : State) (x : FxCh) (p : LinePlace) (fill recent : Nat) (weight : Int) : LineTap :=
  if p.d = 0 then ⟨0, weight⟩ else ⟨s.lineRead x p fill recent * weight, 0⟩

/-- d_out before the ramps of R241: the line's, or the crossfade from the line that is being left (R218, R220). -/
def State.lineTaps (s : State) (x : FxCh) (place : LinePlace) : LineTap := match x.old with
  | some (p, fill) =>
    let a := s.lineTap x p fill x.fill (0x100000 - x.xf.cur)
    let b := s.lineTap x place x.fill 0 x.xf.cur
    ⟨a.sum + b.sum, a.own + b.own⟩
  | none => s.lineTap x place x.fill 0 0x100000

/-- d_out with w as the word written. -/
def tapOut (t : LineTap) (dfac w : Int) : Int := shrAway (shrAway (t.sum + t.own * w) 20 * dfac) 20

/-- w before saturation: x_d + FB × d_out (R218). Where d_out has a share of w in it, which is so with D = 0 only, the two
equations are solved for w. -/
def tapWord (t : LineTap) (dfac xd fb : Int) : Int :=
  if t.own = 0 then shrAway (xd * 2 ^ 31 + fb * tapOut t dfac 0) 31
  else
    let k : Rat := (fb : Rat) / 2 ^ 31 * ((dfac : Rat) / 2 ^ 20)
    roundAway (((xd : Rat) + k * ((t.sum : Rat) / 2 ^ 20)) / (1 - k * ((t.own : Rat) / 2 ^ 20)))

/-! ### Dynamics (R215 to R217): 32-bit floating point, in dB and in parts of full scale -/

/-- The coefficient of a time constant in seconds. -/
def detCoef (hz : Nat) (tau : Rat) : Rat := if tau = 0 then 1 else floatFree (1 - expNat (-(1 / ((hz : Rat) * tau))))

/-- The times of a parameter set in seconds: a limiter's attack is 0 (R216). -/
def fxAttackS (f : Nat → Word) : Rat := if fxDyn f = 3 then 0 else (fxAttack f : Rat) / 100000
def fxReleaseS (f : Nat → Word) : Rat := (fxRelease f : Rat) / 10000

/-- The detector is RMS; a limiter's is peak (R216). -/
def fxIsRms (f : Nat → Word) : Bool := fxRms f && fxDyn f != 3

/-- The detector's next state (R215). -/
def fxDetect (f : Nat → Word) (hz : Nat) (e s : Rat) : Rat :=
  let u := if fxIsRms f then s * s else ratAbs s
  floatFree (e + (u - e) * detCoef hz (if e < u then fxAttackS f else fxReleaseS f))

/-- The level of a detector state in dB (R215). -/
def fxLevel (f : Nat → Word) (e : Rat) : Rat :=
  if e ≤ 0 then -200 else
    let l := floatFree ((if fxIsRms f then 10 else 20) * log10 e)
    if l < -200 then -200 else l

/-- The compressor's and the limiter's G in dB (R216). -/
def fxCurve (f : Nat → Word) (lvl : Rat) : Rat :=
  let th := (fxTh f : Rat) / 10
  let w : Rat := if fxDyn f = 3 then 0 else (fxKnee f : Rat) / 10
  let ir : Rat := if fxDyn f = 3 then 0 else 256 / (fxRatio f : Rat)
  floatFree (if lvl ≤ th - w / 2 then 0
    else if th + w / 2 ≤ lvl then (th - lvl) * (1 - ir)
    else (ir - 1) * (lvl - th + w / 2) ^ 2 / (2 * w))

/-- The gate (R216): its G, whether it is open, the ticks below Th − 3 dB. -/
def fxGate (f : Nat → Word) (hz : Nat) (x : FxCh) (lvl : Rat) : Rat × Bool × Nat :=
  let th := (fxTh f : Rat) / 10
  let below : Bool := decide (lvl < th - 3)
  let opened : Bool := if th ≤ lvl then true else x.opened && (!below || decide (x.hold + 1 < fxHold f))
  let tgt : Rat := if opened then 0 else -((fxRange f : Rat) / 10)
  (floatFree (x.g + (tgt - x.g) * detCoef hz (if opened then fxAttackS f else fxReleaseS f)), opened, if below then x.hold + 1 else 0)

/-- The gain of a slot in dB from a level, with the gate's state (R216). -/
def fxGainStep (f : Nat → Word) (hz : Nat) (x : FxCh) (lvl : Rat) : Rat × Bool × Nat :=
  if fxDyn f = 1 then fxGate f hz x lvl else (fxCurve f lvl, x.opened, x.hold)

/-- 10^(G/20) × makeup, rounded to Q3.20 (R215, R216). With its own sidechain a limiter's output never exceeds the threshold ×
makeup by more than 0.01 dB: its gain is not rounded up where that would do so. -/
def fxApplied (bound : Bool) (g : Rat) (mkup : Int) : Int :=
  let q := floatFree (exp10 (g / 20) * (mkup : Rat))
  let r := roundFree q
  if bound && decide (10011 * ratAbs q < 10000 * ratAbs r) then (if 0 ≤ q then q.floor else -(-q).floor) else r

/-- −G in 0.1 dB, as FX_GRn shows it. -/
def fxTenths (g : Rat) : Nat := min (roundFree (-(10 * g))).toNat 65535

/-- The dynamics parameters in force for a slot: those of the even slot while the pair is linked (R217). -/
def State.fxDynOf (s : State) (n : Nat) : Nat → Word :=
  if fxLink (s.fxAct (n / 2 * 2)) then s.fxAct (n / 2 * 2) else s.fxAct n

/-- The source of a slot's sidechain (R215). -/
def State.fxSideOf (s : State) (n : Nat) : Smp := s.srcAt (fxSide (s.fxDynOf n))

/-- Stages 1 and 2 of a slot. -/
structure FxFront where
  x1   : Int              -- input, Q1.31
  tag  : Nat              -- the higher of the input's and the sidechain's (R482)
  y2   : Int              -- stage 2 output, Q4.28
  hist : List BqHist
  sat1 : Bool
  sat2 : Bool

def State.fxFront (s : State) (n : Nat) : FxFront :=
  let f := s.fxAct n
  let v := s.sinkVal (BitVec.ofNat 16 (addrOf 0x26 n))
  let x := s.fxCh n
  let r := shrAway (v.val * x.gin.cur) 23
  let q := satQ428 r
  let (y, h, sat) := fxBiquads f x.hist (fxNbq f) q
  let side := if fxDyn (s.fxDynOf n) = 0 then 0 else (s.fxSideOf n).tag
  ⟨v.val, max v.tag side, y, h, q != r, sat⟩

/-- The sidechain signal in parts of full scale: the stage 2 output, or a source's value (R215). -/
def State.fxSidechain (s : State) (n : Nat) (y2 : Int) : Rat :=
  if fxSide (s.fxDynOf n) = noSrc then (y2 : Rat) / 2 ^ 28 else ((s.fxSideOf n).val : Rat) / 2 ^ 31

/-- A slot's detector state and level in a tick; a slot that does not run has none, and its level is the floor (R215). -/
def State.fxLevelOf (s : State) (n : Nat) (fr : FxFront) : Rat × Rat :=
  if s.fxRuns n then
    let e := fxDetect (s.fxDynOf n) (fdHz s.clk.rate) (s.fxCh n).e (s.fxSidechain n fr.y2)
    (e, fxLevel (s.fxDynOf n) e)
  else ((s.fxCh n).e, -200)

/-- A saturation in a slot: the bit and the record with its stage (R214, R249). -/
def State.fxSat (s : State) (n stage : Nat) : State :=
  (s.setBit (Reg.FX_SAT (n / 32)) (n % 32)).logLim Src.FX 0x6001 3 n 3 1 s.time.dt (wN n) (wN stage) 0

/-- One slot in a tick, from its front stages and the gain that its dynamics apply (R214 to R218, R221). -/
def State.fxSlot (s : State) (n : Nat) (fr : FxFront) (e g : Rat) (opened : Bool) (hold : Nat) : State :=
  let f := s.fxAct n
  let x := s.fxCh n
  let dyn := fxDyn (s.fxDynOf n)
  let lin : Int := fxApplied (dyn == 3 && fxSide (s.fxDynOf n) == noSrc) g x.mkup.cur
  let r3 := if dyn = 0 then fr.y2 else shrAway (fr.y2 * lin) 20
  let y3 := satQ428 r3
  let xd0 := y3 * 8
  let xd := satQ31 xd0
  let place := fxPlace f
  let tap := s.lineTaps x place
  let w0 := tapWord tap x.dfac.cur xd (fxFb f)
  let w := satQ31 w0
  let dOut := tapOut tap x.dfac.cur w
  let r4 := shrAway (x.dry.cur * xd + x.wet.cur * dOut) 23
  let y4 := satQ428 r4
  let r5 := shrAway (y4 * x.gout.cur) 17
  let y5 := satQ31 r5
  let byp := satQ31 (shrAway (fr.x1 * x.gout.cur) 20)
  let mix := shrAway (y5 * (0x100000 - x.byp.cur) + byp * x.byp.cur) 20
  let out := dipScale x.dip (satQ31 (shrAway (mix * x.fade.cur) 20))
  let bad : Bool := decide (2 ≤ x.dip) || x.err.isSome || x.dfac.cur != 0x100000
  let s := if place.dram && place.len != 0 then
      { s with dram := memWrite s.dram (place.base + 4 * (x.pos % place.len)) (wI w).toNat 4 } else s
  let err := match x.err with
    | some k => if k ≤ 1 then none else some (k - 1)
    | none => none
  let back := x.err.isSome && err.isNone
  let x := { x with hist := fr.hist, e := e, g := g, opened := opened, hold := hold, line := (w :: x.line).take 4095,
                    pos := x.pos + 1, fill := x.fill + 1, gr := if dyn = 0 then 0 else fxTenths g,
                    old := x.old.map (fun p => (p.1, p.2 + 1)), err := err,
                    dfac := if back then grGo 0 0x100000 32 false else x.dfac }
  let s := s.setFx n x
  let sats := [(1, fr.sat1), (2, fr.sat2), (3, y3 != r3), (4, xd != xd0 || w != w0 || y4 != r4), (5, y5 != r5)]
  let s := sats.foldl (fun s p => if p.2 then s.fxSat n p.1 else s) s
  s.put (addrOf 0x06 n) ⟨out, if bad then 3 else fr.tag⟩

/-- A slot by itself in a tick. -/
def State.fxSingle (s : State) (n : Nat) : State :=
  if s.fxRuns n then
    let fr := s.fxFront n
    let x := s.fxCh n
    let f := s.fxAct n
    if fxDyn f = 0 then s.fxSlot n fr x.e x.g x.opened x.hold
    else
      let (e, l) := s.fxLevelOf n fr
      let (g, o, hd) := fxGainStep f (fdHz s.clk.rate) x l
      s.fxSlot n fr e g o hd
  else s

/-- A linked pair in a tick (R217): each runs its own detector, both use the larger level, the one gate state and the
same G, which the even slot holds for the pair. -/
def State.fxLinked (s : State) (a b : Nat) : State :=
  let fa := s.fxFront a
  let fb := s.fxFront b
  let (ea, la) := s.fxLevelOf a fa
  let (eb, lb) := s.fxLevelOf b fb
  let (g, o, hd) := fxGainStep (s.fxAct a) (fdHz s.clk.rate) (s.fxCh a) (max la lb)
  let one (s : State) (n : Nat) (fr : FxFront) (e : Rat) : State :=
    if s.fxRuns n then s.fxSlot n fr e g o hd else s.setFx n { s.fxCh n with g := g, opened := o, hold := hd }
  one (one s a fa ea) b fb eb

/-- The slots 2m and 2m+1 in a tick. -/
def State.fxPair (s : State) (m : Nat) : State :=
  let a := 2 * m
  let b := 2 * m + 1
  if fxLink (s.fxAct a) && fxDyn (s.fxAct a) != 0 then s.fxLinked a b else (s.fxSingle a).fxSingle b

/-- The effect engine in a tick. -/
def State.fxRun (s : State) : State :=
  (keysOf (s.fx.ch.map (fun p => (p.1 / 2, ()))) ([] : SMap Unit) ([] : SMap Unit)).foldl State.fxPair s

/-- The slots' ramps at a boundary; the old line of a crossfade is read until its last tick. -/
def fxTickCh (x : FxCh) : FxCh :=
  { x with fade := grTick x.fade, byp := grTick x.byp, gin := grTick x.gin, gout := grTick x.gout, mkup := grTick x.mkup,
           dry := grTick x.dry, wet := grTick x.wet, old := if grOver x.xf then none else x.old, xf := grTick x.xf,
           dfac := grTick x.dfac, dip := dipTick x.dip }

def State.fxRamps (s : State) : State := { s with fx := { s.fx with ch := s.fx.ch.map (fun p => (p.1, fxTickCh p.2)) } }

/-- What FX_GRn shows: −G, and whether the gate is open (R216). -/
def State.fxGrWord (s : State) (n : Nat) : Word :=
  let x := s.fxCh n
  let dyn := fxDyn (s.fxDynOf n)
  if s.fxRuns n && dyn != 0 then wN (x.gr % 65536 + 65536 * wB (x.opened && dyn == 1)) else 0

/-- A data error in a slot's delay line (R241): down over 8 tk, zero until D ticks of new input have been written, then up. -/
def State.fxLineErr (s : State) (n : Nat) (addr : Addr) (dt : DT) : State :=
  let x := s.fxCh n
  let s := s.setFx n { x with dfac := grNext x.dfac.cur 0 8, err := some (max 8 (fxD (s.fxAct n))) }
  (s.setBit (Reg.FX_DRAMERR (n / 32)) (n % 32)).logAt Src.FX 0x6002 4 dt (wN n) (addr.extractLsb' 0 32) (addr.extractLsb' 32 32)

/-- A state error in a slot (Table FT-1): the histories and the dynamics clear, and the output dips. The gate of a linked pair
is the even slot's. -/
def State.fxStateErr (s : State) (n : Nat) : State :=
  s.setFx n { s.fxCh n with hist := [], e := 0, g := 0, opened := false, hold := 0, dip := 1 }

/-! ## The aperture's slot region -/

/-- The slots that a staged FX_COMMIT locks (R176, R220). -/
def State.fxLock (s : State) (n : Nat) : Bool := s.staging.any (fun p => match p.cmd with
  | .fxCommit q => decide (q.first ≤ n) && decide (n < q.first + q.count)
  | _ => false)

def State.apFx (s : State) (off : Nat) (w : Word) : State :=
  let i := (off - 0x100000) / 4
  if !fxWordOk (i % 128) w then s.apBad off false
  else if s.fxLock (i / 128) then s.apBad off true
  else { s with fx := { s.fx with shd := bankSet s.fx.shd i (fxReset (i % 128)) w } }

def State.apFxRead (s : State) (off : Nat) : Word :=
  let i := (off - 0x100000) / 4
  if s.flag Fl.FX_CTRL.READ_ACTIVE then smGet s.fx.act i (fxReset (i % 128)) else smGet s.fx.shd i (fxReset (i % 128))

end Sys2Proof.Machine
end

