-- ==== Sys2Proof/Machine/Clip.lean ====
section
/-! DEFINITION. Clip voices (chapter 7): the clip and envelope tables, CLIP_COMMIT, CLIP_START, CLIP_CTRL, voices and
tails in a tick. -/
namespace Sys2Proof.Machine

/-! ## Tables (Tables FX-3, FX-4) -/

/-- A word of envelope entry e: entry 0 is fixed (R223). -/
def envReset (e i : Nat) : Word :=
  if e = 0 then (match i with
    | 3 => 16
    | 4 => 0x80008000
    | 5 => 0x00008000
    | _ => 0) else 0

def State.clipShd (s : State) (e i : Nat) : Word := smGet s.clip.shd (e * 16 + i) 0
def State.clipAct (s : State) (e i : Nat) : Word := smGet s.clip.act (e * 16 + i) 0
def State.envShd (s : State) (e i : Nat) : Word := smGet s.clip.eshd (e * 8 + i) (envReset e i)
def State.envAct (s : State) (e i : Nat) : Word := smGet s.clip.eact (e * 8 + i) (envReset e i)

def ceBase (f : Nat → Word) : Nat := (f 0).toNat + 2 ^ 32 * (f 1).toNat
def ceLen (f : Nat → Word) : Nat := (f 2).toNat
def ceLs (f : Nat → Word) : Nat := (f 3).toNat
def ceLe (f : Nat → Word) : Nat := (f 4).toNat
def ceX (f : Nat → Word) : Nat := bitsOf (f 5) 0 16
def ceFmt (f : Nat → Word) : Nat := bitsOf (f 5) 16 2
def ceStereo (f : Nat → Word) : Bool := bitN (f 5).toNat 18
def ceEnc (f : Nat → Word) : Bool := bitN (f 5).toNat 19
def ceMode (f : Nat → Word) : Nat := bitsOf (f 5) 20 2
def ceRate (f : Nat → Word) : Nat := (f 6).toNat
def ceKey (f : Nat → Word) : Nat := bitsOf (f 7) 0 16
def ceTags (f : Nat → Word) : Nat := (f 8).toNat + 2 ^ 32 * (f 9).toNat

/-- Bytes per sample of a format code (R356). -/
def fmtBytes (fmt : Nat) : Nat := match fmt with
  | 0 => 2 | 1 => 3 | _ => 4

def ceBytes (f : Nat → Word) : Nat := ceLen f * fmtBytes (ceFmt f) * (if ceStereo f then 2 else 1)

/-- Reserved bits of a word of a clip entry or an envelope entry. -/
def clipWordOk (i : Nat) (w : Word) : Bool := match i with
  | 5 => bitsOf w 22 10 == 0
  | 7 => bitsOf w 16 16 == 0
  | _ => if i < 10 then true else w == 0
def envWordOk (i : Nat) (w : Word) : Bool := match i with
  | 0 | 1 | 2 | 3 => bitsOf w 24 7 == 0
  | 4 => true
  | 5 => bitsOf w 16 16 == 0
  | _ => w == 0

/-- A clip entry that CLIP_COMMIT accepts (R222, R239). -/
def State.clipOk (s : State) (f : Nat → Word) : Bool :=
  decide (ceLs f < ceLe f) && decide (ceLe f ≤ ceLen f) && decide (ceX f ≤ ceLs f) && decide (ceX f ≤ ceLe f - ceLs f)
    && decide (8000 * 256 ≤ ceRate f) && decide (ceRate f ≤ 192000 * 256) && ceMode f != 3
    && s.regionOk (ceBase f) (ceBytes f) (if ceEnc f then 4096 else 64)
    && (!ceEnc f || s.regionOk (ceTags f) ((ceBytes f + 4095) / 4096 * 16) 16)

/-- An envelope entry that CLIP_COMMIT accepts (R223). -/
def envOk (f : Nat → Word) : Bool :=
  decide (bitsOf (f 4) 0 16 ≤ 0x8000) && decide (bitsOf (f 4) 16 16 ≤ 0x8000) && decide (bitsOf (f 5) 0 16 ≤ 0x8000)

/-! ## CLIP_COMMIT -/

def clipCommitValid (p : TableCommitP) : Bool :=
  decide (1 ≤ p.count) && (match p.table with
    | 0 => decide (p.first + p.count ≤ 4096)
    | 1 => decide (p.first + p.count ≤ 256) && decide (1 ≤ p.first)
    | _ => false)

def clipCommitRefusal (s : State) (p : TableCommitP) : Status :=
  let l := slotList p
  if !l.all (fun e => if p.table = 0 then s.clipOk (s.clipShd e) else envOk (s.envShd e)) then .invalid
  else if p.table = 0 ∧ l.any (fun e => ceLen (s.clipShd e) != 0 && s.hitsReserved (ceBase (s.clipShd e)) (ceBytes (s.clipShd e))) then .denied
  else .ok

/-- CLIP_COMMIT at its commit boundary: the named entries are copied into the active tables. -/
def clipCommitEffect (p : TableCommitP) (s : State) : Done :=
  let s := (slotList p).foldl (fun s e =>
    if p.table = 0 then
      { s with clip := { s.clip with act := (List.range 16).foldl (fun m i => bankSet m (e * 16 + i) 0 (s.clipShd e i)) s.clip.act } }
    else
      { s with clip := { s.clip with eact := (List.range 8).foldl (fun m i => bankSet m (e * 8 + i) 0 (s.envShd e i)) s.clip.eact } }) s
  ⟨s, .ok, wN p.count, s.time.ts, 0, true, false⟩

def execClipCommit (h : Hdr) (p : TableCommitP) (s : State) : Host.Outcome State Fault Refusal :=
  .next (s.runLocking h (.clipCommit p) 0x0611 (clipCommitValid p) (clipCommitRefusal s p) (clipCommitEffect p))

/-! ## Voices -/

def Voice.w (v : Voice) (i : Nat) : Word := v.words.getD i 0
def Voice.e (v : Voice) (i : Nat) : Word := v.env.getD i 0

/-- The step σ = p × r_c / Fd in Q8.24, rounded to nearest (R225); r_c is Q24.8. -/
def stepOf (pitch rc rate : Nat) : Nat := (pitch * rc * 2 + 256 * fdHz rate) / (2 * 256 * fdHz rate)

abbrev sigma16 : Nat := 16 * 2 ^ 24

def State.voice? (s : State) (v : Nat) : Option Voice := smGet? s.clip.voices v

/-- Does Heartwood's key slot hold a loaded key (R234)? -/
def State.keyLoaded (s : State) (k : Nat) : Bool := (smGet? s.hwd.keys k).isSome

/-- Does an entry's data lie inside the stream of its key slot (R497)? -/
def State.keyCovers (s : State) (f : Nat → Word) : Bool := match smGet? s.hwd.keys (ceKey f) with
  | some k => decide (k.base.toNat ≤ ceBase f) && decide (ceBase f + ceBytes f ≤ k.base.toNat + 4096 * k.blocks)
  | none => false

def clipStartValid (p : ClipStartP) : Bool :=
  decide (p.voice < 256) && decide (p.entry < 4096) && decide (p.env < 256) && decide (0x00100000 ≤ p.pitch)
    && decide (p.pitch ≤ 0x10000000)

/-- The voices that a start takes: a stereo clip takes two (R231). -/
def startVoices (stereo : Bool) (v : Nat) : List Nat := if stereo then [v, v + 1] else [v]

/-- The playing voices that a start displaces: those it takes, and the other half of a stereo pair of which it takes one. -/
def State.startSteals (s : State) (stereo : Bool) (v : Nat) : List Nat :=
  (startVoices stereo v).foldl (fun l n => match s.voice? n with
    | some x => match x.mate with
      | some m => (l ++ [n, m]).eraseDups.filter (fun k => (s.voice? k).isSome)
      | none => (l ++ [n]).eraseDups
    | none => l) []

/-- Check 5 of CLIP_START (R225, R231, R232, R234, R243, R497). -/
def clipStartRefusal (s : State) (p : ClipStartP) : Status :=
  let f := s.clipAct p.entry
  let used := s.startSteals (ceStereo f) p.voice
  if ceLen f = 0 ∨ ceLen f ≤ p.start ∨ (ceStereo f = true ∧ p.voice % 2 = 1)
      ∨ sigma16 < stepOf p.pitch (ceRate f) s.clk.rate then .invalid
  else if ceEnc f && !s.keyCovers f then .denied
  else if used.isEmpty then .ok
  else if !p.steal ∨ 32 < s.clip.tails.length + used.length then .busy
  else .ok

/-- The first free tail slot. -/
def State.freeTail (s : State) : Nat := ((List.range 32).find? (fun i => (smGet? s.clip.tails i).isNone)).getD 0

/-- A wait for the end of voice v arrives (R244). -/
def State.voiceWaits (s : State) (v : Nat) (last : TS) (cause : Nat) : State :=
  s.host.waits.foldl (fun s w => match w.kind with
    | .clipVoice n => if n = v then s.endWait w .ok last (wN cause) 0 else s
    | _ => s) s

/-- A playing sound moves to a tail slot (R232). -/
def State.stealVoice (s : State) (v : Nat) : State :=
  match s.voice? v with
  | none => s
  | some x =>
    let k := s.freeTail
    let s := { s with clip := { s.clip with tails := smSet s.clip.tails k ⟨v, x, grGo 0x100000 0 16 false⟩, voices := smDel s.clip.voices v } }
    s.voiceWaits v (s.time.ts - 1) 3

/-- Segment times and levels of an envelope (Table FX-4). -/
def Voice.segTime (v : Voice) (k : Nat) : Nat := bitsOf (v.e k) 0 24
def Voice.segExp (v : Voice) (k : Nat) : Bool := bitN (v.e k).toNat 31
def Voice.segLevel (v : Voice) (k : Nat) : Rat := match k with
  | 0 => (bitsOf (v.e 4) 0 16 : Rat) / 32768
  | 1 => (bitsOf (v.e 4) 16 16 : Rat) / 32768
  | 2 => (bitsOf (v.e 5) 0 16 : Rat) / 32768
  | _ => 0

/-- A level on a segment that is linear in dB, level 0 taken as −96 dB (R229): from, to, length, ticks done. -/
def expLevel (a b : Rat) (n i : Nat) : Rat :=
  let floor96 := exp10 (-(96 / 20))
  let a := if a ≤ 0 then floor96 else a
  let b := if b ≤ 0 then floor96 else b
  floatFree (a * exp2 (log2 (b / a) * ((i : Rat) / (n : Rat))))

/-- The envelope's level in its i-th tick of a segment (R229). -/
def Voice.segAt (v : Voice) (k i : Nat) : Rat :=
  let n := v.segTime k
  let tgt := v.segLevel k
  if n ≤ i + 1 then tgt
  else if v.segExp k then expLevel v.lvl0 tgt n (i + 1)
  else v.lvl0 + (tgt - v.lvl0) * ((i + 1 : Nat) : Rat) / (n : Rat)

/-- Jumps through segments of no length; a segment of a positive length starts from the level reached (R229). -/
def envJump (v : Voice) : Nat → Voice
  | 0 => v
  | n + 1 =>
    if v.seg < 3 ∧ v.segTime v.seg = 0 then
      envJump { v with level := v.segLevel v.seg, lvl0 := v.segLevel v.seg, seg := if v.seg = 2 then 4 else v.seg + 1, segI := 0 } n
    else if v.seg = 3 ∧ v.segTime 3 = 0 then { v with level := 0 }
    else v

/-- The envelope's level in the tick that begins (R229). -/
def envTick (v : Voice) : Voice :=
  let v := envJump v 4
  if v.seg = 4 ∨ (v.seg = 3 ∧ v.segTime 3 = 0) then v
  else
    let l := v.segAt v.seg v.segI
    let i := v.segI + 1
    if v.segTime v.seg ≤ i ∧ v.seg ≠ 3 then
      { v with level := l, lvl0 := l, seg := if v.seg = 2 then 4 else v.seg + 1, segI := 0 }
    else { v with level := l, segI := i }

/-- The segment code that CLP_VOICEn shows. -/
def segCode (v : Voice) : Nat := if v.seg = 4 then 2 else v.seg

/-- The envelope of a voice in the tick that begins. -/
def voiceEnv (v : Voice) : Voice := envTick { v with lprev := v.level }

/-- A new voice (R224, R225); its envelope takes its first level in its first tick. -/
def State.newVoice (s : State) (p : ClipStartP) (right : Bool) (mate : Option Nat) : Voice :=
  let f := s.clipAct p.entry
  voiceEnv {
    st := 1, clip := p.entry, words := (List.range 16).map f, env := (List.range 8).map (s.envAct p.env), rgt := right,
    mate := mate, pos := p.start * 2 ^ 32, pitch := p.pitch, pprev := p.pitch, glide := none, gain := grAt p.gain.toInt, seg := 0, segI := 0,
    lvl0 := 0, level := 0, lprev := 0, stop := grAt 0x100000, clamp := false, noLoop := false, bad := [], cause := 0,
    peak := stepOf p.pitch (ceRate f) s.clk.rate, dip := 0 }

/-- CLIP_START at its commit boundary (R224, R225, R231, R232, R243). -/
def clipStartEffect (p : ClipStartP) (s : State) : Done :=
  let f := s.clipAct p.entry
  let st := ceStereo f
  let used := s.startSteals st p.voice
  let slot := s.freeTail
  let s := used.foldl State.stealVoice s
  let a := s.newVoice p false (if st then some (p.voice + 1) else none)
  let s := { s with clip := { s.clip with voices := smSet s.clip.voices p.voice a } }
  let s := if st then
      let b := s.newVoice p true (some p.voice)
      { s with clip := { s.clip with voices := smSet s.clip.voices (p.voice + 1) b } }
    else s
  ⟨s, .ok, wN (stepOf p.pitch (ceRate f) s.clk.rate), wN (if used.isEmpty then 0xFF else slot), 0, false, false⟩

def execClipStart (h : Hdr) (p : ClipStartP) (s : State) : Host.Outcome State Fault Refusal :=
  .next (s.runCmd h (.clipStart p) 0x0612 (clipStartValid p) true (clipStartRefusal s p) (clipStartEffect p))

/-! ## CLIP_CTRL -/

def clipCtrlValid (p : ClipCtrlP) : Bool :=
  decide (p.voice < 256) && decide (p.op ≤ 4) && decide (p.len < 65536) && (match p.op with
    | 2 => decide (0x00100000 ≤ p.value.toNat) && decide (p.value.toNat ≤ 0x10000000)
    | 3 => bitsOf p.value 24 8 == 0
    | _ => p.value == 0 && p.len == 0)

/-- A pitch on its glide: log2 of it moves by R173, from, to, length, ticks done (R227). -/
def glidePitch (a b n i : Nat) : Nat :=
  (roundFree ((a : Rat) * exp2 (log2 ((b : Rat) / (a : Rat)) * ((i : Rat) / (n : Rat))))).toNat

/-- The glide's pitch of a tick (R227). -/
def glideTick (rate : Nat) (v : Voice) : Voice := match v.glide with
  | none => v
  | some (a, b, n, i) =>
    let p := if n ≤ i + 1 then b else glidePitch a b n (i + 1)
    { v with pitch := p, glide := if n ≤ i + 1 then none else some (a, b, n, i + 1),
             clamp := decide (sigma16 < stepOf p (ceRate v.w) rate) }

/-- A pitch change (R225, R227): the step is held at 16. -/
def voicePitch (rate : Nat) (v : Voice) (p n : Nat) : Voice :=
  let rc := ceRate v.w
  let above := decide (sigma16 < stepOf p rc rate)
  let v := { v with peak := max (stepOf v.pprev rc rate) (stepOf p rc rate) }
  if n = 0 then { v with pitch := p, glide := none, clamp := above } else glideTick rate { v with glide := some (v.pprev, p, n, 0) }

/-- After release a mode 2 voice stops looping the next time P lies below loop end − X (R228). -/
def loopStop (v : Voice) : Voice :=
  if ceMode v.w = 2 ∧ v.seg = 3 ∧ v.noLoop = false ∧ v.pos < (ceLe v.w - ceX v.w) * 2 ^ 32 then { v with noLoop := true } else v

/-- One op on one voice. A voice that is stopping can still be released; it goes on stopping. -/
def ctrlVoice (rate : Nat) (p : ClipCtrlP) (v : Voice) : Voice := match p.op with
  | 0 => if v.seg = 3 then v else
      loopStop (envTick { v with st := if v.st = 3 then 3 else 2, seg := 3, segI := 0, lvl0 := v.lprev, level := v.lprev })
  | 1 => if v.st = 3 then v else { v with st := 3, stop := grGo v.stop.prev 0 8 false, cause := 2 }
  | 2 => voicePitch rate v p.value.toNat p.len
  | 3 => { v with gain := grGo v.gain.prev (signedOf 24 (bitsOf p.value 0 24)) p.len false }
  | _ => v

/-- An op on a voice and its mate (R231). -/
def State.ctrlPair (s : State) (p : ClipCtrlP) : State :=
  match s.voice? p.voice with
  | none => s
  | some v =>
    let s := { s with clip := { s.clip with voices := smSet s.clip.voices p.voice (ctrlVoice s.clk.rate p v) } }
    match v.mate with
    | some m => match s.voice? m with
      | some u => { s with clip := { s.clip with voices := smSet s.clip.voices m (ctrlVoice s.clk.rate p u) } }
      | none => s
    | none => s

/-- CLIP_CTRL at its commit boundary (R227, R230, R231, R244). -/
def clipCtrlEffect (h : Hdr) (p : ClipCtrlP) (s : State) : Done :=
  if p.op = 4 then
    let s := s.armWait h 0x0613 (.clipVoice p.voice) p.timeout
    laterDone (if (s.voice? p.voice).isSome then s else s.voiceWaits p.voice s.time.ts 0)
  else okDone (s.ctrlPair p)

def execClipCtrl (h : Hdr) (p : ClipCtrlP) (s : State) : Host.Outcome State Fault Refusal :=
  .next (s.runCmd h (.clipCtrl p) 0x0613 (clipCtrlValid p) true .ok (clipCtrlEffect h p))

/-! ## A voice in a tick -/

/-- Does the voice loop at present (R228)? -/
def voiceLoops (v : Voice) : Bool := match ceMode v.w with
  | 1 => true
  | 2 => !v.noLoop
  | _ => false

/-- The key under which Heartwood opens a voice's blocks: none while it does not run or the slot holds none (R234, R500). -/
def State.voiceKey (s : State) (v : Voice) : Option KeySlot :=
  if s.hwd.running then smGet? s.hwd.keys (ceKey v.w) else none

/-- The IV of a block of a stream: the nonce prefix, then the block number as a big-endian word (R497). -/
def blockIv (k : KeySlot) (n : Nat) : BitVec 96 := k.nonce ++ BitVec.ofNat 32 n

/-- A byte of a clip's data, decrypted where the clip is encrypted; a block that does not open reads zero (R234, R497). -/
def State.clipByte (s : State) (v : Voice) (a : Nat) : Byte :=
  if ceEnc v.w then match s.voiceKey v with
    | none => 0
    | some k =>
      if v.bad.contains ((a - ceBase v.w) / 4096) then 0
      else memGet s.dram a ^^^ Config.gcmStream k.key (blockIv k ((a - k.base.toNat) / 4096)) (a % 4096)
  else memGet s.dram a

def State.clipBytes (s : State) (v : Voice) (a : Nat) : Nat → Nat
  | 0 => 0
  | n + 1 => (s.clipByte v a).toNat + 256 * s.clipBytes v (a + 1) n

/-- A number of a format as Q1.31. -/
def fmtSample (fmt raw : Nat) : Int := match fmt with
  | 0 => signedOf 16 raw * 65536
  | 1 => signedOf 24 raw * 256
  | 2 => signedOf 32 (raw / 256 * 256)
  | _ => signedOf 32 raw

/-- Frame i of the clip as stored; outside 0 to length − 1 it is zero (R226). -/
def State.rawFrame (s : State) (v : Voice) (i : Int) : Rat :=
  if i < 0 ∨ (ceLen v.w : Int) ≤ i then 0
  else
    let n := fmtBytes (ceFmt v.w)
    let ch := if ceStereo v.w then 2 else 1
    let a := ceBase v.w + (i.toNat * ch + (if v.rgt then 1 else 0)) * n
    (fmtSample (ceFmt v.w) (s.clipBytes v a n) : Rat)

/-- Frame i as the kernel reads it: through the loop's mapping and its crossfade (R228). -/
def State.clipFrame (s : State) (v : Voice) (i : Int) : Rat :=
  if voiceLoops v then
    let ls : Int := ceLs v.w
    let le : Int := ceLe v.w
    let l := le - ls
    let i := if le ≤ i then ls + (i - ls) % l else i
    let x := ceX v.w
    if 0 < x ∧ le - (x : Int) ≤ i then
      let k : Rat := ((le - i : Int) : Rat) / (x : Rat)
      s.rawFrame v i * k + s.rawFrame v (i - l) * (1 - k)
    else s.rawFrame v i
  else s.rawFrame v i

/-- The length of the kernel of a step, in frames (R226). -/
def kernelLen (step : Nat) : Nat := 32 * max 1 ((step + 2 ^ 24 - 1) / 2 ^ 24)

/-- The frame of tap j of a kernel centred on frame c and its successor. -/
def kernelAt (n : Nat) (c : Int) (j : Nat) : Int := c - (n / 2 : Nat) + 1 + (j : Int)

/-- The kernel's value from the frames that it spans, at a fraction of 2^32 (R226): 256 phases, linear between phases. -/
def kernelSum (frames : List Rat) (frac step : Nat) : Rat :=
  let ph := frac / 2 ^ 24
  let t : Rat := ((frac % 2 ^ 24 : Nat) : Rat) / 2 ^ 24
  -- the kernel's length and its cutoff follow the step where that exceeds one frame
  let k := max step (2 ^ 24)
  (frames.foldl (fun (a : Nat × Rat) x =>
    (a.1 + 1, a.2 + x * (Config.kernelTap ph a.1 k * (1 - t) + Config.kernelTap (ph + 1) a.1 k * t))) (0, 0)).2

/-- The frames that the kernel spans at P (R226); those of the taps in a list were not present and read zero (R233). -/
def State.kernelFrames (s : State) (v : Voice) (step : Nat) (absent : List Nat) : List Rat :=
  let n := kernelLen step
  (List.range n).map (fun j => if absent.contains j then 0 else s.clipFrame v (kernelAt n (v.pos / 2 ^ 32 : Nat) j))

/-- How many frames of a clip the taps in a list would have read (R233): a frame outside the clip is none. -/
def framesMissed (v : Voice) (step : Nat) (absent : List Nat) : Nat :=
  let n := kernelLen step
  ((List.range n).filter (fun j =>
    let i := kernelAt n (v.pos / 2 ^ 32 : Nat) j
    absent.contains j && decide (0 ≤ i) && (voiceLoops v || decide (i < (ceLen v.w : Int))))).length

/-- The step in force, held at 16 (R225). -/
def voiceStep (rate : Nat) (v : Voice) : Nat := min (stepOf v.pitch (ceRate v.w) rate) sigma16

/-- A voice's output in a tick (R230). -/
def State.voiceOut (s : State) (v : Voice) (absent : List Nat) : Int :=
  let st := voiceStep s.clk.rate v
  let k := kernelSum (s.kernelFrames v st absent) (v.pos % 2 ^ 32) st
  dipScale v.dip (satQ31 (roundAway (k * v.level * (v.gain.cur : Rat) / 2 ^ 20 * (v.stop.cur : Rat) / 2 ^ 20)))

/-- P after a tick: the step is added; a loop wraps, so that P lies below its end (R228). -/
def voiceAdvance (rate : Nat) (v : Voice) : Voice :=
  let p := v.pos + voiceStep rate v * 256
  let ls := ceLs v.w * 2 ^ 32
  let l := (ceLe v.w - ceLs v.w) * 2 ^ 32
  loopStop { v with pos := if voiceLoops v && decide (ceLe v.w * 2 ^ 32 ≤ p) then ls + (p - ls) % l else p }

/-- Ramps of a voice at a boundary. -/
def voiceTick (rate : Nat) (v : Voice) : Voice :=
  glideTick rate (voiceEnv { v with pprev := v.pitch, gain := grTick v.gain, stop := grTick v.stop, dip := dipTick v.dip })

/-- Has the voice come to its end after a tick, and with which cause (R230, R244)? -/
def voiceEnd (v : Voice) : Option Nat :=
  let out := match ceMode v.w with
    | 0 => true
    | 2 => v.noLoop
    | _ => false
  if v.st = 3 ∧ v.stop.cur = 0 then some v.cause
  else if out && decide ((ceLen v.w + 16) * 2 ^ 32 ≤ v.pos) then some (if v.seg = 3 then 1 else 0)
  else if v.seg = 3 ∧ v.level = 0 then some 1
  else none

/-- VOICE_END: the voices that ended with the tick before (R230). -/
def State.voicesEnd (s : State) : State :=
  s.clip.voices.foldl (fun s p => match voiceEnd p.2 with
    | some c => { (s.voiceWaits p.1 (s.time.ts - 1) c) with
        clip := { (s.voiceWaits p.1 (s.time.ts - 1) c).clip with voices := smDel (s.voiceWaits p.1 (s.time.ts - 1) c).clip.voices p.1 } }
    | none => s) s

/-- The voices' and tails' ramps at a boundary; a tail ends with its ramp. -/
def State.clipRamps (s : State) : State :=
  let r := s.clk.rate
  { s with clip := { s.clip with
      voices := s.clip.voices.map (fun p => (p.1, voiceTick r p.2)),
      tails := (s.clip.tails.filter (fun p => !grOver p.2.fade)).map (fun p =>
        (p.1, { p.2 with snd := voiceTick r p.2.snd, fade := grTick p.2.fade })) } }

/-- Frames not present when they were needed: each reads zero and counts, and the engine logs them at most once per second
(R233, R249). -/
def State.clipStarve (s : State) (voice n : Nat) : State :=
  if n = 0 then s
  else (s.bumpBy Reg.CLP_STARVE n).logLim Src.CLP 0x6101 3 0 1 n s.time.dt (wN voice) (wN n) 0

/-- A data error ends a voice after an 8 tk stop ramp with cause 4 (R234, R241). -/
def State.voiceErr (s : State) (v : Nat) : State :=
  let f (x : Voice) : Voice := if x.st = 3 ∧ x.cause = 4 then x else { x with st := 3, cause := 4, stop := grNext x.stop.cur 0 8 }
  match s.voice? v with
  | none => s
  | some x =>
    let s := { s with clip := { s.clip with voices := smSet s.clip.voices v (f x) } }
    match x.mate with
    | some m => match s.voice? m with
      | some y => { s with clip := { s.clip with voices := smSet s.clip.voices m (f y) } }
      | none => s
    | none => s

/-- The block of its clip that a voice reads. -/
def voiceBlock (v : Voice) : Nat :=
  v.pos / 2 ^ 32 * ((if ceStereo v.w then 2 else 1) * fmtBytes (ceFmt v.w)) / 4096

/-- Voices whose blocks no key opens: each block reads as a failed tag (R500). -/
def State.clipKeyless (s : State) : State :=
  s.clip.voices.foldl (fun s p =>
    if ceEnc p.2.w && (s.voiceKey p.2).isNone && !(p.2.st == 3 && p.2.cause == 4) then
      (s.voiceErr p.1).log Src.CLP 0x6102 4 (wN p.1) (wN p.2.clip) (wN (voiceBlock p.2))
    else s) s

/-- The clip engine's voices and tails in a tick: outputs, then positions (R225, R230, R232). The list names the kernel taps whose
frames the DRAM has not delivered in time: by voice, and by 256 + tail slot (R233). -/
def State.clipRun (s : State) (absent : List (Nat × List Nat)) : State :=
  let s := s.clipKeyless
  let r := s.clk.rate
  let gone (k : Nat) : List Nat := ((absent.filter (fun p => p.1 == k)).map (·.2)).flatten
  let outs := s.clip.voices.map (fun p => (p.1, s.voiceOut p.2 (gone p.1)))
  let outs := s.clip.tails.foldl (fun o p =>
    smUpd o p.2.voice 0 (· + shrAway (s.voiceOut p.2.snd (gone (256 + p.1)) * p.2.fade.cur) 20)) outs
  let missed := s.clip.voices.map (fun p => (p.1, framesMissed p.2 (voiceStep r p.2) (gone p.1)))
    ++ s.clip.tails.map (fun p => (p.2.voice, framesMissed p.2.snd (voiceStep r p.2.snd) (gone (256 + p.1))))
  let bad (n : Nat) : Bool := match s.voice? n with
    | some v => (v.st == 3 && v.cause == 4) || decide (2 ≤ v.dip)
    | none => false
  let s := outs.foldl (fun s p => s.put (addrOf 0x05 p.1) ⟨satQ31 p.2, if bad p.1 then 3 else 0⟩) s
  let s := missed.foldl (fun s p => s.clipStarve p.1 p.2) s
  { s with clip := { s.clip with
      voices := s.clip.voices.map (fun p => (p.1, voiceAdvance r p.2)),
      tails := s.clip.tails.map (fun p => (p.1, { p.2 with snd := voiceAdvance r p.2.snd })) } }

/-- A state error in a voice (Table FT-1): the output dips. The voice keeps its place. -/
def State.voiceDip (s : State) (v : Nat) : State := match s.voice? v with
  | some x => { s with clip := { s.clip with voices := smSet s.clip.voices v { x with dip := 1 } } }
  | none => s

/-- A block of a voice is known bad: its frames read zero (R234). -/
def State.badBlock (s : State) (v b : Nat) : State :=
  let f (x : Voice) : Voice := { x with bad := if x.bad.contains b then x.bad else b :: x.bad }
  match s.voice? v with
  | none => s
  | some x =>
    let s := { s with clip := { s.clip with voices := smSet s.clip.voices v (f x) } }
    match x.mate with
    | some m => match s.voice? m with
      | some y => { s with clip := { s.clip with voices := smSet s.clip.voices m (f y) } }
      | none => s
    | none => s

/-- CLIP_TAG_FAIL (R234). -/
def execClipTagFail (voice block : Nat) (s : State) : Host.Outcome State Fault Refusal :=
  match s.voice? voice with
  | some x =>
    if ceEnc x.w then .next (((s.badBlock voice block).voiceErr voice).log Src.CLP 0x6102 4 (wN voice) (wN x.clip) (wN block))
    else .next s
  | none => .next s

/-- What CLP_VOICEn shows. -/
def State.voiceReg (s : State) (v : Nat) : Word := match s.voice? v with
  | none => 0
  | some x => wN (x.st * 2 ^ 30 + wB x.clamp * 2 ^ 29 + segCode x * 2 ^ 27 + x.clip * 2 ^ 12)

/-! ## The aperture's clip and envelope regions -/

def State.clipLock (s : State) (table e : Nat) : Bool := s.staging.any (fun p => match p.cmd with
  | .clipCommit q => q.table == table && decide (q.first ≤ e) && decide (e < q.first + q.count)
  | _ => false)

def State.apClip (s : State) (off : Nat) (w : Word) : State :=
  let i := (off - 0x120000) / 4
  if !clipWordOk (i % 16) w then s.apBad off false
  else if s.clipLock 0 (i / 16) then s.apBad off true
  else { s with clip := { s.clip with shd := bankSet s.clip.shd i 0 w } }

/-- Envelope entry 0 is fixed: a write to it is bad (R223). -/
def State.apEnv (s : State) (off : Nat) (w : Word) : State :=
  let i := (off - 0x160000) / 4
  if i < 8 ∨ !envWordOk (i % 8) w then s.apBad off false
  else if s.clipLock 1 (i / 8) then s.apBad off true
  else { s with clip := { s.clip with eshd := bankSet s.clip.eshd i 0 w } }

def State.apClipRead (s : State) (off : Nat) : Word :=
  let act := s.flag Fl.CLP_CTRL.READ_ACTIVE
  if off < 0x160000 then smGet (if act then s.clip.act else s.clip.shd) ((off - 0x120000) / 4) 0
  else
    let i := (off - 0x160000) / 4
    smGet (if act then s.clip.eact else s.clip.eshd) i (envReset (i / 8) (i % 8))

end Sys2Proof.Machine
end

