-- ==== Sys2Proof/Machine/Ima.lean ====
section
/-! DEFINITION. The coder of pre-roll blocks and its decoder (R433), and the samples that the pre-roll buffer holds. -/
namespace Sys2Proof.Machine

/-- The standard IMA ADPCM tables (PRESUMED, log entry 93: the manual names them and does not print them). -/
def imaSteps : List Int :=
  [7, 8, 9, 10, 11, 12, 13, 14, 16, 17, 19, 21, 23, 25, 28, 31, 34, 37, 41, 45, 50, 55, 60, 66, 73, 80, 88, 97, 107, 118,
   130, 143, 157, 173, 190, 209, 230, 253, 279, 307, 337, 371, 408, 449, 494, 544, 598, 658, 724, 796, 876, 963, 1060,
   1166, 1282, 1411, 1552, 1707, 1878, 2066, 2272, 2499, 2749, 3024, 3327, 3660, 4026, 4428, 4871, 5358, 5894, 6484,
   7132, 7845, 8630, 9493, 10442, 11487, 12635, 13899, 15289, 16818, 18500, 20350, 22385, 24623, 27086, 29794, 32767]
def imaIndex : List Int := [-1, -1, -1, -1, 2, 4, 6, 8]

/-- The predictor and the step index after a code (R433). -/
def imaNext (pred : Int) (idx code : Nat) : Int × Nat :=
  let step := imaSteps.getD idx 7
  let bit (n : Nat) (v : Int) : Int := if bitN code n then v else 0
  let v := step / 8 + bit 2 step + bit 1 (step / 2) + bit 0 (step / 4)
  (clampI (-32768) 32767 (if bitN code 3 then pred - v else pred + v),
   (clampI 0 88 ((idx : Int) + imaIndex.getD (code % 8) 0)).toNat)

/-- Codes one sample: the code, the predictor and the step index after it. -/
def imaCode (pred : Int) (idx : Nat) (x : Int) : Nat × Int × Nat :=
  let step := imaSteps.getD idx 7
  let neg : Bool := decide (x < pred)
  let d := if neg then pred - x else x - pred
  let b2 : Bool := decide (step ≤ d)
  let d := if b2 then d - step else d
  let b1 : Bool := decide (step / 2 ≤ d)
  let d := if b1 then d - step / 2 else d
  let code := 8 * wB neg + 4 * wB b2 + 2 * wB b1 + wB (decide (step / 4 ≤ d))
  (code, imaNext pred idx code)

/-- Codes a run of samples: the codes in order, the predictor and the index after them. -/
def imaRun (pred : Int) (idx : Nat) (l : List Int) : List Nat × Int × Nat := match l with
  | [] => ([], pred, idx)
  | x :: r =>
    let (c, p, i) := imaCode pred idx x
    let (cs, p, i) := imaRun p i r
    (c :: cs, p, i)

/-- The samples of a run of codes. -/
def imaDecode (pred : Int) (idx : Nat) (l : List Nat) : List Int := match l with
  | [] => []
  | c :: r =>
    let (p, i) := imaNext pred idx c
    p :: imaDecode p i r

abbrev blockNs : Nat := 16000000
abbrev sampleNs : Nat := 62500

/-- The block whose span contains the listening sample n, whose acquisition DT is n × 62,500 ns. -/
def prBlockOf (l : List PrBlock) (n : Int) : Option PrBlock :=
  l.find? (fun b => decide ((b.dt.toNat : Int) ≤ n * sampleNs) && decide (n * sampleNs < b.dt.toNat + blockNs))

/-- Listening sample n as the pre-roll holds it, in Q1.31 left-justified; one that is not held is zero (R433). -/
def prSample (l : List PrBlock) (n : Int) : Int := match prBlockOf l n with
  | some b => (imaDecode b.pred b.idx b.codes).getD (n - b.dt.toNat / sampleNs).toNat 0 * 65536
  | none => 0

end Sys2Proof.Machine
end

