-- ==== Sys2Proof/Machine/Loop.lean ====
section
/-! DEFINITION. Loop recorders (chapter 7): LOOP_SET, LOOP_COMMIT, rings, takes and playback. -/
namespace Sys2Proof.Machine

abbrev Recorder.init : Recorder := ⟨false, 0, 0, 0, 0, 0, 0, [], none, none⟩
def State.recOf (s : State) (r : Nat) : Recorder := smGet s.loop r Recorder.init
def State.setRec (s : State) (r : Nat) (x : Recorder) : State := { s with loop := smSet s.loop r x }

/-- Source address loop.in:r. -/
def loopIn (r : Nat) : ChAddr := BitVec.ofNat 16 (addrOf 0x27 r)

/-! ## LOOP_SET -/

def loopSetValid (p : LoopSetP) : Bool :=
  decide (p.rec_ < 32) && decide (p.fmt < 4) && (match p.op with
    | 0 => !p.loop
    | 1 => !p.en
    | 2 => !p.loop && !p.en && p.fmt == 0 && p.frames == 0 && p.base == 0
    | _ => false)

/-- Check 5 of LOOP_SET (R236, R239, R240). -/
def loopSetRefusal (s : State) (p : LoopSetP) : Status :=
  match p.op with
  | 0 =>
    if (s.recOf p.rec_).run.isSome then .busy
    else if !p.en then .ok
    else if p.frames = 0 ∨ s.regionOk p.base.toNat (p.frames * fmtBytes p.fmt) 64 = false then .invalid
    else if s.hitsReserved p.base.toNat (p.frames * fmtBytes p.fmt) then .denied
    else if s.hitsWriter p.base.toNat (p.frames * fmtBytes p.fmt) (fun w => w == 1000 + p.rec_) then .conflict
    else .ok
  | 1 =>
    if !s.regionOk p.base.toNat (p.frames * fmtBytes p.fmt) 64 then .invalid
    else if s.hitsReserved p.base.toNat (p.frames * fmtBytes p.fmt) then .denied
    else .ok
  | _ => .ok

/-- LOOP_SET at its commit boundary (R235, R238, R245). -/
def loopSetEffect (p : LoopSetP) (s : State) : Done :=
  let x := s.recOf p.rec_
  match p.op with
  | 0 =>
    if p.en then
      okDone (s.setRec p.rec_ { x with en := true, fmt := p.fmt, rlen := p.frames, base := p.base.toNat, k0 := s.time.ts,
                                       fill := 0, lastK := s.time.ts, ones := [] })
    else okDone (s.setRec p.rec_ { x with en := false, fill := 0, ones := [] })
  | 1 => okDone (s.setRec p.rec_ { x with play := some ⟨p.fmt, p.loop, p.frames, p.base.toNat, 0, grAt 0x100000⟩ })
  | _ => match x.play with
    | some y => okDone (s.setRec p.rec_ { x with play := some { y with fade := grGo y.fade.prev 0 16 false } })
    | none => okDone s

def execLoopSet (h : Hdr) (p : LoopSetP) (s : State) : Host.Outcome State Fault Refusal :=
  .next (s.runCmd h (.loopSet p) 0x0621 (loopSetValid p) true (loopSetRefusal s p) (loopSetEffect p))

/-! ## Formats -/

/-- A Q1.31 value in a format: rounded to nearest and saturated (R235). -/
def toFmt (fmt : Nat) (x : Int) : Nat :=
  let put (w : Nat) : Nat := (BitVec.ofInt w (clampI (-(2 ^ (w - 1))) (2 ^ (w - 1) - 1) (shrAway x (32 - w)))).toNat
  match fmt with
  | 0 => put 16
  | 1 => put 24
  | 2 => put 24 * 256
  | _ => (wI x).toNat

/-- Writes frame i of a region. -/
def State.putFrame (s : State) (base fmt i : Nat) (x : Int) : State :=
  { s with dram := memWrite s.dram (base + i * fmtBytes fmt) (toFmt fmt x) (fmtBytes fmt) }

/-- Reads frame i of a region. -/
def State.getFrame (s : State) (base fmt i : Nat) : Int :=
  fmtSample fmt (memRead s.dram (base + i * fmtBytes fmt) (fmtBytes fmt))

/-- Ring index of a tick (R235). -/
def ringIdx (x : Recorder) (k : TS) : Nat := (k - x.k0).toNat % x.rlen

/-- The sample of a held tick. -/
def State.heldSample (s : State) (x : Recorder) (k : TS) : Int := s.getFrame x.base x.fmt (ringIdx x k)

/-- How many ticks a ring holds: none once a virtual tick lies between the last one and the present (R235). -/
def State.ringHeld (s : State) (x : Recorder) : Nat :=
  if s.time.running && (x.lastK == s.time.ts || x.lastK == s.time.ts - 1) then x.fill else 0

/-- Is a tick held (R235)? -/
def State.held (s : State) (x : Recorder) (k : TS) : Bool :=
  x.en && decide (0 ≤ tsDiff x.lastK k) && decide (tsDiff x.lastK k < (s.ringHeld x : Int))

/-! ## LOOP_COMMIT -/

def loopCommitValid (p : LoopCommitP) : Bool := decide (p.rec_ < 32)

/-- Check 5 of LOOP_COMMIT (R236, R237, R239). -/
def loopCommitRefusal (s : State) (p : LoopCommitP) : Status :=
  let x := s.recOf p.rec_
  let n := tsDiff p.b p.a
  let bytes := p.cap * fmtBytes x.fmt
  if x.run.isSome then .busy
  else if n < 0 ∨ (p.cap : Int) < n + 1 ∨ s.regionOk p.base.toNat bytes 64 = false then .invalid
  else if p.preroll && !(s.lsnClaims (s.selOf (loopIn p.rec_)).src.toNat) then .invalid
  else if s.hitsReserved p.base.toNat bytes then .denied
  else if s.hitsWriter p.base.toNat bytes (fun _ => false) then .conflict
  else .ok

/-- Writes zeros over the ticks of a take from one on, so many of them (R236). -/
def State.takeZeros (s : State) (fmt base : Nat) (start from_ : TS) (n : Nat) : State :=
  (List.range n).foldl (fun s i => s.putFrame base fmt ((tsDiff from_ start).toNat + i) 0) s

/-- The ticks of a take from its next one up to but not including another: virtual, or never held, they are zero (R236). -/
def State.takeGap (s : State) (fmt : Nat) (run : LoopRun) (k : TS) : State := match run.start with
  | some st => s.takeZeros fmt run.base st run.next (tsDiff k run.next).toNat
  | none => s

/-- Ends a commit: the ticks that never came, the write-back and the records (R236, R246). -/
def State.takeDone (s : State) (r : Nat) (run : LoopRun) : State :=
  let s := s.takeGap (s.recOf r).fmt run (run.b + 1)
  let start := run.start.getD (run.b + 1)
  let frames := (tsDiff run.b start + 1).toNat
  let s := s.setRec r { s.recOf r with run := none }
  let s := s.complete run.hdr 0x0622 .ok s.time.ts s.time.bdt start (wN frames) (wN (run.prer % 2 ^ 24)) false
  let s := s.log Src.CLP 0x6104 1 (wN r) (wN frames) (wN run.prer)
  if run.gaps = 0 then s else s.log Src.CLP 0x6105 3 (wN r) (wN run.gaps) 0

/-- Writes the gathered samples of a take whose start is known, zeros between them. -/
def State.takeFlush (s : State) (fmt : Nat) (run : LoopRun) : State := match run.start with
  | some st =>
    let e := if 0 < tsDiff run.next run.b then run.b + 1 else run.next
    let s := s.takeZeros fmt run.base st st (tsDiff e st).toNat
    run.got.foldl (fun s p => s.putFrame run.base fmt (tsDiff p.1 st).toNat p.2) s
  | none => s

/-- The ticks of a to b that are held at the commit, oldest first. -/
def State.heldTicks (s : State) (x : Recorder) (a b : TS) : List TS :=
  let n := s.ringHeld x
  ((List.range n).map (fun i => x.lastK - BitVec.ofNat 32 (n - 1 - i))).filter (fun k =>
    decide (0 ≤ tsDiff k a) && decide (0 ≤ tsDiff b k))

/-- J (R237): the first held tick in which the source's level factors were all one; with none, the commit boundary. -/
def State.joinOf (s : State) (x : Recorder) : TS :=
  let oldest := x.lastK - BitVec.ofNat 32 (s.ringHeld x - 1)
  if s.ringHeld x = 0 then s.time.ts
  else match x.ones.getLast? with
    | some (k, _) => if 0 ≤ tsDiff k oldest then k else oldest
    | none => s.time.ts

/-- LOOP_COMMIT at its commit boundary T (R236, R237): held ticks are copied; ticks from T on follow as they come. With PREROLL
the take is laid out when the mover has the pre-roll. -/
def loopCommitEffect (h : Hdr) (p : LoopCommitP) (s : State) : Done :=
  let x := s.recOf p.rec_
  let t := s.time.ts
  let join := s.joinOf x
  let ks := (s.heldTicks x p.a p.b).filter (fun k => !p.preroll || decide (0 ≤ tsDiff k join))
  let run : LoopRun := {
    hdr := h, a := p.a, b := p.b, base := p.base.toNat, cap := p.cap, pre := p.preroll, t := t, join := join,
    cfrom := ks.headD t, cnum := ks.length, start := if p.preroll then none else ks.head?,
    got := (ks.map (fun k => (k, s.heldSample x k))).reverse, next := if 0 ≤ tsDiff t p.a then t else p.a,
    copied := false, prer := 0, gaps := 0 }
  let s := if p.preroll then s else s.takeFlush x.fmt run
  laterDone (s.setRec p.rec_ { x with run := some (if p.preroll then run else { run with got := [] }) })

def execLoopCommit (h : Hdr) (p : LoopCommitP) (s : State) : Host.Outcome State Fault Refusal :=
  .next (s.runCmd h (.loopCommit p) 0x0622 (loopCommitValid p) true (loopCommitRefusal s p) (loopCommitEffect h p))

/-! ## Pre-roll (R237) -/

/-- The DT of a tick's boundary, real or virtual (R49, R52). -/
def boundDt : List Bound → TS → Option DT
  | [], _ => none
  | b :: r, k =>
    if k = b.ts then some b.dt
    else if 0 < tsDiff k b.ts then none
    else match r with
      | [] => none
      | o :: _ =>
        if 0 < tsDiff k o.ts then some (o.dt + BitVec.ofNat 64 ((tsDiff k o.ts).toNat * 1000000000 / fdHz b.vr))
        else boundDt r k

/-- The boundaries down to the last that is earlier than a DT. -/
def boundsFrom (d : Nat) : List Bound → List Bound
  | [] => []
  | b :: r => if d ≤ b.dt.toNat then b :: boundsFrom d r else [b]

/-- The Thicket tap total of an input in ticks and cc (Table AI-4). -/
def State.tapTotal (s : State) (a : ChAddr) : Nat × Nat :=
  if clsOf a = 0x01 then
    let rate := s.pdmRate (idxOf a / 2)
    let lin := cfgFilt (s.rd (Reg.AIN_PDMCH (idxOf a))) == 1
    ((if !lin then 3 else 19), (match rate with
      | 0 => 40 | 1 => 64 | 2 => 88 | _ => 184))
  else ((if cfgFilt (s.rd (Reg.AIN_CFG (idxOf a))) = 1 then 19 else 3), 40)

/-- The same in ns at the house rate. -/
def State.tapNs (s : State) (a : ChAddr) : Rat :=
  let (tk, cc) := s.tapTotal a
  tickNs s.clk.rate * ((tk : Rat) + (cc : Rat) / (ccPerTk s.clk.rate : Rat))

/-- The pre-roll at a tick of a recorder's source, resampled to Fd by the kernel of R226 with σ = 16,000/Fd; none where the
pre-roll does not cover the tick. -/
def State.preAt (s : State) (a : ChAddr) (k : TS) : Option Int := match boundDt s.time.past k with
  | none => none
  | some d =>
    let u : Rat := ((d.toNat : Rat) - s.tapNs a) / (sampleNs : Rat)
    let n := u.floor
    if (prBlockOf s.lsn.blocks n).isNone then none
    else
      let step := (roundAway (16000 * 2 ^ 24 / (fdHz s.clk.rate : Rat))).toNat
      let frames := (List.range 32).map (fun j => ((prSample s.lsn.blocks (kernelAt 32 n j) : Int) : Rat))
      some (satQ31 (roundAway (kernelSum frames (((u - n) * 2 ^ 32).floor.toNat) step)))

/-- The crossfade over J to J+31, from pre-roll to ring (R237). -/
def joinMix (pre ring : Int) (i : Nat) : Int := r173 pre ring 32 i

/-- A take with PREROLL is laid out (R237): pre-roll from a to J − 1, zeros where it does not cover them, dropped before the
first frame that it does; the crossfade from J on when it covers J to J+31. -/
def State.prerollLay (s : State) (r : Nat) (run : LoopRun) : LoopRun :=
  let a := (s.selOf (loopIn r)).src
  let last := if 0 < tsDiff run.join run.b then run.b + 1 else run.join
  let ticks := (List.range (tsDiff last run.a).toNat).map (fun i => run.a + BitVec.ofNat 32 i)
  let pre := (ticks.map (fun k => (k, s.preAt a k))).dropWhile (fun p => p.2.isNone)
  let mix := (List.range 32).map (fun i => s.preAt a (run.join + BitVec.ofNat 32 i))
  let all := mix.all Option.isSome
  let got := run.got.map (fun p =>
    let i := tsDiff p.1 run.join
    if all && decide (0 ≤ i) && decide (i < 32) then (p.1, joinMix ((mix.getD i.toNat none).getD 0) p.2 i.toNat) else p)
  let start := match pre.head? with
    | some p => some p.1
    | none => (run.got.getLast?).map (·.1)
  { run with
    start := start, got := got ++ (pre.map (fun p => (p.1, p.2.getD 0))).reverse, copied := true,
    prer := (pre.filter (fun p => p.2.isSome)).length, gaps := (pre.filter (fun p => p.2.isNone)).length }

/-- LOOP_COPY_DONE (R236, R237): the mover has moved every held tick; with PREROLL the take is laid out. -/
def execLoopCopyDone (r moved : Nat) (dt : DT) (s : State) : Host.Outcome State Fault Refusal :=
  let s := s.advance dt
  let x := s.recOf r
  match x.run with
  | none => .next s
  | some run =>
    if run.copied ∨ moved < run.cnum then .next s
    else if run.pre then
      let run := s.prerollLay r run
      .next ((s.takeFlush x.fmt run).setRec r { x with run := some { run with got := [] } })
    else .next (s.setRec r { x with run := some { run with copied := true } })

/-- A data error found in a ring copy: the frames of the take that come from the 64-byte line are zero (R241). -/
def State.ringCopyErr (s : State) (r line : Nat) : State :=
  let x := s.recOf r
  match x.run with
  | none => s
  | some run =>
    let n := fmtBytes x.fmt
    let hit (k : TS) : Bool := overlap (x.base + ringIdx x k * n) n line 64
    let ks := ((List.range run.cnum).map (fun i => run.cfrom + BitVec.ofNat 32 i)).filter hit
    if run.copied then s
    else match run.start with
      | some st => ks.foldl (fun s k => s.putFrame run.base x.fmt (tsDiff k st).toNat 0) s
      | none => s.setRec r { x with run := some { run with got := run.got.map (fun p => if ks.contains p.1 then (p.1, 0) else p) } }

/-! ## A recorder in a tick -/

/-- Are the level factors of a recorder's source all one (R237)? -/
def State.sourceFull (s : State) (a : ChAddr) : Bool := match clsOf a with
  | 0x00 => let c := s.ainCh (idxOf a); c.mute.cur == 1 && c.jack.cur == 1 && c.fault.cur == 1 && c.filt.cur == 1
  | 0x01 => let c := s.pdmCh (idxOf a); c.mute.cur == 1 && c.fault.cur == 1 && c.en.cur == 1 && c.filt.cur == 1
  | _ => true

/-- The runs of held ticks with all level factors at one, after a tick (R237). -/
def onesNext (ones : List (TS × TS)) (t oldest : TS) (full : Bool) : List (TS × TS) :=
  let l := if !full then ones else match ones with
    | (a, b) :: r => if b = t - 1 then (a, t) :: r else (t, t) :: ones
    | [] => [(t, t)]
  l.filter (fun p => decide (0 ≤ tsDiff p.2 oldest))

/-- The ring in a tick (R235). -/
def State.ringRun (s : State) (r : Nat) (v : Int) : State :=
  let x := s.recOf r
  let t := s.time.ts
  if x.en then
    let s := s.putFrame x.base x.fmt (ringIdx x t) v
    let fill := min x.rlen (if x.lastK = t ∨ x.lastK = t - 1 then x.fill + 1 else 1)
    s.setRec r { x with
      fill := fill, lastK := t,
      ones := onesNext x.ones t (t - BitVec.ofNat 32 (fill - 1)) (s.sourceFull (s.selOf (loopIn r)).src) }
  else s

/-- A running take in a tick (R236). Its first frame is the first that is held. -/
def State.takeRun (s : State) (r : Nat) (v : Int) : State :=
  let x := s.recOf r
  let t := s.time.ts
  match x.run with
  | some run =>
    if decide (0 ≤ tsDiff t run.t) && decide (0 ≤ tsDiff t run.a) && decide (0 ≤ tsDiff run.b t) then
      if run.start = none ∧ run.pre = true ∧ run.copied = false then s.setRec r { x with run := some { run with got := (t, v) :: run.got, next := t + 1 } }
      else
        let st := run.start.getD t
        let s := (s.takeGap x.fmt run t).putFrame run.base x.fmt (tsDiff t st).toNat v
        s.setRec r { x with run := some { run with start := some st, next := t + 1 } }
    else s
  | none => s

/-- Playback in a tick (R238). -/
def State.playRun (s : State) (r : Nat) : State :=
  let x := s.recOf r
  match x.play with
  | some y =>
    let live := y.loop || decide (y.i < y.frames)
    let raw := if live && decide (0 < y.frames) then s.getFrame y.base y.fmt (if y.loop then y.i % y.frames else y.i) else 0
    (s.put (addrOf 0x09 r) ⟨shrAway (raw * y.fade.cur) 20, 0⟩).setRec r { x with play := some { y with i := y.i + 1 } }
  | none => s

/-- One recorder in a tick: the ring, a running take, playback. -/
def State.recRun (s : State) (r : Nat) : State :=
  let v := (s.sinkVal (loopIn r)).val
  ((s.ringRun r v).takeRun r v).playRun r

def State.loopRun (s : State) : State := (s.loop.map (·.1)).foldl State.recRun s

/-- The recorders' ramps at a boundary; a playback ends with its ramp. -/
def State.loopRamps (s : State) : State :=
  { s with loop := s.loop.map (fun p => (p.1, { p.2 with play := match p.2.play with
    | some y => if y.fade.tgt = 0 && grOver y.fade then none else some { y with fade := grTick y.fade }
    | none => none })) }

/-- The takes that are complete: tick b has been written and the copy has finished (R236). -/
def State.takesEnd (s : State) : State :=
  s.loop.foldl (fun s p => match p.2.run with
    | some run => if run.copied && decide (0 < tsDiff s.time.ts run.b) then s.takeDone p.1 run else s
    | none => s) s

/-- A ring stops holding ticks when virtual ticks come (R235). -/
def State.ringsBreak (s : State) : State := { s with loop := s.loop.map (fun p => (p.1, { p.2 with fill := 0, ones := [] })) }

end Sys2Proof.Machine
end

