-- ==== Sys2Proof/Machine/Time.lean ====
section
/-! DEFINITION. Network time, wall time and epochs (chapter 2): the mappings of R55, slews, epoch events, the history,
the measurements of gPTP and NET_SYNC, TIME_WALL_SET, snapshots, and the keeper's calibration. -/
namespace Sys2Proof.Machine

/-! ## Mappings -/

/-- The slew term s of R58: ±500 ppm. -/
abbrev slewTerm : Int := 1099511628

/-- v_a + (d − d_a) + floor ((d − d_a) × r / 2^41) (R55). -/
def mapVal (da : DT) (va r : Int) (d : DT) : Int :=
  let e : Int := (d.toNat : Int) - da.toNat
  va + e + (e * r) / 2 ^ 41

/-- The target mapping's value during a slew. -/
def slewTarget (t : Slew) (d : DT) : Int := mapVal t.da t.va t.r d

/-- The value that a mapping gives by its own registers, with s added to its rate while it slews (R55, R58). -/
def mapOwn (m : Mapping) (d : DT) : Int := match m.slew with
  | none => mapVal m.da m.va m.r d
  | some t => mapVal m.da m.va (m.r + if t.pos then slewTerm else -slewTerm) d

/-- Has the slewing value reached the target's at a DT, or passed it (R58)? -/
def slewMet (m : Mapping) (t : Slew) (d : DT) : Bool :=
  if t.pos then decide (slewTarget t d ≤ mapOwn m d) else decide (mapOwn m d ≤ slewTarget t d)

/-- What the slew still has to absorb at a DT, before the floors of R55, in units of 2^−41 ns. -/
def slewGap (m : Mapping) (t : Slew) (d : DT) : Int :=
  let a : Int := (d.toNat : Int) - m.da.toNat
  let b : Int := (d.toNat : Int) - t.da.toNat
  let w : Int := (t.va - m.va + b - a) * 2 ^ 41 + b * t.r - a * m.r - a * (if t.pos then slewTerm else -slewTerm)
  if t.pos then w else -w

/-- The first DT at which the slew has met its target, from a DT on and within so many ns. -/
def slewScan (m : Mapping) (t : Slew) : Nat → DT → Option DT
  | 0, _ => none
  | n + 1, d => if slewMet m t d then some d else if d.toNat + 1 = 2 ^ 64 then none else slewScan m t n (d + 1)

/-- The DT at which a slew ends (R58), if it lies no later than a DT. The two values differ from their exact ones by less than
1 ns, which the slew makes up in 2,001 ns: the end lies that near to where the exact values meet. -/
def slewEnd? (m : Mapping) (d : DT) : Option DT := match m.slew with
  | none => none
  | some t =>
    if 2 ^ 41 < slewGap m t d then none
    else
      let from_ : Int := (m.da.toNat : Int) + (slewGap m t m.da - 2 ^ 41) / slewTerm
      let from_ : DT := if from_ ≤ m.da.toNat then m.da else BitVec.ofInt 64 from_
      match slewScan m t 4004 from_ with
      | some x => if x.toNat ≤ d.toNat then some x else none
      | none => none

/-- A mapping that holds from a DT on. -/
def mapTo (d : DT) (v r : Int) : Mapping := ⟨true, d, v, r, none⟩

/-- A mapping as it stands at a DT: from the end of its slew on, the target, re-anchored there (R58). -/
def mapNow (m : Mapping) (d : DT) : Mapping := match m.slew, slewEnd? m d with
  | some t, some x => mapTo x (slewTarget t x) t.r
  | _, _ => m

/-- The mapped value at a DT: a slewing mapping follows its target exactly from where it reaches or passes it (R58). -/
def mapAt (m : Mapping) (d : DT) : Int := mapOwn (mapNow m d) d

/-- The mapped value, zero while the mapping is invalid (R48). -/
def mapRead (m : Mapping) (d : DT) : Int := if m.valid then mapAt m d else 0

/-- Has the slew reached its target at a DT? -/
def slewOver (m : Mapping) (d : DT) : Bool := (slewEnd? m d).isSome

/-- A correction at a DT towards a target mapping (R58): re-anchored with the target's rate, s running when the values
differ. -/
def slewTo (m target : Mapping) (d : DT) : Mapping :=
  let v := mapAt m d
  let w := mapAt target d
  if v = w then mapTo d v target.r
  else ⟨true, d, v, target.r, some ⟨target.da, target.va, target.r, decide (v < w)⟩⟩

/-- The first DT at which a mapping with a given rate gives a value: the estimate from the rate, corrected by its
neighbours. -/
def invAt (da : DT) (va r p : Int) : DT :=
  let est : Int := (da.toNat : Int) + (p - va) * 2 ^ 41 / (2 ^ 41 + r)
  let cand := (List.range 8).map (fun (i : Nat) => BitVec.ofInt 64 (est - 3 + i))
  match cand.find? (fun d => decide (p ≤ mapVal da va r d)) with
  | some d => d
  | none => BitVec.ofInt 64 est

/-- The first DT at which a mapping gives a value (R294): by its own rate, or by its target's where the slew is over there. -/
def mapInv (m : Mapping) (p : Int) : DT :=
  let d := invAt m.da m.va (match m.slew with
    | none => m.r
    | some t => m.r + if t.pos then slewTerm else -slewTerm) p
  let n := mapNow m d
  if m.slew.isSome ∧ n.slew.isNone then invAt n.da n.va n.r p else d

def State.setNet (s : State) (m : Mapping) : State := { s with time := { s.time with net := m } }
def State.setWall (s : State) (m : Mapping) : State := { s with time := { s.time with wall := m } }

/-! ## Epoch events -/

/-- A value of a mapping as a 64-bit word. -/
def val64 (v : Int) : BitVec 64 := BitVec.ofInt 64 v

/-- An event marked "new epoch" in Table TK-5: the epoch, the history entry, the EPOCH record (R56, R60, R61). -/
def State.epochEvent (s : State) (kind : Nat) (r : Int) (dt : DT) (old new : Int) : State :=
  let e := s.time.epoch + 1
  let h : HistEntry := ⟨e, kind, r, dt, old, new⟩
  let s := { s with time := { s.time with epoch := e, hist := (h :: s.time.hist).take 32, histCnt := s.time.histCnt + 1 } }
  let step := if kind = 0 ∨ kind = 3 then 0 else usWord (new - old)
  s.logAt Src.TIME 0xD003 2 dt (wN (e.toNat + kind * 256)) step s.tsNow

/-- A slew starts (R58, Table TK-13). -/
def State.slewLog (s : State) (wall : Bool) (delta : Int) (dt : DT) : State :=
  if delta = 0 then s else s.logAt Src.TIME 0x1009 1 dt (wN (wB wall)) (usWord delta) 0

/-- A kind 4 leader starts its setpoint anew after a network epoch (R38). -/
def State.netEpochAdopt (s : State) : State :=
  if s.clk.kind = 4 ∧ (s.clk.lstate = .locked ∨ s.clk.lstate = .acquiring ∨ s.clk.lstate = .outOfRange) then
    { s with clk := { s.clk with lstate := .acquiring, adopt := true, integ := s.clk.dco, within := 0 } }
  else s

/-- A measurement of network time taken at DT `at` (Table TK-5): the network time v at DT d with rate r under a
grandmaster. -/
def State.netMeasure (s : State) (at_ d : DT) (v r : Int) (gm : BitVec 64) : State :=
  let m := s.time.net
  let target := mapTo d v r
  let new := mapAt target at_
  let old := mapRead m at_
  let change := m.valid && gm != s.time.netGm
  let s := { s with time := { s.time with netHold := false, netGm := gm, netSync := at_ } }
  let step (kind : Nat) : State := ((s.setNet target).epochEvent kind r at_ old new).netEpochAdopt
  if !m.valid then step 0
  else if change then step 2
  else if ((new - old).natAbs : Int) > (s.rd Reg.TIME_NET_STEP).toNat then step 1
  else (s.setNet (slewTo m target at_)).slewLog false (new - old) at_

/-- A gPTP Sync result is applied (R288 mode 1). No Sync is received while no control core runs. -/
def execGptpSync (dt : DT) (net : BitVec 64) (r : Word) (gm : BitVec 64) (s : State) : Host.Outcome State Fault Refusal :=
  let s := s.advance dt
  .next (if s.fld Fl.NET_GPTP.MODE = 1 ∧ s.coreUp then s.netMeasure dt dt net.toInt r.toInt gm else s)

/-- The sync timeout has passed (R288): holdover. -/
def execNetSyncLoss (dt : DT) (s : State) : Host.Outcome State Fault Refusal :=
  let s := s.advance dt
  let mode := s.fld Fl.NET_GPTP.MODE
  let due := mode = 1 ∨ (mode = 2 ∧ s.time.netSync.toNat + oneSecond ≤ dt.toNat)
  .next (if s.time.net.valid ∧ ¬ s.time.netHold ∧ due then
    ({ s with time := { s.time with netHold := true } }).logAt Src.TIME 0x1007 3 dt (wI s.time.net.r) 0 0
  else s)

/-- The role changes (R289): a new grandmaster keeps a valid mapping and establishes one where there is none. -/
def execGptpRoleChange (role : Nat) (asCapable : Bool) (dt : DT) (s : State) : Host.Outcome State Fault Refusal :=
  let s := s.advance dt
  if s.fld Fl.NET_GPTP.MODE = 1 ∧ role < 4 then
    let old := bitsOf (s.rd Reg.NET_GPTP_STAT) 0 2
    let s := s.wr Reg.NET_GPTP_STAT (wN (role + 4 * wB asCapable))
    let s := if role = 2 then
        let s := { s with time := { s.time with netGm := 0 } }
        if s.time.net.valid then s
        else
          let v := if s.time.wall.valid then mapAt s.time.wall dt else (dt.toNat : Int)
          ((s.setNet (mapTo dt v 0)).epochEvent 0 0 dt 0 v).netEpochAdopt
      else s
    .next (if role = old then s else s.logAt Src.NET 0x9009 2 dt (wN role) (wN (s.fld Fl.NET_GPTP.PORT)) 0)
  else .next s

/-- A slew ends (R58). -/
def execSlewEnd (wall : Bool) (dt : DT) (s : State) : Host.Outcome State Fault Refusal :=
  let s := s.advance dt
  .next (if wall then s.setWall (mapNow s.time.wall dt) else s.setNet (mapNow s.time.net dt))

/-! ## TIME_WALL_SET and NET_SYNC -/

/-- Is a DT 2^32 ns or more from another? -/
def farDt (a b : DT) : Bool := decide (2 ^ 32 ≤ ((a.toNat : Int) - b.toNat).natAbs)

def timeWallSetValid (p : WallSetP) : Bool := decide (p.mode ≤ 1)

def wallTarget (p : WallSetP) : Mapping := mapTo p.dA p.vA.toInt p.r.toInt

/-- R59, at the commit boundary. -/
def timeWallSetRefusal (s : State) (p : WallSetP) : Status :=
  let d := s.time.bdt
  if farDt p.dA d then .invalid
  else if p.mode = 1 then
    if !s.time.wall.valid then .invalid
    else if ((mapAt (wallTarget p) d - mapAt s.time.wall d).natAbs : Int) > (s.rd Reg.TIME_WALL_SLEWMAX).toNat then .invalid
    else .ok
  else .ok

/-- The wall mapping from its commit boundary (R56, R58, R72). -/
def timeWallSetEffect (p : WallSetP) (s : State) : Done :=
  let d := s.time.bdt
  let m := s.time.wall
  let t := wallTarget p
  let old := mapRead m d
  let new := mapAt t d
  let delta := if m.valid then new - old else 0
  let s := if p.mode = 1 then (s.setWall (slewTo m t d)).slewLog true delta d
    else (s.setWall t).epochEvent (if m.valid then 4 else 3) p.r.toInt d old new
  let w := val64 delta
  ⟨s, .ok, s.time.epoch.setWidth 32, w.extractLsb' 0 32, w.extractLsb' 32 32, false, false⟩

def execTimeWallSet (h : Hdr) (p : WallSetP) (s : State) : Host.Outcome State Fault Refusal :=
  .next (s.runCmd h (.timeWallSet p) 0x0103 (timeWallSetValid p) true (timeWallSetRefusal s p) (timeWallSetEffect p))

/-- NET_SYNC is for mode 2 (R304). -/
def netSyncHost (s : State) : Bool := s.fld Fl.NET_GPTP.MODE == 2
def netSyncRefusal (s : State) (p : NetSyncP) : Status := if farDt p.dt s.time.bdt then .invalid else .ok
def netSyncEffect (p : NetSyncP) (s : State) : Done :=
  let s := s.netMeasure s.time.bdt p.dt p.net.toInt p.r.toInt (p.tag.setWidth 64)
  ⟨s, .ok, s.time.epoch.setWidth 32, 0, 0, false, false⟩

def execNetSync (h : Hdr) (p : NetSyncP) (s : State) : Host.Outcome State Fault Refusal :=
  .next (s.runCmd h (.netSync p) 0x0902 true (netSyncHost s) (netSyncRefusal s p) (netSyncEffect p))

/-! ## Snapshots and calibration -/

/-- TIME_STATUS. -/
def State.timeStatus (s : State) : Word :=
  let t := s.time
  wN (t.epoch.toNat + 256 * wB t.net.valid + 512 * wB t.netHold + 1024 * wB t.wall.valid + 2048 * wB (mapNow t.wall t.dt).slew.isSome
    + 4096 * wB (mapNow t.net t.dt).slew.isSome + 65536 * (s.host.pend.length % 16384))

/-- SNAP captures DT, TS32, both mapped times and TIME_STATUS in one reference cycle (R48). -/
def execTimeSnap (s : State) : Host.Outcome State Fault Refusal :=
  let d := s.time.dt
  let s := s.wr64 Reg.TIME_SNAP_DT_LO Reg.TIME_SNAP_DT_HI d
  let s := s.wr Reg.TIME_SNAP_TS32 s.tsNow
  let s := s.wr64 Reg.TIME_SNAP_NET_LO Reg.TIME_SNAP_NET_HI (val64 (mapRead s.time.net d))
  let s := s.wr64 Reg.TIME_SNAP_WALL_LO Reg.TIME_SNAP_WALL_HI (val64 (mapRead s.time.wall d))
  .next (s.wr Reg.TIME_SNAP_STATUS s.timeStatus)

/-- Reference cycles counted in 32,768 keeper cycles become TIME_XO_RATIO, Q16.16 (R47), while the main oscillator runs. -/
def execXoRatioMeasure (cycles : Nat) (s : State) : Host.Outcome State Fault Refusal :=
  .next (if s.time.keeper then s else s.wr Reg.TIME_XO_RATIO (wN (cycles * 2)))

/-- TIME_TICK_PER: the mean period of the last 1,024 real ticks, in ns, Q16.16 (R50); before there are so many, a value that the
manual leaves open, and zero before the first. -/
def State.tickPer (s : State) : Word :=
  if s.time.pers.length = 1024 then wN (s.time.pers.foldl (fun a n => a + n) 0 * 64)
  else if s.time.hadTick then Config.tickPerEarly s.time.bdts else 0

end Sys2Proof.Machine
end

