-- ==== Sys2Proof/Machine/Clock.lean ====
section
/-! DEFINITION. The house clock and its leader (chapter 2): election, loss, return and the loop, changes of the house
rate, the start of the clock. -/
namespace Sys2Proof.Machine

/-! ## Directions and contexts as the leader rules see them -/

abbrev SapDir.init : SapDir :=
  ⟨.off, false, grAt 0, grAt 0x100000, 8, [], [], none, [], none, none, [], 0, 0, 0, none, 0, 0, 0, false, none, none, false,
   false, 0, none, 0, [], []⟩

/-- The key of a direction: port + 8 × direction. -/
def sapKey (port dir : Nat) : Nat := port + 8 * dir
def State.sapDir (s : State) (k : Nat) : SapDir := smGet s.sap k SapDir.init
def State.setSap (s : State) (k : Nat) (x : SapDir) : State := { s with sap := smSet s.sap k x }
def State.updSap (s : State) (k : Nat) (f : SapDir → SapDir) : State := s.setSap k (f (s.sapDir k))

/-- The registers of a direction. -/
def sapCfgReg (k : Nat) : Nat := if k < 8 then Reg.SAP_RX_CFG k else Reg.SAP_TX_CFG (k - 8)
def sapFrameReg (k : Nat) : Nat := if k < 8 then Reg.SAP_RX_FRAME k else Reg.SAP_TX_FRAME (k - 8)
def sapSlotsReg (k : Nat) : Nat := if k < 8 then Reg.SAP_RX_SLOTS k else Reg.SAP_TX_SLOTS (k - 8)
def sapPhaseReg (k : Nat) : Nat := if k < 8 then Reg.SAP_RX_PHASE k else Reg.SAP_TX_PHASE (k - 8)
def State.sapCfg (s : State) (k : Nat) : Word := s.rd (sapCfgReg k)

/-- Fields of SAP_RX_CFG and SAP_TX_CFG. -/
def scEn (w : Word) : Bool := bitN w.toNat 31
def scRole (w : Word) : Nat := bitsOf w 29 2
def scBclkInv (w : Word) : Bool := bitN w.toNat 28
def scFsInv (w : Word) : Bool := bitN w.toNat 27
def scShare (w : Word) : Bool := bitN w.toNat 25
def scFmt (w : Word) : Nat := bitsOf w 23 2
def scSlotw (w : Word) : Nat := match bitsOf w 21 2 with
  | 0 => 16 | 1 => 24 | _ => 32
def scDataw (w : Word) : Nat := bitsOf w 15 6
def scOffset (w : Word) : Nat := bitsOf w 10 5
def scNslots (w : Word) : Nat := bitsOf w 5 5 + 1
def scDepth (w : Word) : Nat := match bitsOf w 3 2 with
  | 0 => 3 | 1 => 4 | 2 => 8 | _ => 16
def scSmute (w : Word) : Nat := match bitsOf w 1 2 with
  | 0 => 8 | 1 => 32 | 2 => 128 | _ => 512
def frLen (w : Word) : Nat := bitsOf w 0 11
def frRate (w : Word) : Nat := bitsOf w 14 18

abbrev NetCtx.init : NetCtx :=
  ⟨.idle, 0, grAt 0x100000, 8, [], [], none, none, 0, 0, none, 0, 0, 0, none, false, false, false, none, [], 0, none, [],
   0, 0, 0, 0, 0, 0⟩

def State.netCtx (s : State) (n : Nat) : NetCtx := smGet s.net.ctx n NetCtx.init
def State.setCtx (s : State) (n : Nat) (x : NetCtx) : State := { s with net := { s.net with ctx := smSet s.net.ctx n x } }
def State.updCtx (s : State) (n : Nat) (f : NetCtx → NetCtx) : State := s.setCtx n (f (s.netCtx n))

/-- The entry of a context (Table NW-2), word by word. -/
def State.ctxWord (s : State) (n i : Nat) : Word := smGet s.net.act (n * 16 + i) 0
def cxTalker (f : Nat → Word) : Bool := bitN (f 4).toNat 0
def cxMac (f : Nat → Word) : Nat := bitsOf (f 4) 1 1
def cxTagged (f : Nat → Word) : Bool := bitN (f 4).toNat 2
def cxTci (f : Nat → Word) : BitVec 16 := (f 3).extractLsb' 16 16
def cxClass (f : Nat → Word) : Nat := bitsOf (f 4) 5 1
def cxAsrc (f : Nat → Word) : Bool := bitN (f 4).toNat 3
def cxTvReq (f : Nat → Word) : Bool := bitN (f 4).toNat 4
def cxFmt (f : Nat → Word) : Nat := bitsOf (f 4) 8 8
def cxChans (f : Nat → Word) : Nat := bitsOf (f 4) 16 8
def cxFrames (f : Nat → Word) : Nat := bitsOf (f 4) 24 8
def cxFirst (f : Nat → Word) : Nat := bitsOf (f 5) 0 16
def cxHold (f : Nat → Word) : Nat := let x := bitsOf (f 5) 16 16; if x = 0 then 250 else x
def cxRate (f : Nat → Word) : Nat := (f 6).toNat
def cxOffset (f : Nat → Word) : Nat := (f 7).toNat
def cxLoss (f : Nat → Word) : Nat := let x := bitsOf (f 8) 0 8; if x = 0 then 2 else x

/-- Armed, running, lost or realigning. -/
def ctxUp (x : NetCtx) : Bool := decide (x.state ≠ .idle)
def State.ctxsUp (s : State) : List Nat := (s.net.ctx.filter (fun p => ctxUp p.2)).map (·.1)

/-- Audio channels of a context: a CRF context has none. -/
def State.ctxChans (s : State) (n : Nat) : Nat := if cxFmt (s.ctxWord n) = 3 then 0 else cxChans (s.ctxWord n)

/-! ## The ASRC pool (R263) and the limit on running channels (R292) -/

def asrcPool (rate : Nat) : Nat := if rate ≤ 3 then 256 else 128
def popSlots (w : Word) (n : Nat) : Nat := ((List.range n).filter (bitN w.toNat)).length

/-- Channels that a direction's configuration claims. -/
def sapClaim (cfg slots : Word) : Nat := if scEn cfg && (scRole cfg == 1 || scRole cfg == 3) then popSlots slots (scNslots cfg) else 0

/-- Channels claimed: a direction whose sequence has not reached E holds the larger of its old and new claims. -/
def State.sapClaimed (s : State) (k : Nat) : Nat :=
  let now := sapClaim (s.sapCfg k) (s.rd (sapSlotsReg k))
  match (s.sapDir k).seq with
  | some q => if q.applied then now else max now (sapClaim q.cfg q.slots)
  | none => now
def State.netClaimed (s : State) : Nat :=
  s.ctxsUp.foldl (fun a n => if cxAsrc (s.ctxWord n) then a + s.ctxChans n else a) 0
def State.asrcClaimed (s : State) : Nat := (List.range 16).foldl (fun a k => a + s.sapClaimed k) s.netClaimed

def netChanMax (rate : Nat) : Nat := if rate ≤ 1 then 512 else if rate ≤ 3 then 256 else 128
def State.netRunning (s : State) (talker : Bool) : Nat :=
  s.ctxsUp.foldl (fun a n => if cxTalker (s.ctxWord n) == talker then a + s.ctxChans n else a) 0

/-! ## The leader -/

/-- Kind in bits 18..16, index in bits 9..0 (Table TK-13). -/
def leaderWord (kind index : Nat) : Word := wN (kind * 65536 + index)

abbrev dcoMax : Int := 2 ^ 23 - 1
def dcoClamp (x : Int) : Int := clampI (-(2 ^ 23)) dcoMax x

def State.setClk (s : State) (c : ClkSt) : State := { s with clk := c }

/-- Is this the leader in force? -/
def State.leads (s : State) (kind index : Nat) : Bool := s.clk.kind == kind && s.clk.index == index
def State.sapLeads (s : State) (k : Nat) : Bool := s.leads (1 + k / 8) (k % 8)

/-- The final setpoint of Table TK-2, Q16.16. -/
def State.finalSet (s : State) : Int := match s.clk.kind with
  | 1 => scDepth (s.sapCfg s.clk.index) * 32768
  | 2 => scDepth (s.sapCfg (s.clk.index + 8)) * 32768
  | _ => 32768

/-- The limits of R31 on a value in DCO words. -/
def dcoClampQ (x : Rat) : Rat := if x < -(2 ^ 23) then -(2 ^ 23) else if (dcoMax : Rat) < x then dcoMax else x

/-- The DCO word of a value: the manual does not state its rounding. -/
def dcoWord (x : Rat) : Int := dcoClamp (roundFree x)

/-- The leader is lost: the DCO holds the integrator's value, and the proportional term is dropped (R40). A negative word
fills Param1 with its sign (DESIGN CHOICE, log entry 129). -/
def State.leaderLost (s : State) (dt : DT) : State :=
  let c := s.clk
  let w := dcoWord c.integ
  if c.kind = 0 ∨ c.lstate = .holdover then s
  else
    let s := s.setClk { c with lstate := .holdover, dco := w, hold := w, within := 0, clamped := 0 }
    s.logAt Src.CLK 0x1002 3 dt (leaderWord c.kind c.index) (wI w) 0

/-- The leader is adopted, or adopted again (R38): the loop starts from the DCO word in force. -/
def State.leaderAdopt (s : State) : State :=
  let c := s.clk
  s.setClk { c with lstate := .acquiring, adopt := true, integ := c.dco, within := 0, clamped := 0, decay := none }

/-- A lost leader returns. -/
def State.leaderBack (s : State) : State := if s.clk.kind ≠ 0 ∧ s.clk.lstate = .holdover then s.leaderAdopt else s

/-- −3 dB bandwidth in Hz of a bandwidth code (R37). -/
def loopHz (bw : Nat) : Rat := match bw with
  | 0 => 1 / 10 | 1 => 1 / 5 | 2 => 1 / 2 | 3 => 1 | 4 => 2 | 5 => 5 | 6 => 10 | _ => 20

/-- The damping of the loop (R37). -/
abbrev loopZeta : Rat := 707 / 1000

/-- The natural angular frequency times the tick period, of a type-2 loop with that damping and bandwidth: its −3 dB angular
frequency is √(A + √(A² + 1)) = 2.0580320368 times the natural one, with A = 1 + 2ζ². -/
def loopOmega (bw rate : Nat) : Rat := 3053006559 / 1000000000 * loopHz bw / fdHz rate

/-- DCO words that make one sample of error up in one tick, per unit of error in Q16.16 (R31: one word is 2^−33). -/
abbrev loopUnit : Rat := 2 ^ 17

/-- The sign with which a positive error speeds the house clock up: a transmit FIFO fills from the house side. -/
def loopSign (kind : Nat) : Rat := if kind = 2 then -1 else 1

/-- What an error against the setpoint adds to the integrator, and the proportional term (R37). -/
def loopInteg (kind bw rate : Nat) (d : Int) : Rat := loopSign kind * loopOmega bw rate * loopOmega bw rate * loopUnit * d
def loopProp (kind bw rate : Nat) (d : Int) : Rat := loopSign kind * (2 * loopZeta) * loopOmega bw rate * loopUnit * d

/-- The setpoint after one tick of its walk (R38). -/
def setWalk (sp f : Int) : Int := if sp < f then sp + 1 else if f < sp then sp - 1 else f

/-- The state after a tick with this error against the setpoint (R39). When the integrator comes off its limit the loop is
acquiring again (DESIGN CHOICE, log entry 130). -/
def leaderNext (c : ClkSt) (d : Int) (atLim : Bool) : LeaderState := match c.lstate with
  | .locked => if 131072 < d.natAbs then .acquiring else .locked
  | .outOfRange => if atLim then .outOfRange else .acquiring
  | x => x

/-- The leader loop in a tick with its error sample, if it has one (R37 to R41). The counts of R39 are of ticks: in a tick
without a sample the last error stands against the setpoint. -/
def State.leaderLoop (s : State) (err : Option Int) : State :=
  let c := s.clk
  if c.kind = 0 then
    match c.decay with
    | none => s
    | some (w0, i) =>
      let v := w0 - roundAway ((w0 : Rat) * ((i + 1 : Nat) : Rat) / 4096)
      s.setClk { c with dco := v, integ := v, decay := if 4096 ≤ i + 1 then none else some (w0, i + 1) }
  else if c.lstate = .holdover ∨ c.lstate = .noLeader ∨ (c.adopt ∧ err.isNone) then s
  else
    let e := err.getD c.lerr
    let sp := if c.adopt then e else setWalk c.setpt s.finalSet
    let d := e - sp
    let ig := if err.isSome then dcoClampQ (c.integ + loopInteg c.kind c.bw c.rate d) else c.integ
    let w := if err.isSome then dcoWord (ig + loopProp c.kind c.bw c.rate d) else c.dco
    let atLim := decide (ig = dcoMax ∨ ig = -(2 ^ 23))
    s.setClk { c with setpt := sp, adopt := false, lerr := e, integ := ig, dco := w, lstate := leaderNext c d atLim,
                      within := if d.natAbs ≤ 16384 then c.within + 1 else 0, clamped := if atLim then c.clamped + 1 else 0 }

/-! ### WCLK_IN (R36, R40) -/

/-- Does an edge follow the one before within 0.5 % of the expected period? -/
def wclkGood (rate : Nat) (prev e : DT) : Bool :=
  let p := tickNs rate
  let d : Rat := ((e.toNat : Int) - prev.toNat : Int)
  decide (p * 995 / 1000 ≤ d) && decide (d ≤ p * 1005 / 1000)

/-- Does a list of edges hold one that comes back to the expected rate? -/
def wclkBack (rate : Nat) : Option DT → List DT → Bool
  | _, [] => false
  | none, e :: r => wclkBack rate (some e) r
  | some p, e :: r => wclkGood rate p e || wclkBack rate (some e) r

/-- The edges of WCLK_IN in the tick that closes: a lost leader returns with them (R36). -/
def State.wclkEdges (s : State) (l : List DT) : State :=
  let back := s.clk.kind == 3 && wclkBack s.clk.rate s.clk.wclk l
  let s := s.setClk { s.clk with wclk := (l.getLast?).orElse (fun _ => s.clk.wclk) }
  if back then s.leaderBack else s

/-- DT from the last edge to the boundary in force, in tk, Q16.16 (Table TK-2). -/
def State.edgeErr (s : State) (e : DT) : Int :=
  roundAway ((((s.time.bdt.toNat : Int) - e.toNat : Int) : Rat) * 65536 / tickNs s.clk.rate)

/-- The error sample of a WCLK_IN leader: from the last edge in the tick, if it has one (R36). -/
def State.wclkErr (s : State) (l : List DT) : Option Int := l.getLast?.map s.edgeErr

/-- The error has stayed within 0.25 sample for 1,024 ticks (R39). -/
def execLeaderLock (dt : DT) (s : State) : Host.Outcome State Fault Refusal :=
  let s := s.advance dt
  .next (if s.clk.lstate = .acquiring ∧ 1024 ≤ s.clk.within then
    (s.setClk { s.clk with lstate := .locked }).logAt Src.CLK 0x1001 1 dt (leaderWord s.clk.kind s.clk.index) (wI s.clk.dco) 0
  else s)

/-- The integrator has stayed at a clamp limit for 4,096 ticks (R39). -/
def execLeaderRange (dt : DT) (s : State) : Host.Outcome State Fault Refusal :=
  let s := s.advance dt
  .next (if (s.clk.lstate = .acquiring ∨ s.clk.lstate = .locked) ∧ 4096 ≤ s.clk.clamped then
    (s.setClk { s.clk with lstate := .outOfRange }).logAt Src.CLK 0x1003 4 dt (leaderWord s.clk.kind s.clk.index) (wI s.clk.dco) 0
  else s)

/-- Have 2.5 expected periods passed since the last edge of WCLK_IN? -/
def State.wclkGone (s : State) (dt : DT) : Bool := match s.clk.wclk with
  | some e => decide (tickNs s.clk.rate * (5 / 2) ≤ ((dt.toNat : Int) - e.toNat : Int))
  | none => true

/-- 2.5 expected periods without a WCLK_IN edge (R40). -/
def execWclkInLoss (dt : DT) (s : State) : Host.Outcome State Fault Refusal :=
  let s := s.advance dt
  .next (if s.clk.kind = 3 ∧ s.wclkGone dt then s.leaderLost dt else s)

/-- 64 reference cycles without an edge at the MCLK_IO input (R34). -/
def execMclkLoss (dt : DT) (s : State) : Host.Outcome State Fault Refusal :=
  let s := s.advance dt
  .next (if s.clk.mclkExt then
    (s.setClk { s.clk with mclkExt := false, mclkLost := true, dco := 0, integ := 0 }).logAt Src.CLK 0x1006 4 dt 0 0 0
  else s)

/-! ### CLOCK_LEADER -/

/-- Kind, index and bandwidth code of Table TK-8. -/
def clockLeaderValid (p : ClockLeaderP) : Bool :=
  decide (p.bw < 8) && (match p.kind with
    | 0 | 3 => p.index == 0
    | 1 | 2 => decide (p.index < 8)
    | 4 => decide (p.index < 1024)
    | _ => false)

/-- May a direction lead (R269)? -/
def State.sapMayLead (s : State) (k : Nat) : Bool :=
  scEn (s.sapCfg k) && scRole (s.sapCfg k) == 2 && (s.sapDir k).seq.isNone

/-- May a stream lead: a listener that has been started, with a network mapping kept (R35, R288)? -/
def State.ctxMayLead (s : State) (n : Nat) : Bool :=
  !cxTalker (s.ctxWord n) && ctxUp (s.netCtx n) && s.fld Fl.NET_GPTP.MODE != 0

/-- R34, R35, R269. -/
def clockLeaderRefusal (s : State) (p : ClockLeaderP) : Status :=
  if p.kind ≠ 0 ∧ s.fld Fl.CLK_CTRL.MCLK_IO_MODE = 4 then .conflict
  else match p.kind with
    | 1 => if s.sapMayLead p.index then .ok else .invalid
    | 2 => if s.sapMayLead (p.index + 8) then .ok else .invalid
    | 4 => if s.ctxMayLead p.index then .ok else .invalid
    | _ => .ok

/-- CLOCK_LEADER takes effect. CLK_LEADER_CHANGE is logged for every one, also for the leader in force (DESIGN CHOICE,
log entry 131). -/
def clockLeaderEffect (p : ClockLeaderP) (s : State) : Done :=
  let c := s.clk
  let s := s.logAt Src.CLK 0x1004 2 s.time.bdt (leaderWord c.kind c.index) (leaderWord p.kind p.index) 0
  let c := { c with kind := p.kind, index := p.index, bw := p.bw }
  okDone (if p.kind = 0 then
      s.setClk { c with lstate := .noLeader, within := 0, clamped := 0, decay := if c.dco = 0 then none else some (c.dco, 0) }
    else (s.setClk c).leaderAdopt)

def execClockLeader (h : Hdr) (p : ClockLeaderP) (s : State) : Host.Outcome State Fault Refusal :=
  .next (s.runCmd h (.clockLeader p) 0x0101 (clockLeaderValid p) true (clockLeaderRefusal s p) (clockLeaderEffect p))

/-! ## The length of a tick -/

/-- The tick period in ns at a rate code and a DCO word: f_nom is a whole number of ticks, and MCLK is f_nom × (1 + w × 2^−33)
(R31, R32). -/
def tickLen (rate : Nat) (w : Int) : Rat := tickNs rate / (1 + (w : Rat) / 2 ^ 33)

/-- The instant at which the tick in force ends. -/
def State.tickDue (s : State) : Rat := s.time.exact + tickLen s.clk.rate s.clk.dco

/-- Reference cycles resolve a capture to 4.43 ns at most (R45): a captured DT lies this near the instant, in whole ns. -/
abbrev captureNs : Nat := 5

/-- The DT captured at an instant, if the plant's capture is one that the reference clock can give; else the instant itself. -/
def captureDt (q : Rat) (x : DT) : DT :=
  let n := q.floor.toNat
  if x.toNat ≤ n + captureNs ∧ n ≤ x.toNat + captureNs then x else BitVec.ofNat 64 n

/-- The DT of the boundary that comes next (R31, R33, R49, R52): the DT of a boundary that has been placed; the plant's own for
the first tick of all and while an external clock drives the ticks; else by the tick period. -/
def State.boundaryDt (s : State) (x : DT) : DT := match s.time.placed with
  | some S => if s.time.started then s.time.bdt else if s.time.hadTick then virtDt s (S - s.time.ts).toNat else x
  | none => if s.clk.mclkExt || !s.time.hadTick then x else captureDt s.tickDue x

/-- The instant of that boundary, `dt` being its DT. -/
def State.boundaryExact (s : State) (dt : DT) : Rat :=
  if s.time.placed.isSome ∧ s.time.started then s.time.exact
  else if s.time.placed.isNone ∧ !s.clk.mclkExt ∧ s.time.hadTick then s.tickDue else dt.toNat

/-- The lengths of the last 1,024 real ticks, the one that ends at a boundary included (R50). -/
def State.periodsWith (s : State) (dt : DT) : List Nat := ((dt.toNat - s.time.lastDt.toNat) :: s.time.pers).take 1024

/-! ## Changes of the house rate -/

/-- Does a crystal give a rate (R30)? -/
def State.rateOnCrystal (s : State) (rate : Nat) : Bool := s.fld Fl.CLK_CTRL.XTAL_SEL == 0 || family441 rate

/-- A PDM channel that is enabled while its port's RATE code is not allowed at a rate (R88). -/
def State.pdmBlocks (s : State) (rate : Nat) : Bool :=
  (List.range 8).any (fun n => cfgEn (s.rd (Reg.AIN_PDMCH n)) && !pdmRateOk (s.pdmRate (n / 2)) rate)

/-- A synchronous context that would no longer match (R293). -/
def State.ctxBlocks (s : State) (rate : Nat) : Bool :=
  s.ctxsUp.any (fun n => !cxAsrc (s.ctxWord n) && cxRate (s.ctxWord n) != fdHz rate)

def houseRateValid (s : State) (rate : Nat) : Bool := decide (rate ≤ 5) && s.rateOnCrystal rate

/-- Is the entry vote running, in which R397 refuses PERF_LEVEL, HOUSE_RATE and SLEEP? -/
def State.voting (s : State) : Bool := s.pwr.sleep.isSome

/-- Is a change of rate or an entry vote in progress, so that a HOUSE_RATE that commits is BUSY (R43, R397)? -/
def State.rateBusy (s : State) : Bool := s.clk.rc.isSome || s.voting

/-- R43, R88, R263, R292, R293, R360, R397. The price is that of staging, whether or not a change is in progress there. -/
def houseRateRefusal (s : State) (rate : Nat) : Status :=
  if rate = s.clk.rate ∧ !s.rateBusy then .ok
  else if s.pdmBlocks rate || s.ctxBlocks rate then .invalid
  else if asrcPool rate < s.asrcClaimed || netChanMax rate < s.netRunning false || netChanMax rate < s.netRunning true then .budget
  else if !s.fitsAt rate s.pwr.level || !s.fitsAt rate s.pwr.target then .budget
  else if s.rateBusy then .busy
  else .ok

/-- A refusal for budget is noted (R362, R363): engine 4 for a channel or ASRC capacity, else the first engine over the
budget of the new rate. -/
def houseRateRefused (h : Hdr) (rate : Nat) (st : Status) (s : State) : State :=
  if st = .budget then
    if asrcPool rate < s.asrcClaimed then s.budNote h 0x0102 4 s.asrcClaimed
    else if netChanMax rate < s.netRunning false ∨ netChanMax rate < s.netRunning true then
      s.budNote h 0x0102 4 (max (s.netRunning false) (s.netRunning true))
    else
      let c := s.costs rate s.thkNodes.length
      let b := min (budgetB rate s.pwr.level) (budgetB rate s.pwr.target)
      let e := (overLimit c b (s.dramCap rate)).getD 0
      s.budNote h 0x0102 e (c.getD e 0)
  else s

/-- The state factors of the outputs ramp over n ticks (Table AO-6). -/
def State.aoutFactors (s : State) (tgt : Rat) (n : Nat) : State :=
  (List.range 12).foldl (fun s i => s.updAout i (fun c => { c with state := facGo c.state tgt n })) s

def State.stateFactors (s : State) (tgt : Rat) (n : Nat) : State :=
  let s := s.aoutFactors tgt n
  [0, 1].foldl (fun s i => s.updSpk i (fun c => { c with state := facGo c.state tgt n })) s

/-- Boundary T of Table TK-3. A command that names the rate in force changes nothing and its result is zero (DESIGN CHOICE,
log entry 31). -/
def houseRateEffect (h : Hdr) (rate : Nat) (s : State) : Done :=
  if rate = s.clk.rate then okDone s
  else
    let c := s.clk
    let S := stepsPerTk c.rate
    let s := s.setClk { c with
      rc := some ⟨s.time.ts, s.time.bdt, c.rate, rate, h, false, [], none⟩,
      fade := grGo c.fade.prev 0 32 false, tfade := grNext c.tfade.cur 0 (32 * S) }
    laterDone (s.pilotRateStop rate)

def execHouseRate (h : Hdr) (rate : Nat) (s : State) : Host.Outcome State Fault Refusal :=
  .next (s.runCmd h (.houseRate rate) 0x0102 (houseRateValid s rate) true (houseRateRefusal s rate) (houseRateEffect h rate)
    (houseRateRefused h rate))

/-- A ramp jumps to its target. -/
def grEnd (r : GRamp) : GRamp := grAt r.tgt

/-- Engines stop: all filter, ramp and delay states clear (Table TK-3). -/
def State.enginesClear (s : State) : State :=
  let thk := { s.thk with ramps := [], busRamps := [], dual := [] }
  let sel := smMap s.sel (fun x => ({ x with up := grAt 0x100000, fades := [], follow := none }))
  let tc (x : TrlCh) : TrlCh := { x with
    g0 := grEnd x.g0, g1 := grEnd x.g1, g2 := grEnd x.g2, g3 := grEnd x.g3, go := grEnd x.go, b1 := ⟨0, 0, 0, 0⟩,
    b2 := ⟨0, 0, 0, 0⟩, lim := 1, fade := grEnd x.fade, xf := none, p0 := 0, p1 := 0 }
  let fc (x : FxCh) : FxCh := { x with
    fade := grEnd x.fade, byp := grEnd x.byp, gin := grEnd x.gin, gout := grEnd x.gout, mkup := grEnd x.mkup,
    dry := grEnd x.dry, wet := grEnd x.wet, hist := [], e := 0, g := 0, opened := false, hold := 0, line := [], pos := 0,
    fill := 0, old := none, xf := grAt 0x100000, err := none, dfac := grAt 0x100000, gr := 0 }
  let vc (v : Voice) : Voice := { v with gain := grEnd v.gain }
  let s := { s with
    thk := thk, sel := sel, trl := { s.trl with ch := smMap s.trl.ch tc },
    fx := { s.fx with ch := smMap s.fx.ch fc },
    clip := { s.clip with voices := smMap s.clip.voices vc, tails := [] }, inter := [], inter2 := [] }
  s.ringsBreak

/-- Tick T+32 of Table TK-3. -/
def execRateChangeStop (dt : DT) (s : State) : Host.Outcome State Fault Refusal :=
  let s := s.advance dt
  match s.clk.rc with
  | none => .next s
  | some rc =>
    if rc.stopped || !s.time.running || tsDiff s.time.ts (rc.t + 32) < 0 then .next s
    else
      let gone (p : Picked) : Bool := p.hdr.timed && decide (0 ≤ tsDiff p.hdr.target (rc.t + 32))
      let out := (s.host.pend ++ s.host.picked ++ s.host.commit ++ s.flt.held).filter gone
      let s := { s with
        host := { s.host with
          pend := s.host.pend.filter (fun p => !gone p), picked := s.host.picked.filter (fun p => !gone p),
          commit := s.host.commit.filter (fun p => !gone p) },
        flt := { s.flt with held := s.flt.held.filter (fun p => !gone p) } }
      let s := s.enginesClear
      -- a WCLK_IN leader is lost (R36); ASRC states clear (R293)
      let s := if s.clk.kind = 3 then s.leaderLost dt else s
      let s := { s with
        net := { s.net with ctx := smMap s.net.ctx (fun x => ({ x with asrc := false })) },
        sap := smMap s.sap (fun x => ({ x with asrc := false })) }
      let s := if rc.new < 2 then s.abortMeas 0 2 |>.abortMeas 1 2 else s
      let same := family441 rc.old == family441 rc.new
      let s := s.setClk { s.clk with rc := some { rc with stopped := true, aborted := out.map (fun (p : Picked) => (p.hdr, opcodeOf p.cmd)) }, lock := same }
      .next { s with time := { s.time with running := same, vrate := rc.new, lastTs := s.time.ts, lastDt := s.time.bdt } }

/-- Boundary S of Table TK-3: within a family the next boundary, across families the first virtual one not earlier than the
lock of the house PLL (R53). -/
def execRateChangeResume (dt : DT) (s : State) : Host.Outcome State Fault Refusal :=
  match s.clk.rc with
  | none => .next (s.advance dt)
  | some rc =>
    if !rc.stopped || rc.s.isSome then .next (s.advance dt)
    else
      let same := s.time.running
      let i := virtCeil s dt
      let S : TS := if same then s.time.ts + 1 else s.time.ts + BitVec.ofNat 32 i
      let q : Rat := if same then s.tickDue else (virtDt s i).toNat
      let dt : DT := if same then s.boundaryDt dt else virtDt s i
      let s := s.advance dt
      let s := { s with time := { s.time with
        ts := S, bdt := dt, running := true, placed := some S, exact := q,
        pers := if same then s.periodsWith dt else s.time.pers, bdts := (dt :: s.time.bdts).take 1025 } }
      let n := stepsPerTk rc.new
      let s := s.setClk { s.clk with
        rate := rc.new, lock := true, rc := some { rc with s := some S },
        fade := grNext 0 0x100000 32, tfade := grNext 0 0x100000 (32 * n) }
      let s := rc.aborted.foldl (fun s a => s.completeOpen a.1 a.2 .aborted S dt 0 0 0 false) s
      let s := s.logAt Src.CLK 0x1005 2 dt (wN rc.old) (wN rc.new) (wN rc.aborted.length)
      .next (s.completeOpen rc.hdr 0x0102 .ok rc.t rc.tdt S (wN rc.aborted.length) 0 false)

/-! ## The start of the house clock -/

/-- The house PLL locks after RUN (R33): the first real boundary is placed. -/
def execHousePllLock (dt : DT) (s : State) : Host.Outcome State Fault Refusal :=
  let s := s.advance dt
  if s.flag Fl.CLK_CTRL.RUN && !s.clk.lock && !s.clk.cfgErr && !s.time.started && s.time.placed.isNone then
    let ext := s.fld Fl.CLK_CTRL.MCLK_IO_MODE == 4 && !s.clk.mclkLost
    let S : TS := if s.time.hadTick then s.time.ts + BitVec.ofNat 32 (virtCeil s dt) else 0
    let s := s.setClk { s.clk with lock := true, rate := s.fld Fl.CLK_CTRL.FD_INIT, dco := 0, integ := 0, mclkExt := ext }
    .next { s with time := { s.time with placed := some S } }
  else .next s

end Sys2Proof.Machine
end

