-- ==== Sys2Proof/Machine/Sap.lean ====
section
/-! DEFINITION. Serial audio ports (chapter 8): configuration, the sequence of Table SA-5, frames and their places,
fill, slips, glitches, clock loss and return, rate jumps and measurement, the ASRC's lock. -/
namespace Sys2Proof.Machine

/-! ## Groves as the ports see them -/

abbrev GroveSt.init : GroveSt := ⟨.empty, 0, 0, 0, [], [], [], none⟩
def State.groveOf (s : State) (g : Nat) : GroveSt := smGet s.grove g GroveSt.init
def State.setGrove (s : State) (g : Nat) (x : GroveSt) : State := { s with grove := smSet s.grove g x }

/-- Is an item a member of a Grove? -/
def isMember (x : GroveSt) (m : Member) : Bool := match m with
  | .port p d => bitN x.ports.toNat (p + 8 * d)
  | .ctx n => x.ctxs.contains n
  | .ring r => bitN x.rings.toNat r

/-- The Grove that an item belongs to. -/
def State.memberOf (s : State) (m : Member) : Option Nat := (List.range 8).find? (fun g => isMember (s.groveOf g) m)

/-- The member parameter of Table SA-10. -/
def memberWord : Member → Word
  | .port p d => wN (p + 256 * d)
  | .ctx n => wN (0x10000 + n)
  | .ring r => wN (0x20000 + r)

/-- A tick in which a member is, or is not, filled by its own rule (R277): an underrun of a running Grove. -/
def State.groveTick (s : State) (m : Member) (missing : Bool) : State :=
  match s.memberOf m with
  | none => s
  | some g =>
    let x := s.groveOf g
    if x.state = .running ∧ !x.late.contains m then
      let e := (x.eps.find? (fun e => decide (e.m = m))).getD ⟨m, false, 0, 0⟩
      let rest := x.eps.filter (fun e => decide (e.m ≠ m))
      if missing then
        if e.on then s.setGrove g { x with eps := { e with n := e.n + 1 } :: rest }
        else
          let s := s.setGrove g { x with eps := ⟨m, true, 1, e.n⟩ :: rest }
          let s := s.bump (Reg.SAP_GRV_UNDERRUN g)
          s.logAt Src.SAP 0x8009 3 s.time.bdt (wN g) (memberWord m) (wN e.n)
      else if e.on then s.setGrove g { x with eps := { e with on := false } :: rest } else s
    else s

/-! ## Directions -/

/-- Bit or register of a direction: port and direction in Table SA-10's parameter 0. -/
def dirWord (k : Nat) : Word := wN (k % 8 + 256 * (k / 8))
def dirMember (k : Nat) : Member := .port (k % 8) (k / 8)

/-- Sets a bit of SAP_FAULT: 0 LOSS, 1 GLITCH, 2 RATE_JUMP, 3 SLIP, 4 RATE_CHG. -/
def State.sapFault (s : State) (k i : Nat) : State :=
  let off := Reg.SAP_FAULT (k % 8)
  s.wr off (withBits (s.rd off) (i + 16 * (k / 8)) 1 1)

/-- The counters: 0 GLITCHCNT, 1 MISSCNT, 2 LATECNT, 3 SLIPCNT. -/
def sapCnt (k i : Nat) : Nat := Reg.SAP_RX_GLITCHCNT (k % 8) + 16 * (k / 8) + 4 * i

/-- Nominal frame rate of a master in Hz (Table SA-2). -/
def State.sapRateHz (s : State) (k : Nat) : Nat :=
  if scRole (s.sapCfg k) = 1 then frRate (s.rd (sapFrameReg k)) else fdHz s.clk.rate

def scMaster (w : Word) : Bool := decide (scRole w ≤ 1)
def scAsrc (w : Word) : Bool := scRole w % 2 == 1

/-- A period in ns. -/
def perOf (hz : Nat) : Rat := 1000000000 / (hz : Rat)

/-- P of a direction (R259): a master's is its nominal frame period, a slave's was measured. -/
def State.sapPer (s : State) (k : Nat) : Rat := if scMaster (s.sapCfg k) then perOf (s.sapRateHz k) else (s.sapDir k).per

/-- A rate in kHz, Q16.16, from a period in ns. -/
def rateWord (per : Rat) : Word := if per = 0 then 0 else wI ((65536000000 : Rat) / per).floor

/-- BCLKs that have passed since a leading edge at a DT, at most the frame's length. -/
def bclksSince (edge now : DT) (per : Rat) (len : Nat) : Nat :=
  if per = 0 then 0
  else min len (((now.toNat - edge.toNat : Nat) : Rat) * (len : Rat) / per).floor.toNat

/-- The fill of a FIFO at a boundary, in frames (R258). -/
def State.sapFill (s : State) (k : Nat) : Rat :=
  let x := s.sapDir k
  let len := frLen (s.rd (sapFrameReg k))
  let per := s.sapPer k
  let frac : Rat := match x.seen with
    | none => 0
    | some e =>
      if len = 0 then 0
      else if k < 8 then
        -- the frame in progress began when the last one ended
        let now := s.time.bdt
        let done := BitVec.ofInt 64 ((e.toNat : Int) + per.floor)
        ((min (bclksSince done now per len) (len - 1) : Nat) : Rat) / (len : Rat)
      else ((len - bclksSince e s.time.bdt per len : Nat) : Rat) / (len : Rat)
  (x.queue.length : Rat) + frac

/-! ## SAP_SET -/

/-- Frequency of MCLK, f_nom of the family (R31). -/
def mclkHz (rate : Nat) : Nat := if family441 rate then 45158400 else 49152000

/-- A direction's configuration by R254 and the field ranges of R283. -/
def sapCfgOk (house : Nat) (cfg frame : Word) : Bool :=
  let w := scSlotw cfg
  let len := frLen frame
  bitsOf cfg 21 2 != 3 && !bitN cfg.toNat 0 && bitsOf frame 11 3 == 0
    && decide (16 ≤ scDataw cfg) && decide (scDataw cfg ≤ 32) && decide (scDataw cfg ≤ w) && decide (scOffset cfg < w)
    && (if scFmt cfg ≤ 1 then scNslots cfg == 2 && len % 2 == 0 && decide (w ≤ len / 2)
        else decide (scNslots cfg * w ≤ len) && decide (len ≤ 1024))
    && (match scRole cfg with
        | 0 => decide (len * fdHz house ≤ mclkHz house)
        | 1 => decide (8000 ≤ frRate frame) && decide (frRate frame ≤ 216000) && decide (len * frRate frame ≤ mclkHz house)
        | 2 => decide (len * fdHz house ≤ 50000000)
        | _ => true)

/-- CLK_SHARE's condition on both directions of a port (R251). -/
def shareOk (rx rxf tx txf : Word) : Bool :=
  !scShare tx || (scRole rx == scRole tx && frLen rxf == frLen txf && scFmt rx == scFmt tx && scFsInv rx == scFsInv tx)

/-- The words that result from the selected fields (R280): CFG, FRAME, SLOTS, PHASE. -/
def sapMerge (s : State) (p : SapSetP) : Word × Word × Word × Word :=
  let k := sapKey p.port p.dir
  let pick (i : Nat) (new old : Word) : Word := if bitN p.mask.toNat i then new else old
  (pick 0 p.cfg (s.sapCfg k), pick 1 p.frame (s.rd (sapFrameReg k)), pick 2 p.slots (s.rd (sapSlotsReg k)),
   pick 3 (wN p.phase) (s.rd (sapPhaseReg k)))

def sapSetValid (s : State) (p : SapSetP) : Bool :=
  let (cfg, frame, _, _) := sapMerge s p
  let other := sapKey p.port (1 - p.dir)
  decide (p.port < 8) && decide (p.dir < 2) && decide (p.mask.toNat < 32) && decide (p.phase < 256)
    && sapCfgOk s.clk.rate cfg frame
    && (if p.dir = 0 then shareOk cfg frame (s.sapCfg other) (s.rd (sapFrameReg other))
        else shareOk (s.sapCfg other) (s.rd (sapFrameReg other)) cfg frame)

/-- Does a change run the sequence of Table SA-5 (R267)? -/
def sapRunsSeq (old new oldF newF oldP newP : Word) : Bool :=
  withBits old 1 2 0 != withBits new 1 2 0 || oldF != newF || oldP != newP

/-- CONFLICT for the ASRC pool, for RUN of a Grove's member and for the freed clock pins; BUSY for a sequence (R263, R268,
R274, R530). -/
def sapSetRefusal (s : State) (p : SapSetP) : Status :=
  let k := sapKey p.port p.dir
  let (cfg, _, slots, _) := sapMerge s p
  let x := s.sapDir k
  let now := s.sapClaimed k
  if asrcPool s.clk.rate < s.asrcClaimed - now + max now (sapClaim cfg slots) then .conflict
  else if bitN p.mask.toNat 4 && p.run != x.runOn && (s.memberOf (dirMember k)).isSome then .conflict
  else if p.dir = 1 && scShare (s.sapCfg k) && !scShare cfg && bitsOf (s.rd Reg.PIN_SAPX_CFG) (4 * p.port) 4 != 0 then .conflict
  else if x.seq.isSome then .busy
  else .ok

abbrev fullRun : Int := 0x100000

/-- The ramps of slots that are enabled or disabled alone (R266). -/
def slotRamps (x : SapDir) (old new : Word) (n len : Nat) : SMap GRamp :=
  (List.range n).foldl (fun m i =>
    let a := bitN old.toNat i
    let b := bitN new.toNat i
    if a = b then m
    else
      let r := smGet m i (grAt (if a then fullRun else 0))
      smSet m i (grGo r.prev (if b then fullRun else 0) len false)) x.slotR

/-- SAP_SET at its commit boundary (R266 to R268, R280). -/
def sapSetEffect (p : SapSetP) (s : State) : Done :=
  let k := sapKey p.port p.dir
  let (cfg, frame, slots, phase) := sapMerge s p
  let old := s.sapCfg k
  let x := s.sapDir k
  let t := s.time.ts
  let smute := scSmute old
  let runNew := if bitN p.mask.toNat 4 then p.run else x.runOn
  if sapRunsSeq old cfg (s.rd (sapFrameReg k)) frame (s.rd (sapPhaseReg k)) phase then
    let e := if x.runOn then t + BitVec.ofNat 32 smute else t
    let run := if x.runOn then grGo x.run.prev 0 smute false else x.run
    let s := s.setSap k { x with runOn := runNew, run := run, seq := some ⟨t, e, cfg, frame, slots, phase, false, none⟩ }
    ⟨s, .ok, cfg, e, 0, false, false⟩
  else
    let run := if runNew = x.runOn then x.run else grGo x.run.prev (if runNew then fullRun else 0) (scSmute cfg) false
    let sr := if scEn cfg then slotRamps x (s.rd (sapSlotsReg k)) slots (scNslots cfg) (scSmute cfg) else x.slotR
    let s := (s.wr (sapCfgReg k) cfg).wr (sapSlotsReg k) slots
    ⟨s.setSap k { x with runOn := runNew, run := run, slotR := sr }, .ok, cfg, t, 0, false, false⟩

def execSapSet (h : Hdr) (p : SapSetP) (s : State) : Host.Outcome State Fault Refusal :=
  .next (s.runCmd h (.sapSet p) 0x0801 (sapSetValid s p) true (sapSetRefusal s p) (sapSetEffect p))

/-- The state that row E leaves: FIFO and ASRC state cleared, the new configuration applied; the direction idles for this tick
(Table SA-5). -/
def sapApplied (x : SapDir) (q : SapSeq) (t : TS) : SapDir :=
  { SapDir.init with
    runOn := x.runOn, rateC := x.rateC,
    -- a disabled direction has no lock to wait for
    seq := some { q with applied := true, lock := if scEn q.cfg then none else some t } }

/-- Tick E of a sequence. -/
def execSapSeqApply (port dir : Nat) (s : State) : Host.Outcome State Fault Refusal :=
  let k := sapKey port dir
  let x := s.sapDir k
  match x.seq with
  | none => .next s
  | some q =>
    if q.applied || tsDiff s.time.ts q.e < 0 then .next s
    else
      let s := (((s.wr (sapCfgReg k) q.cfg).wr (sapFrameReg k) q.frame).wr (sapSlotsReg k) q.slots).wr (sapPhaseReg k) q.phase
      .next (s.setSap k (sapApplied x q s.time.ts))

/-- Mean of the 15 periods between 16 good frames (R259). -/
def meanPer (edges : List DT) : Rat := match edges.head?, edges.getLast? with
  | some a, some b => ((a.toNat - b.toNat : Nat) : Rat) / 15
  | _, _ => 0

/-- A synchronous direction locks: a master after 2 frames, a slave after 16 consecutive good frames (R267). -/
def execSapLock (port dir : Nat) (s : State) : Host.Outcome State Fault Refusal :=
  let k := sapKey port dir
  let x := s.sapDir k
  let cfg := s.sapCfg k
  let need := if scRole cfg = 0 then 2 else 16
  match x.seq with
  | some q =>
    if x.state = .locking ∧ q.applied ∧ q.lock.isNone ∧ !scAsrc cfg ∧ need ≤ x.edges.length then
      let per := if scRole cfg = 0 then perOf (s.sapRateHz k) else meanPer x.edges
      .next (s.setSap k { x with
        state := .running, per := per, perL := per, rate0 := rateWord per, queue := [], edge := none,
        seq := some { q with lock := some s.time.ts } })
    else .next s
  | none => .next s

/-- The ASRC locks to its input rate (R264): the user's channels carry data. A direction muted by a rate jump ramps up
(R273); a context ramps up from its lock (R293). -/
def execAsrcLock (user : Member) (rate : Word) (s : State) : Host.Outcome State Fault Refusal :=
  match user with
  | .port p d =>
    let k := sapKey p d
    let x := s.sapDir k
    let inRange := decide (8 * 65536 ≤ rate.toNat) && decide (rate.toNat ≤ 216 * 65536)
    if scEn (s.sapCfg k) && scAsrc (s.sapCfg k) && !x.asrc && inRange
        && (x.state == .locking || x.state == .rateError || x.state == .running) then
      let port := if x.state = .rateError then grGo x.port.prev fullRun 32 false else x.port
      let seq := x.seq.map (fun q => if q.applied && q.lock.isNone then { q with lock := some s.time.ts } else q)
      let per : Rat := if x.edges.length = 16 then meanPer x.edges else 65536000000 / (rate.toNat : Rat)
      let s := s.setSap k { x with
        state := .running, asrc := true, port := port, seq := seq, per := per, perL := per, rate0 := rate }
      .next (s.log Src.SAP 0x8007 1 (dirWord k) rate 0)
    else .next s
  | .ctx n =>
    let x := s.netCtx n
    if ctxUp x && cxAsrc (s.ctxWord n) && !x.asrc then
      .next (s.setCtx n { x with asrc := true, port := if x.stopAt.isSome then x.port else grGo 0 fullRun 32 false })
    else .next s
  | .ring _ => .next s

/-! ## Frames -/

/-- Rounds a Q1.31 value to w bits, nearest with ties away from zero, and saturates (R255). -/
def toWidth (v : Int) (w : Nat) : Int :=
  let m : Int := 2 ^ (w - 1)
  clampI (-m) (m - 1) (shrAway v (32 - w)) * 2 ^ (32 - w)

/-- A number of w bits left-justified in a word, its low 32 − w bits cleared (R255). -/
def fromWidth (v : Word) (w : Nat) : Int := signedOf 32 (v.toNat / 2 ^ (32 - w) * 2 ^ (32 - w))

/-! ### Frame formats (R252, R253) -/

/-- The level of frame sync in BCLK period `pos` of a frame (Table SA-1). -/
def sapFsHigh (cfg frame : Word) (pos : Nat) : Bool :=
  let len := frLen frame
  let high : Bool := match scFmt cfg with
    | 0 => decide (len / 2 ≤ pos)
    | 1 => decide (pos < len / 2)
    | 2 => decide (pos < 1)
    | _ => decide (pos < scSlotw cfg)
  high != scFsInv cfg

/-- Is the edge from which these lines run the leading edge of a frame: the one that brings the frame's first level? -/
def sapLeads? (cfg frame : Word) (line : List SapBit) : Bool := match line.head? with
  | some b => b.fs == sapFsHigh cfg frame 0
  | none => true

/-- Where slot i begins: in formats 0 and 1 slot 1 counts from the second frame-sync edge. -/
def slotStart (cfg : Word) (line : List SapBit) (i : Nat) : Nat :=
  if scFmt cfg ≤ 1 then
    (if i = 0 then 0 else (line.takeWhile (fun b => b.fs == (line.head?.map (·.fs)).getD false)).length) + scOffset cfg
  else scOffset cfg + i * scSlotw cfg

/-- The data bit of a BCLK period: sampled on the rising edge; BCLK_INV exchanges the edges. -/
def rxBit (cfg : Word) (b : SapBit) : Bool := if scBclkInv cfg then b.fall else b.rise

/-- A received slot word, MSB first, left-justified in Q1.31 with its low 32 − DATAW bits zero (R253, R255). -/
def rxSlot (cfg : Word) (line : List SapBit) (i : Nat) : Int :=
  let w := scDataw cfg
  let n := (List.range w).foldl (fun a j =>
    2 * a + wB (((line)[slotStart cfg line i + j]?).elim false (rxBit cfg))) 0
  signedOf 32 (n * 2 ^ (32 - w))

/-- The words of a received frame by slot: slots at or above NSLOTS read zero. -/
def rxWords (cfg : Word) (line : List SapBit) : List Int :=
  (List.range 32).map (fun i => if i < scNslots cfg then rxSlot cfg line i else 0)

/-- The slot, the bit in it and whether the slot began in the frame before, of BCLK period `pos` of a frame (R253): the last bits
of a slot may lie in the first OFFSET periods of the next frame, or of the next half in formats 0 and 1. -/
def slotAt (cfg frame : Word) (pos : Nat) : Option (Nat × Nat × Bool) :=
  let len := frLen frame
  let o := scOffset cfg
  let w := scSlotw cfg
  let n := scNslots cfg
  if scFmt cfg ≤ 1 then
    let half := len / 2
    let h := pos / half
    let r := pos % half
    if o ≤ r then (if r - o < w then some (h, r - o, false) else none)
    else if r + half - o < w then some (1 - h, r + half - o, h == 0) else none
  else
    let q := if o ≤ pos then pos - o else pos + len - o
    if q / w < n then some (q / w, q % w, decide (pos < o)) else none

/-- The data line in BCLK period `pos` of a transmit frame: the bit of a slot that is enabled, or whose own ramp still sounds;
none where nothing drives the line but its rest level (R253). -/
def txBit (cfg frame slots : Word) (words before : List Int) (pos : Nat) : Option Bool := match slotAt cfg frame pos with
  | none => none
  | some (i, j, old) =>
    let v := (if old then before else words).getD i 0
    if bitN slots.toNat i || v != 0 then some (decide (j < scDataw cfg) && bitN (wI v).toNat (31 - j)) else none

/-- Is a period within 0.5 % of the expected one? -/
def within05 (d per : Rat) : Bool := decide (199 * per ≤ 200 * d) && decide (200 * d ≤ 201 * per)

/-- The reference period of R273: TIME_TICK_PER, or for an ASRC direction the period at lock. -/
def State.refPer (s : State) (k : Nat) : Rat :=
  if scAsrc (s.sapCfg k) then (s.sapDir k).perL else (s.tickPer.toNat : Rat) / 65536

/-- The expected period of a lost direction is the P in force when its last edge came; after a rate jump it is the reference
period (R259, R271, R273). -/
def State.expPer (s : State) (k : Nat) : Rat :=
  if (s.sapDir k).state = .rateError then s.refPer k else (s.sapDir k).perE

/-- The run of consecutive good frames after a frame with a leading edge: correct length, and while the direction is lost
or muted a period within ±0.5 %. -/
def State.goodEdges (s : State) (k : Nat) (edge : DT) (lenOk : Bool) : List DT :=
  let x := s.sapDir k
  let perOk : Bool := match x.seen with
    | none => true
    | some e =>
      if x.state = .lost ∨ x.state = .rateError then
        within05 ((edge.toNat - e.toNat : Nat) : Rat) (s.expPer k) || x.edges.isEmpty
      else true
  if !lenOk then [] else if perOk then (edge :: x.edges).take 16 else [edge]

/-- Expected periods between two leading edges: round ((d − d_prev) / P). -/
def periods (a b : DT) (per : Rat) : Nat :=
  if per = 0 then 1 else (roundAway (((b.toNat - a.toNat : Nat) : Rat) / per)).toNat

/-- The factors that every direction has: run and port (R266), of 2^20 each, with a slot's own ramp. -/
def sapScale (x : SapDir) (slots : Word) (i : Nat) (v : Int) : Int :=
  let own : Int := match smGet? x.slotR i with
    | some r => r.cur
    | none => if bitN slots.toNat i then fullRun else 0
  satQ31 (roundAway ((v * x.run.cur * x.port.cur * own : Int) / (2 ^ 60 : Rat)))

/-- SAP_GLITCH of a direction (R272): the frame and the two after it are discarded; the port factor falls (R266). -/
def State.sapGlitch (s : State) (k bclks : Nat) : State :=
  let s := (s.bump (sapCnt k 0)).sapFault k 1
  let s := s.updSap k (fun x =>
    if x.state = .running then { x with disc := 2, state := .glitch, port := grNext x.port.cur 0 8 } else { x with disc := 2 })
  s.logLim Src.SAP 0x8003 3 k 3 1 s.time.dt (dirWord k) (wN bclks) (s.rd (sapCnt k 0))

/-- Delivery resumes after a glitch: the port factor returns (R266, R272). -/
def glitchOver (x : SapDir) : SapDir :=
  if x.state = .glitch then { x with state := .running, port := grNext x.port.cur fullRun 32 } else x

/-- PHASE in cc, modulo the cc per tk, and in ns (R257). -/
def State.phaseCc (s : State) (k : Nat) : Nat := bitsOf (s.rd (sapPhaseReg k)) 0 8 % ccPerTk s.clk.rate
def State.phaseNs (s : State) (k : Nat) : Nat :=
  (((s.phaseCc k : Nat) : Rat) * tickLen s.clk.rate s.clk.dco / (ccPerTk s.clk.rate : Rat)).floor.toNat

/-- The leading edge of a ROLE 0 frame that begins in a tick so many back: its boundary's DT plus PHASE (R257). Others bring
theirs. -/
def State.frameEdge (s : State) (k back : Nat) (edge : DT) : DT :=
  if scRole (s.sapCfg k) = 0 then s.dtOf (s.time.ts - BitVec.ofNat 32 back) + BitVec.ofNat 64 (s.phaseNs k) else edge

/-- Does a direction take a frame with this leading edge? A master drives no clocks while the house clock stands, and one
frame of a ROLE 0 direction begins in a tick. -/
def State.frameTaken (s : State) (k : Nat) (edge : DT) : Bool :=
  let x := s.sapDir k
  let cfg := s.sapCfg k
  x.state != .off && (!scMaster cfg || s.time.running) && !(scRole cfg == 0 && x.seen == some edge)

/-- The tick that reads a received frame: for ROLE 0 the first whose boundary is at or after its last bit, else n expected
periods after the frame before (R258). The first after a lock or a return waits for its tick. -/
def State.rxTick (s : State) (k : Nat) (edge : DT) : Option TS :=
  if scRole (s.sapCfg k) = 0 then some (s.time.ts + 1)
  else (s.sapDir k).edge.map (fun e => e.2 + BitVec.ofNat 32 (periods e.1 edge (s.sapPer k)))

/-- A received frame completes (R252, R258, R272). With PHASE other than 0 a ROLE 0 frame began in the tick before. -/
def execSapFrameRx (port : Nat) (edge : DT) (bclks : Nat) (line : List SapBit) (s : State) :
    Host.Outcome State Fault Refusal :=
  let k := sapKey port 0
  let edge := s.frameEdge k (if s.phaseCc k = 0 then 0 else 1) edge
  let s := s.advance edge
  let cfg := s.sapCfg k
  let x := s.sapDir k
  if !s.frameTaken k edge || !sapLeads? cfg (s.rd (sapFrameReg k)) line then .next s
  else
    let ok := scMaster cfg || bclks == frLen (s.rd (sapFrameReg k))
    let x1 := { x with seen := some edge, edges := s.goodEdges k edge ok, perE := s.sapPer k, fresh := true }
    let s1 := s.setSap k x1
    if scAsrc cfg then .next (if ok then s1 else s1.sapGlitch k bclks)
    else if !ok then .next (if x.state = .locking then s1 else s1.sapGlitch k bclks)
    else if x.disc ≠ 0 then
      .next (s1.setSap k { x1 with disc := x.disc - 1 })
    else if x.state = .running ∨ x.state = .glitch ∨ x.back then
      let x1 := glitchOver x1
      match s.rxTick k edge with
      | some t =>
        if tsDiff t s.time.ts ≤ 0 then
          .next ((s1.setSap k { x1 with edge := some (edge, t) }).bump (sapCnt k 2))
        else .next (s1.setSap k { x1 with edge := some (edge, t), queue := x.queue ++ [SapFrame.mk (some t) edge (rxWords cfg line)] })
      | none => .next (s1.setSap k { x1 with queue := x.queue ++ [SapFrame.mk none edge (rxWords cfg line)] })
    else .next s1

/-- The words that go out in a frame, rounded to DATAW bits (R255); a slot that is clear has the value zero. -/
def txWords (cfg : Word) (v : List Int) : List Int :=
  (List.range (scNslots cfg)).map (fun i => toWidth (v.getD i 0) (scDataw cfg))

/-- The tick whose value belongs to a transmit frame: for ROLE 0 the one before, else n expected periods after the frame
before, and for the first frame that of the oldest value (R258, R262). -/
def State.txTick (s : State) (k : Nat) (edge : DT) : Option TS :=
  let x := s.sapDir k
  if scRole (s.sapCfg k) = 0 then some (s.time.ts - 1)
  else match x.edge with
    | some (e, t0) => some (t0 + BitVec.ofNat 32 (periods e edge (s.sapPer k)))
    | none => x.queue.head?.bind (·.tick)

/-- A transmit frame goes out with zeros: no value is queued for it (R260). -/
def State.txZeros (s : State) (k : Nat) (x : SapDir) : State :=
  (s.setSap k { x with sent := txWords (s.sapCfg k) [], sentP := x.sent, miss := x.miss + 1 }).bump (sapCnt k 1)

/-- A frame of a synchronous direction takes the value of its tick; the values before are late (R258, R272). -/
def State.txValue (s : State) (k : Nat) (x : SapDir) (edge : DT) (t : TS) : State :=
  let old := x.queue.filter (fun (f : SapFrame) => decide (tsDiff (f.tick.getD t) t < 0))
  let rest := x.queue.filter (fun (f : SapFrame) => decide (0 ≤ tsDiff (f.tick.getD t) t))
  let s := s.bumpBy (sapCnt k 2) old.length
  let x := { x with edge := some (edge, t), queue := rest }
  match rest with
  | f :: r =>
    if f.tick.getD t = t then
      if x.disc ≠ 0 then s.txZeros k { x with queue := r, disc := x.disc - 1 }
      else s.setSap k { glitchOver x with queue := r, sent := txWords (s.sapCfg k) f.words, sentP := x.sent, miss := 0 }
    else s.txZeros k { x with disc := x.disc - 1 }
  | [] => s.txZeros k { x with disc := x.disc - 1 }

/-- A transmit frame's leading edge (R258, R260, R272): it sends the value that belongs to it, or zeros. The samples of an ASRC
direction are the ASRC's, under the run and the port factor (R264, R266). -/
def execSapFrameTx (port : Nat) (edge : DT) (bclks : Nat) (s : State) : Host.Outcome State Fault Refusal :=
  let k := sapKey port 1
  let edge := s.frameEdge k 0 edge
  let s := s.advance edge
  let cfg := s.sapCfg k
  if !s.frameTaken k edge then .next s
  else
    let x := s.sapDir k
    let ok := scMaster cfg || x.seen.isNone || bclks == frLen (s.rd (sapFrameReg k))
    let edges := s.goodEdges k edge ok
    let s := if ok || x.state == .locking then s else s.sapGlitch k bclks
    let x := { s.sapDir k with seen := some edge, edges := edges, perE := s.sapPer k, fresh := true }
    let zeros : SapDir := { x with sent := txWords cfg [], sentP := x.sent }
    if scAsrc cfg then
      if x.asrc then
        let slots := s.rd (sapSlotsReg k)
        let v := (List.range 32).map (fun i => sapScale x slots i (Config.asrcValue k i s.time.ts.toNat))
        .next (s.setSap k { zeros with sent := txWords cfg v })
      else .next (s.setSap k zeros)
    else if x.state = .running ∨ x.state = .glitch then
      .next (match s.txTick k edge with
        | some t => s.txValue k x edge t
        | none => s.txZeros k x)
    else .next (s.setSap k zeros)

/-! ## Loss, return, jumps, measurement -/

/-- 2.5 expected periods without a leading edge (R270); the effects come at the first boundary after it. A direction that is
muted by a rate jump, or has returned and waits for its delivery, can lose its clock too. -/
def execSapClkLoss (port dir : Nat) (dt : DT) (s : State) : Host.Outcome State Fault Refusal :=
  let s := s.advance dt
  let k := sapKey port dir
  let x := s.sapDir k
  let up : Bool := x.state == .running || x.state == .glitch || x.state == .rateError || (x.state == .lost && x.back)
  let gone : Bool := match x.seen with
    | some e => decide (5 * x.perE ≤ 2 * ((dt.toNat - e.toNat : Nat) : Rat))
    | none => true
  .next (if !scMaster (s.sapCfg k) && up && gone && x.lossRq.isNone then s.setSap k { x with lossRq := some dt } else s)

/-- 16 consecutive good frames return a lost direction, or a muted synchronous one (R271, R273): the FIFO empties, and
delivery waits for its fill. -/
def execSapClkReturn (port dir : Nat) (dt : DT) (s : State) : Host.Outcome State Fault Refusal :=
  let s := s.advance dt
  let k := sapKey port dir
  let x := s.sapDir k
  let sync := !scAsrc (s.sapCfg k)
  if (x.state = .lost ∨ (x.state = .rateError ∧ sync)) ∧ x.edges.length = 16 ∧ !x.back then
    let s := s.setSap k { x with back := true, queue := [], edge := none, per := meanPer x.edges, disc := 0 }
    .next (s.logAt Src.SAP 0x8002 2 dt (dirWord k) (wN x.lossM) 0)
  else .next s

/-- Do the eight newest periods each differ from the reference by more than 0.5 % (R273)? -/
def eightOff (edges : List DT) (ref : Rat) : Bool :=
  decide (9 ≤ edges.length) && ((edges.zip (edges.drop 1)).take 8).all (fun p =>
    !within05 ((p.1.toNat - p.2.toNat : Nat) : Rat) ref)

/-- 8 consecutive periods off by more than 0.5 % (R273); the effects come at the first boundary after the eighth. -/
def execSapRateJump (port dir : Nat) (rate : Word) (dt : DT) (s : State) : Host.Outcome State Fault Refusal :=
  let s := s.advance dt
  let k := sapKey port dir
  let x := s.sapDir k
  .next (if !scMaster (s.sapCfg k) && (x.state == .running || x.state == .glitch)
      && eightOff x.edges (s.refPer k) then
    s.setSap k { x with jumpRq := some rate } else s)

/-- A window of 1,024 frames ends (R265). Before its first lock a direction has no rate to compare with. -/
def execSapRateMeasure (port dir spanNs : Nat) (s : State) : Host.Outcome State Fault Refusal :=
  let k := sapKey port dir
  let x := s.sapDir k
  if x.state = .off ∨ spanNs = 0 then .next s
  else
    let rate := wN (1024 * 65536 * 1000000 / spanNs)
    let reg := if dir = 0 then Reg.SAP_RX_RATE port else Reg.SAP_TX_RATE port
    let s := s.wr reg rate
    let x := if scMaster (s.sapCfg k) then x else { x with perNew := some ((spanNs : Rat) / 1024) }
    let old := x.rateC.getD x.rate0
    let diff := ((rate.toNat : Int) - old.toNat).natAbs
    if old ≠ 0 ∧ s.fld (Fl.SAP_RATE_THR.THR port) * old.toNat < diff * 1000000 then
      let s := (s.setSap k { x with rateC := some rate }).sapFault k 4
      .next (s.log Src.SAP 0x8005 2 (dirWord k) rate old)
    else .next (s.setSap k x)

/-! ## The tick -/

/-- Requests that take effect at a boundary: a new P, a loss, a rate jump (R259, R270, R273). -/
def State.sapRequests (s : State) (k : Nat) : State :=
  let x := s.sapDir k
  let x : SapDir := match x.perNew with
    | some p => { x with per := p, perNew := none }
    | none => x
  let lead := s.sapLeads k
  let s := s.setSap k x
  let s := match x.lossRq with
    | none => s
    | some _ =>
      let s := s.setSap k { x with
        lossRq := none, state := .lost, port := grGo x.port.prev 0 8 false, lossM := 0, edges := [], back := false,
        queue := if k < 8 then x.queue else [] }
      let s := s.sapFault k 0
      let last := (x.seen.getD 0).extractLsb' 0 32
      let s := s.logAt Src.SAP 0x8001 4 s.time.bdt (dirWord k) last (wN (wB lead))
      if lead then s.leaderLost s.time.bdt else s
  let x := s.sapDir k
  match x.jumpRq with
  | none => s
  | some rate =>
    let s := s.setSap k { x with
      jumpRq := none, state := .rateError, port := grGo x.port.prev 0 8 false, asrc := false, edges := [], back := false,
      lossM := 0 }
    let s := s.sapFault k 2
    let s := s.logAt Src.SAP 0x8004 4 s.time.bdt (dirWord k) rate 0
    if lead then s.leaderLost s.time.bdt else s

/-- Moves every later assignment by some ticks (R261). -/
def shiftBy (x : SapDir) (d : TS) : SapDir :=
  { x with edge := x.edge.map (fun e => (e.1, e.2 + d)), queue := x.queue.map (fun f => { f with tick := f.tick.map (· + d) }) }

/-- The delivery that a returned direction waits for (R271). -/
def State.sapResume (s : State) (k : Nat) : State :=
  let x := s.sapDir k
  let half : Rat := (scDepth (s.sapCfg k) : Rat) / 2
  let fill := x.level
  if x.back && scAsrc (s.sapCfg k) then
    -- an ASRC direction has no FIFO to wait for
    s.setSap k { x with back := false, state := .running, fill := 8, miss := 0, port := grGo x.port.prev fullRun 32 false }
  else if x.back && decide (half ≤ fill) && !x.queue.isEmpty then
    let drop := (fill - half).floor.toNat
    let q := x.queue.drop (min drop (x.queue.length - 1))
    let s := s.bumpBy (sapCnt k 2) (x.queue.length - q.length)
    let t0 := s.time.ts
    -- the frames keep their distances from the one read now
    let base := (q.head?.map (·.edge)).getD 0
    let tick (f : SapFrame) : TS := t0 + BitVec.ofNat 32 (periods base f.edge (s.sapPer k))
    let q := if k < 8 then q.map (fun f => { f with tick := some (tick f) }) else q
    let edge := if k < 8 then q.getLast?.bind (fun f => f.tick.map (fun t => (f.edge, t))) else none
    let s := s.setSap k { x with
      back := false, state := .running, queue := q, edge := edge, level := x.level - ((x.queue.length - q.length : Nat) : Rat),
      fill := 8, miss := 0, port := grGo x.port.prev fullRun 32 false }
    if s.sapLeads k then s.leaderBack else s
  else s

/-- A slip (R261): the fill leaves 0.5 to DEPTH − 0.5 at a boundary. -/
def State.sapSlip (s : State) (k : Nat) : State :=
  let x := s.sapDir k
  let fill := x.level
  let depth : Rat := scDepth (s.sapCfg k)
  let low := decide (fill < 1 / 2)
  let high := decide (depth - 1 / 2 < fill)
  if scRole (s.sapCfg k) = 2 ∧ (x.state = .running ∨ x.state = .glitch) ∧ x.fresh ∧ x.edge.isSome ∧ !s.sapLeads k ∧ (low ∨ high) then
    let one : TS := 1
    let x := if k < 8 then
        if low then shiftBy x one else shiftBy { x with queue := x.queue.drop 1 } (-one)
      else if low then
        -- one frame of zeros goes out before the values queued
        { x with edge := x.edge.map (fun e => (e.1, e.2 - one)) }
      else { x with queue := x.queue.drop 1, edge := x.edge.map (fun e => (e.1, e.2 + one)) }
    let s := ((s.setSap k x).bump (sapCnt k 3)).sapFault k 3
    s.logLim Src.SAP 0x8006 3 k 1 1 s.time.bdt (dirWord k) 0 (wN (wB low))
  else s

/-- A missing receive tick (R260). -/
def missTick (x : SapDir) : SapDir := { x with fill := x.fill - 1, miss := x.miss + 1, lossM := x.lossM + 1 }

/-- The first frame after the lock goes to a tick, and those behind it keep their distances (R258). -/
def SapDir.placed (x : SapDir) (t : TS) (per : Rat) : SapDir := match x.queue.head?, x.queue.getLast? with
  | some f, some l =>
    let tick (g : SapFrame) : TS := t + BitVec.ofNat 32 (periods f.edge g.edge per)
    { x with queue := x.queue.map (fun g => { g with tick := some (tick g) }), edge := some (l.edge, tick l) }
  | _, _ => x

/-- What the slots of a receive direction read in the tick that opens (R255, R258, R260, R266). -/
def State.sapRead (s : State) (k : Nat) : State :=
  let x := s.sapDir k
  let cfg := s.sapCfg k
  let t := s.time.ts
  let slots := s.rd (sapSlotsReg k)
  let put (s : State) (tag : Nat) (v : Nat → Int) : State :=
    (List.range 32).foldl (fun s i => s.place (0x02 * 1024 + 32 * k + i) ⟨if i < scNslots cfg then v i else 0, tag⟩) s
  if x.state = .off ∨ x.state = .locking then put s 0 (fun _ => 0)
  else if scAsrc cfg then
    let s := if x.state = .lost then (s.setSap k { x with lossM := x.lossM + 1 }).bump (sapCnt k 1) else s
    if x.asrc then put s 0 (fun i => sapScale x slots i (Config.asrcValue k i t.toNat)) else put s 0 (fun _ => 0)
  else
    let x := if x.state = .running ∧ x.edge.isNone then x.placed t (s.sapPer k) else x
    let late := x.queue.filter (fun (f : SapFrame) => decide (tsDiff (f.tick.getD (t + 1)) t < 0))
    let s := s.bumpBy (sapCnt k 2) late.length
    let hit := x.queue.find? (fun (f : SapFrame) => decide (f.tick = some t))
    let rest := x.queue.filter (fun (f : SapFrame) => decide (0 < tsDiff (f.tick.getD (t + 1)) t))
    match hit with
    | some f =>
      let x := { x with queue := rest, held := f.words, fill := min 8 (x.fill + 1), miss := 0 }
      let s := (s.setSap k x).groveTick (dirMember k) false
      put s 0 (fun i => sapScale x slots i (roundAway ((f.words.getD i 0 * (x.fill : Int) : Int) / (8 : Rat))))
    | none =>
      let y := missTick { x with queue := rest }
      let s := ((s.setSap k y).bump (sapCnt k 1)).groveTick (dirMember k) true
      put s 1 (fun i => sapScale y slots i (roundAway ((y.held.getD i 0 * (y.fill : Int) : Int) / (8 : Rat))))

/-- The value that a transmit direction reads in the tick that closes, queued at the boundary (R258, R262). -/
def State.sapWrite (s : State) (k : Nat) : State :=
  let x := s.sapDir k
  let cfg := s.sapCfg k
  let p := k - 8
  if (x.state = .running ∨ x.state = .glitch ∨ x.back) ∧ !scAsrc cfg then
    let slots := s.rd (sapSlotsReg k)
    let v := (List.range (scNslots cfg)).map (fun i =>
      sapScale x slots i (s.sinkVal (BitVec.ofNat 16 (addrOf 0x23 (32 * p + i)))).val)
    s.setSap k { x with queue := x.queue ++ [SapFrame.mk (some s.time.ts) s.time.bdt v] }
  else s

/-- Ramps and the end of a sequence at a boundary: the run factor rises in the tick after the lock (Table SA-5). -/
def State.sapRamps (s : State) (k : Nat) : State :=
  let x := s.sapDir k
  let x : SapDir := { x with
    run := grTick x.run, port := grTick x.port,
    slotR := (x.slotR.filter (fun (r : Nat × GRamp) => !grOver r.2)).map (fun (r : Nat × GRamp) => (r.1, grTick r.2)) }
  let up := scEn (s.sapCfg k)
  let x : SapDir := match x.seq with
    | some q =>
      -- E+1 of Table SA-5
      if q.applied && q.lock.isNone && x.state == .off && up && decide (1 ≤ tsDiff s.time.ts q.e) then { x with state := .locking } else x
    | none => x
  s.setSap k (match x.seq with
    | some q => match q.lock with
      | some l =>
        if 1 ≤ tsDiff s.time.ts l then
          { x with seq := none, run := if x.runOn && up then grGo 0 fullRun (scSmute (s.sapCfg k)) false else x.run }
        else x
      | none => x
    | none => x)

/-- A lost transmit direction goes on counting missing ticks (R270). -/
def State.sapTxMiss (s : State) (k : Nat) : State :=
  let x := s.sapDir k
  if 8 ≤ k ∧ (x.state = .lost ∨ (x.state = .rateError ∧ !scAsrc (s.sapCfg k))) then
    (s.setSap k { x with lossM := x.lossM + 1 }).bump (sapCnt k 1)
  else s

/-- The fill at the boundary (R258). -/
def State.sapMeasure (s : State) (k : Nat) : State := s.setSap k { s.sapDir k with level := s.sapFill k }

/-- The ports at a boundary, by direction. -/
def State.sapTick (s : State) : State :=
  let ks := s.sap.map (·.1)
  let s := ks.foldl (fun s k => (((((s.sapRequests k).sapMeasure k).sapResume k).sapSlip k).sapTxMiss k)) s
  let s := ks.foldl (fun s k => if k < 8 then s.sapRead k else s) s
  s

/-- The leader's error sample for kinds 1 and 2: the fill of the leading direction in a tick with a frame (R35). -/
def State.sapErr (s : State) : Option Int :=
  let k := if s.clk.kind = 1 then s.clk.index else s.clk.index + 8
  let x := s.sapDir k
  if (s.clk.kind = 1 ∨ s.clk.kind = 2) ∧ x.fresh ∧ x.state = .running then some (x.level * 65536).floor else none

/-- Directions enabled before RUN start at row E with E the first tick (R268). -/
def State.sapFirst (s : State) : State :=
  (List.range 16).foldl (fun s k =>
    if scEn (s.sapCfg k) then
      let t := s.time.ts
      s.updSap k (fun x => { x with
        seq := some ⟨t, t, s.sapCfg k, s.rd (sapFrameReg k), s.rd (sapSlotsReg k), s.rd (sapPhaseReg k), false, none⟩ })
    else s) s

/-- SAP_STATUS: one direction's half, at bit 0 of the half word. -/
def State.sapHalf (s : State) (k : Nat) : Nat :=
  let x := s.sapDir k
  let st := match x.state with
    | .off => 0 | .locking => 1 | .running => 2 | .lost => 3 | .rateError => 4 | .glitch => 5
  let g := match s.memberOf (dirMember k) with
    | some g => g + 1
    | none => 0
  st * 8192 + 4096 * wB x.runOn + 2048 * wB x.seq.isSome + 1024 * wB x.asrc + 64 * g

def State.sapStatus (s : State) (p : Nat) : Word := wN (s.sapHalf p + 65536 * s.sapHalf (p + 8))
def State.sapFillWord (s : State) (k : Nat) : Word := if (s.sapDir k).state = .off then 0 else wI ((s.sapDir k).level * 65536).floor

end Sys2Proof.Machine
end

