-- ==== Sys2Proof/Machine/Net.lean ====
section
/-! DEFINITION. Network audio streams (chapter 9): stream contexts and STREAM_CTRL, the placement of received frames,
talkers, host frames, links, PHY registers. -/
namespace Sys2Proof.Machine

/-! ## Context entries -/

def sampleBytes (fmt : Nat) : Nat := match fmt with
  | 0 => 2 | 1 => 3 | _ => 4

/-- A context entry whose fields are in range (R290, R291), by its words. -/
def ctxEntryOk (house : Nat) (f : Nat → Word) : Bool :=
  let crf := cxFmt f == 3
  let hold := bitsOf (f 5) 16 16
  bitsOf (f 4) 6 2 == 0 && decide (cxFmt f ≤ 3)
    && (crf || (decide (1 ≤ cxChans f) && decide (cxChans f ≤ 64) && decide (cxFirst f + cxChans f ≤ 512)))
    && (!cxTalker f || (decide (1 ≤ cxFrames f) && decide (cxFrames f ≤ 64)))
    && (!(cxTalker f && crf) || cxFrames f % 6 == 0)
    && (!(cxTalker f && !crf) || decide (cxChans f * cxFrames f * sampleBytes (cxFmt f) ≤ 1476))
    && (hold == 0 || (decide (16 ≤ hold) && decide (hold ≤ 1000)))
    && decide (8000 ≤ cxRate f) && decide (cxRate f ≤ 192000) && (cxAsrc f || cxRate f == fdHz house)
    && bitsOf (f 8) 8 24 == 0 && (List.range 7).all (fun i => f (9 + i) == 0)

/-- Has a context been committed: is its active entry other than the reset entry? -/
def State.ctxSet (s : State) (n : Nat) : Bool := (List.range 16).any (fun i => s.ctxWord n i != 0)

/-- The contexts that have an active entry, by the words listed. -/
def State.ctxList (s : State) : List Nat :=
  s.net.act.foldl (fun l p => if l.contains (p.1 / 16) then l else p.1 / 16 :: l) []

def streamId (f : Nat → Word) : BitVec 64 := f 1 ++ f 0
def destMac (f : Nat → Word) : BitVec 48 := (f 3).extractLsb' 0 16 ++ f 2

/-- CONFLICT of an entry with another active context (R291). -/
def State.ctxClash (s : State) (n : Nat) (f : Nat → Word) : Bool :=
  s.ctxList.any (fun m =>
    let g := s.ctxWord m
    m != n && s.ctxSet m && (
      (cxTalker g == cxTalker f && cxFmt g != 3 && cxFmt f != 3 && overlap (cxFirst f) (cxChans f) (cxFirst g) (cxChans g))
      || (!cxTalker f && !cxTalker g && streamId f == streamId g && cxMac f == cxMac g)))

/-! ## STREAM_CTRL -/

def streamRange (p : StreamCtrlP) : List Nat := (List.range p.count).map (· + p.first)

def streamCtrlValid (p : StreamCtrlP) : Bool :=
  decide (1 ≤ p.count) && decide (p.first + p.count ≤ 1024) && decide (p.op ≤ 2)

def State.ctxShd (s : State) (n i : Nat) : Word := smGet s.net.shd (n * 16 + i) 0

/-- Copies entries into the active table (R289). -/
def State.ctxCommit (s : State) (l : List Nat) : State :=
  l.foldl (fun s n => { s with net := { s.net with
    act := (List.range 16).foldl (fun m i => bankSet m (n * 16 + i) 0 (s.ctxShd n i)) s.net.act } }) s

/-- Op 0: the entries are validated in order, each against those before it; the first failure counts (R291). -/
def streamCommitCheck (s : State) : List Nat → Status
  | [] => .ok
  | n :: r =>
    let f := s.ctxShd n
    let own := if cxFmt f = 3 ∨ !cxAsrc f then 0 else cxChans f
    if !ctxEntryOk s.clk.rate f then .invalid
    else if s.ctxClash n f || decide (asrcPool s.clk.rate < s.asrcClaimed + own) then .conflict
    else if ctxUp (s.netCtx n) then .busy
    else streamCommitCheck (s.ctxCommit [n]) r

def State.rxBufBase (s : State) : Nat := (s.rd64 Reg.NET_RXBUF_BASE_LO Reg.NET_RXBUF_BASE_HI).toNat
/-- Length of the listeners' buffer region; a base of zero, the reset value, declares none (R297; DESIGN CHOICE,
log entry 168). -/
abbrev rxBufLen : Nat := 8 * 1024 * 1024

/-- A context that belongs to a running Grove (R303). -/
def State.inRunningGrove (s : State) (m : Member) : Bool := match s.memberOf m with
  | some g => decide ((s.groveOf g).state = .running) || decide ((s.groveOf g).state = .stopping)
  | none => false

/-- May contexts start (R288, R291, R292, R297)? -/
def State.startCheck (s : State) (l : List Nat) : Status :=
  let lis := l.filter (fun n => !cxTalker (s.ctxWord n))
  let tal := l.filter (fun n => cxTalker (s.ctxWord n))
  let sum (l : List Nat) : Nat := l.foldl (fun a n => a + s.ctxChans n) 0
  let asrc := sum (l.filter (fun n => cxAsrc (s.ctxWord n)))
  let stamped := !lis.isEmpty || tal.any (fun n => cxTvReq (s.ctxWord n))
  if l.any (fun n => !ctxEntryOk s.clk.rate (s.ctxWord n)) || (stamped && s.fld Fl.NET_GPTP.MODE == 0)
      || (!lis.isEmpty && (s.rxBufBase == 0 || !s.regionOk s.rxBufBase rxBufLen 64)) then .invalid
  else if decide (asrcPool s.clk.rate < s.asrcClaimed + asrc)
      || (!lis.isEmpty && s.writers.any (fun w => w.1 != 3000 && overlap s.rxBufBase rxBufLen w.2.1 w.2.2)) then .conflict
  else if l.any (fun n => ctxUp (s.netCtx n)) then .busy
  else if netChanMax s.clk.rate < s.netRunning false + sum lis || netChanMax s.clk.rate < s.netRunning true + sum tal then .budget
  else .ok

def streamCtrlRefusal (s : State) (p : StreamCtrlP) : Status :=
  let l := streamRange p
  if p.op = 0 then streamCommitCheck s l
  else if l.any (fun n => s.inRunningGrove (.ctx n)) then .conflict
  else if p.op = 1 then s.startCheck l
  else .ok

/-- A refusal for channel capacity is noted (R362, R363). -/
def State.streamNoted (s : State) (h : Hdr) (opcode : Nat) (l : List Nat) (st : Status) : State :=
  let sum (tk : Bool) : Nat :=
    s.netRunning tk + (l.filter (fun n => cxTalker (s.ctxWord n) == tk)).foldl (fun a n => a + s.ctxChans n) 0
  if st = .budget then s.budNote h opcode 4 (max (sum false) (sum true)) else s

def streamCtrlRefused (h : Hdr) (p : StreamCtrlP) (st : Status) (s : State) : State :=
  s.streamNoted h 0x0901 (streamRange p) st

/-- A context starts at boundary T (R301, R303). -/
def State.ctxStart (s : State) (n : Nat) : State :=
  let x := s.netCtx n
  let t := s.time.ts
  let talker := cxTalker (s.ctxWord n)
  let y : NetCtx := { NetCtx.init with
    state := if talker then CtxState.running else CtxState.armed, start := t, lastDt := s.time.bdt, txSeq := x.txSeq,
    pktCnt := x.pktCnt, late := x.late, early := x.early, missC := x.missC, discC := x.discC, slip := x.slip,
    first := if talker then some t else none }
  let s := s.setCtx n y
  if talker then s.logAt Src.NET 0x9003 1 s.time.bdt (wN n) t 0 else s

/-- A context ramps to zero over 32 tk and stops (R303). -/
def State.ctxStop (s : State) (n : Nat) : State :=
  s.updCtx n (fun x => if ctxUp x && x.stopAt.isNone then
    { x with port := grGo x.port.prev 0 32 false, stopAt := some (lastTick s.time.ts 32) } else x)

def streamCtrlEffect (h : Hdr) (p : StreamCtrlP) (s : State) : Done :=
  let l := streamRange p
  match p.op with
  | 0 => ⟨s.ctxCommit l, .ok, wN p.count, 0, 0, true, false⟩
  | 1 => laterDone ((l.foldl State.ctxStart s).armWait h 0x0901 (.stream p.first p.count) p.timeout)
  | _ =>
    let up := l.filter (fun n => ctxUp (s.netCtx n))
    ⟨up.foldl State.ctxStop s, .ok, wN up.length, 0, 0, false, false⟩

/-- Op 0 locks its shadow entries, so its write-back is written in every case (R176). -/
def execStreamCtrl (h : Hdr) (p : StreamCtrlP) (s : State) : Host.Outcome State Fault Refusal :=
  .next (if p.op = 0 then
      s.runLocking h (.streamCtrl p) 0x0901 (streamCtrlValid p) (streamCtrlRefusal s p) (streamCtrlEffect h p)
    else s.runCmd h (.streamCtrl p) 0x0901 (streamCtrlValid p) true (streamCtrlRefusal s p) (streamCtrlEffect h p)
    (streamCtrlRefused h p))

/-- Waits on streams whose listeners have all placed a first frame arrive (R303). -/
def State.streamWaits (s : State) : State :=
  s.host.waits.foldl (fun s w => match w.kind with
    | .stream f c =>
      let l := ((List.range c).map (· + f)).filter (fun n => !cxTalker (s.ctxWord n))
      let here (n : Nat) : Bool := match (s.netCtx n).first with
        | some t => decide (0 ≤ tsDiff s.time.ts t)
        | none => false
      if l.all here then
        let last := l.foldl (fun (a : Option TS) n => match a, (s.netCtx n).first with
          | none, x => x
          | some a, some b => if tsDiff a b < 0 then some b else some a
          | a, none => a) none
        s.arrive w .ok (wN c) (last.getD 0) 0 0
      else s
    | _ => s) s

/-! ## Listeners -/

/-- The tick that contains a DT, as the boundaries stand and the newest tick's length predicts (R49, R295). -/
def State.tickAt (s : State) (d : DT) : TS :=
  let per : Rat := match s.time.bdts with
    | a :: b :: _ => ((a.toNat - b.toNat : Nat) : Rat)
    | _ => perOf (fdHz s.clk.rate)
  let per := if per = 0 then perOf (fdHz s.clk.rate) else per
  s.time.ts + BitVec.ofInt 32 ((((d.toNat : Int) - s.time.bdt.toNat : Int) : Rat) / per).floor

/-- W of R297. -/
def earlyWin (rate : Nat) : Int := if rate ≤ 1 then 4096 else if rate ≤ 3 then 8192 else 16384

/-- A frame at its tick (R297, R303): discarded before the start, late, early, or stored. -/
def State.placeFrame (s : State) (n : Nat) (t : TS) (v : List Int) : State :=
  let x := s.netCtx n
  let ahead := tsDiff t s.time.ts
  if tsDiff t x.start < 0 then s
  else if ahead ≤ 0 then
    let s := s.setCtx n { x with late := min (x.late + 1) (2 ^ 32 - 1) }
    s.logLim Src.NET 0x9007 3 n 1 1 s.time.dt (wN n) 0 0
  else if earlyWin s.clk.rate ≤ ahead then s.setCtx n { x with early := min (x.early + 1) (2 ^ 32 - 1) }
  else s.setCtx n { x with queue := x.queue.filter (fun f => decide (f.1 ≠ t)) ++ [(t, v)] }

/-- The samples of a frame on the wire as Q1.31, left-justified. -/
def wireFrame (fmt : Nat) (v : List Word) : List Int := v.map (fun w => fromWidth w (8 * sampleBytes fmt))

/-- p of frame i, in ns (R294). -/
def presOf (p : Int) (i rate : Nat) : Int := p + (i * 1000000000 / rate : Nat)

/-- Ticks between two presentation times: round ((p − p_prev) × Fd / 10^9) (R295). -/
def presTicks (s : State) (a b : Int) : TS := BitVec.ofInt 32 (roundAway (((b - a) * (fdHz s.clk.rate : Int) : Int) / (1000000000 : Rat)))

/-- Stores the frames of a packet: frame 0 at a tick, the others at their continuation ticks. -/
def State.placeFrames (s : State) (n : Nat) (rate fmt : Nat) : List (List Word) → Nat → TS → Int → State
  | [], _, _, _ => s
  | v :: r, i, t, p =>
    let s := s.placeFrame n t (wireFrame fmt v)
    let s := s.updCtx n (fun x => { x with pos := some (t, presOf p i rate) })
    State.placeFrames s n rate fmt r (i + 1) (t + presTicks s (presOf p i rate) (presOf p (i + 1) rate)) p

def bump32 (n : Nat) : Nat := min (n + 1) (2 ^ 32 - 1)

/-- A packet goes in as first frame of a start, a return or a realignment. -/
def State.packetFirst (s : State) (n : Nat) (k : Packet) (p : Int) : State :=
  let f := s.ctxWord n
  let d := mapInv s.time.net p
  let t := s.tickAt d
  let s := s.updCtx n (fun x => { x with queue := [], signs := 0 })
  s.placeFrames n (cxRate f) (cxFmt f) k.frames 0 t p

/-- What a listener's state becomes when a packet is placed: the start, the return or the end of a realignment. -/
def State.ctxOnline (s : State) (n : Nat) (dt : DT) : State :=
  let x := s.netCtx n
  let t := (x.queue.head?.map (·.1)).getD s.time.ts
  let lead := s.leads 4 n
  let s := s.setCtx n { x with
    lastDt := dt, state := CtxState.running, first := some (x.first.getD t),
    lossRq := false,
    port := if (x.state = CtxState.lost ∨ x.state = CtxState.realigning) ∧ x.stopAt.isNone then grGo x.port.prev fullRun 32 false else x.port,
    lossM := if x.state = CtxState.lost then 0 else x.lossM }
  let s := match x.state with
    | .armed => s.logAt Src.NET 0x9003 1 dt (wN n) t 0
    | .lost => s.logAt Src.NET 0x9005 2 dt (wN n) (wN x.lossM) 0
    | _ => s
  if lead && (x.state == .lost || x.state == .realigning) then s.leaderBack else s

/-- The network time that a 32-bit stamp stands for at a packet's reception (R294). -/
def State.stampTime (s : State) (dt : DT) (w : Word) : Int :=
  let now := mapRead s.time.net dt
  now + signedOf 32 (w.toNat + 2 ^ 32 - (now % 2 ^ 32).toNat)

/-- Media-clock edges of a context, by their network times (R300). -/
def State.addEdges (s : State) (n : Nat) (l : List Int) : State :=
  s.updCtx n (fun x => { x with edges := x.edges ++ l.map (mapInv s.time.net) })

/-- A received AAF packet of a listener (R294 to R298). -/
def State.aafPacket (s : State) (n : Nat) (k : Packet) : State :=
  let f := s.ctxWord n
  let x := s.netCtx n
  let rate := cxRate f
  let count := k.frames.length
  let perNs : Rat := 1000000000 / (rate : Rat)
  let conv := s.time.net.valid && k.tv
  let p := s.stampTime k.dt k.stamp
  let follows := match x.packet with
    | some (q, _, _) => k.seq == q + 1
    | none => false
  -- where the packet would be by its predecessor alone
  let p := if k.tv then p else match x.packet with
    | some (_, a, c) => a + roundAway ((c : Rat) * perNs)
    | none => p
  let note (s : State) : State := s.updCtx n (fun x => { x with packet := some (k.seq, p, count) })
  let carried := follows && (match x.packet with
    | some (_, a, c) => decide (((p - a : Int) : Rat) - (c : Rat) * perNs ≤ perOf (fdHz s.clk.rate))
        && decide ((c : Rat) * perNs - ((p - a : Int) : Rat) ≤ perOf (fdHz s.clk.rate))
    | none => false)
  let disc (s : State) : State := s.updCtx n (fun x => { x with discC := bump32 x.discC })
  match x.pos with
  | none =>
    if conv then note ((s.packetFirst n k p).ctxOnline n k.dt) else note (disc s)
  | some (t0, p0) =>
    let cont := t0 + presTicks s p0 p
    if !conv then
      if carried then note ((disc (s.placeFrames n rate (cxFmt f) k.frames 0 cont p)).ctxOnline n k.dt) else note (disc s)
    else
      let e := tsDiff (s.tickAt (mapInv s.time.net p)) cont
      if e.natAbs ≤ 1 then
        let signs : Int := if e = 0 then 0 else if 0 < e * x.signs then x.signs + e else e
        let slip := signs.natAbs == 64
        let s := s.setCtx n { x with
          signs := if slip then 0 else signs, holdDt := none,
          slip := if slip then bump32 x.slip else x.slip }
        let s := if slip then s.logLim Src.NET 0x9008 3 n 1 1 k.dt (wN n) 0 (wN (wB (decide (0 < e)))) else s
        let t := if slip then cont + BitVec.ofInt 32 e else cont
        note ((s.placeFrames n rate (cxFmt f) k.frames 0 t p).ctxOnline n k.dt)
      else if x.state = .lost then
        -- no packet in position: this one is placed as a first frame (R298)
        note ((s.packetFirst n k p).ctxOnline n k.dt)
      else
        let s := disc (s.setCtx n { x with holdDt := some (x.holdDt.getD k.dt), holdE := e, signs := 0 })
        if carried then
          let s := s.placeFrames n rate (cxFmt f) k.frames 0 cont p
          note (s.updCtx n (fun x => { x with lastDt := k.dt }))
        else note s

/-- Buffers at the head of an NRX ring that were rejected give up their slots (R322). -/
def nrxPrune (l : List NetBuf) : Nat × List NetBuf := match l with
  | [] => (0, [])
  | b :: r => if b.dead then (let (n, t) := nrxPrune r; (n + 1, t)) else (0, b :: r)

def State.nrxPass (s : State) (n : Nat) : State :=
  let (k, l) := nrxPrune (s.ring n).nrx
  (s.updRing n (fun r => { r with nrx := l })).ringAdv n k

/-- A frame for the NRX rings (R287, R305). -/
def State.nrxFrame (s : State) (k : Packet) : State :=
  let r := bitsOf (s.rd Reg.NET_RX_FILTER) 0 6
  let ring := s.ring r
  match ring.nrx with
  | b :: rest =>
    if bitN (s.rd Reg.NET_RX_FILTER).toNat 31 && ring.state == .running && s.ringType r == 5 && s.dmaOn then
      let net := val64 (mapRead s.time.net k.dt)
      let off := (k.dt.toNat - s.time.bdt.toNat) % 65536
      let len := min k.len b.len % 2048
      let info := off + 65536 * (len + 16384 * k.mac + 32768 * wB (decide (b.len < k.len)))
      let s := ((s.setRing r { ring with nrx := rest }).ringAdv r 1).nrxPass r
      s.complete b.hdr 0x0911 .ok s.time.ts s.time.bdt (net.extractLsb' 0 32) (net.extractLsb' 32 32) (wN info) false
    else s.bump Reg.NET_RX_DROP
  | [] => s.bump Reg.NET_RX_DROP

/-- Does a frame's VLAN tag match a context: the context's VLAN when TAGGED, no tag otherwise (Table NW-1)? -/
def tagOk (f : Nat → Word) (k : Packet) : Bool := match k.vlan with
  | some v => cxTagged f && v.extractLsb' 0 12 == (cxTci f).extractLsb' 0 12
  | none => !cxTagged f

/-- The listener that a stream frame belongs to. -/
def State.listenerOf (s : State) (k : Packet) : Option Nat :=
  s.ctxsUp.find? (fun n =>
    let f := s.ctxWord n
    !cxTalker f && cxMac f == k.mac && streamId f == k.streamId && tagOk f k)

/-- An AAF listener that leads uses the first frame of its packet as its edge. -/
def State.aafEdge (s : State) (n : Nat) : State := match (s.netCtx n).packet with
  | some (_, p, _) => if s.time.net.valid then s.addEdges n [p] else s
  | none => s

/-- While a HOUSE_RATE has stopped the house clock and the new one does not run yet, an ASRC listener takes nothing. -/
def State.rateGap (s : State) : Bool := match s.clk.rc with
  | some rc => rc.stopped && rc.s.isNone
  | none => false

/-- A received frame (R287, R294 to R300). -/
def execNetPacketRx (k : Packet) (s : State) : Host.Outcome State Fault Refusal :=
  let s := s.advance k.dt
  if !bitN (s.rd Reg.NET_CTRL).toNat (8 + k.mac) || s.macsStopped then .next s
  else if !k.fcsOk then .next (s.bump Reg.NET_RX_DROP)
  else if k.isGptp && s.fld Fl.NET_GPTP.MODE == 1 && s.fld Fl.NET_GPTP.PORT == k.mac then
    .next (if s.flag Fl.NET_GPTP.MIRROR then s.nrxFrame k else s)
  else if !k.isStream then .next (s.nrxFrame k)
  else match s.listenerOf k with
    | none => .next (s.nrxFrame k)
    | some n =>
      let f := s.ctxWord n
      let x := s.netCtx n
      if s.rateGap && cxAsrc f then .next s
      else
        let s := s.setCtx n { x with pktCnt := bump32 x.pktCnt }
        if destMac f != k.dest || cxFmt f != k.fmt || (cxFmt f != 3 && cxChans f != k.chans) || cxRate f != k.rate then
          .next (s.updCtx n (fun x => { x with discC := bump32 x.discC }))
        else if cxFmt f = 3 then
          -- a CRF listener's time stamps are media-clock edges (R300)
          if s.time.net.valid && k.tv then
            .next ((s.addEdges n ((k.stamp :: k.more).map (s.stampTime k.dt))).ctxOnline n k.dt)
          else .next (s.updCtx n (fun x => { x with discC := bump32 x.discC }))
        else .next ((s.aafPacket n k).aafEdge n)

/-- Every packet over the realign hold has been discontinuous (R296). -/
def execNetRealign (n : Nat) (s : State) : Host.Outcome State Fault Refusal :=
  let x := s.netCtx n
  match x.holdDt with
  | none => .next s
  | some d =>
    if (x.state = .running ∨ x.state = .lost) ∧ d.toNat + cxHold (s.ctxWord n) * 1000000 ≤ s.time.dt.toNat then
      let s := s.setCtx n { x with
        state := .realigning, port := grGo x.port.prev 0 8 false, realRq := true, holdDt := none, signs := 0 }
      let s := s.log Src.NET 0x9006 3 (wN n) (wI x.holdE) 0
      .next (if s.leads 4 n then s.leaderLost s.time.dt else s)
    else .next s

/-- The loss timeout passes (R298); the effects come at the first boundary after it. -/
def execNetStreamLoss (n : Nat) (dt : DT) (s : State) : Host.Outcome State Fault Refusal :=
  let s := s.advance dt
  let x := s.netCtx n
  .next (if !cxTalker (s.ctxWord n) && (x.state == .running || x.state == .realigning)
      && decide (x.lastDt.toNat + cxLoss (s.ctxWord n) * 1000000 ≤ dt.toNat) then
    s.setCtx n { x with lossRq := true } else s)

/-- Losses, realignments and stops at a boundary (R296, R298, R303). -/
def State.ctxBoundary (s : State) (n : Nat) : State :=
  let x := s.netCtx n
  let x : NetCtx := { x with port := grTick x.port }
  let stopped := match x.stopAt with
    | some t => decide (0 < tsDiff s.time.ts t)
    | none => false
  if stopped then
    s.setCtx n { NetCtx.init with
      pktCnt := x.pktCnt, late := x.late, early := x.early, missC := x.missC, discC := x.discC, slip := x.slip, txSeq := x.txSeq,
      pkt := x.pkt }
  else
    let x : NetCtx := if x.realRq && !grRuns x.port && x.port.cur == 0 then { x with realRq := false, queue := [], pos := none } else x
    let s := s.setCtx n x
    if x.lossRq then
      let lead := s.leads 4 n
      let s := s.setCtx n { x with lossRq := false, state := .lost, port := grGo x.port.prev 0 8 false, lossM := 0 }
      let s := s.logAt Src.NET 0x9004 4 s.time.bdt (wN n) (x.lastDt.extractLsb' 0 32) (wN (wB lead))
      if lead then s.leaderLost s.time.bdt else s
    else s

/-- A sample times the fill and port factors. -/
def ctxScale (x : NetCtx) (v : Int) : Int := satQ31 (roundAway ((v * (x.fill : Int) * x.port.cur : Int) / (8 * 2 ^ 20 : Rat)))

/-- What a listener's channels read in the tick that opens (R294, R298, R299). -/
def State.ctxRead (s : State) (n : Nat) : State :=
  let f := s.ctxWord n
  let x := s.netCtx n
  let t := s.time.ts
  let gap := s.rateGap
  let put (s : State) (tag : Nat) (v : Nat → Int) : State :=
    (List.range (cxChans f)).foldl (fun s i => s.place (0x03 * 1024 + cxFirst f + i) ⟨v i, tag⟩) s
  if cxTalker f || cxFmt f == 3 || !ctxUp x then s
  else
    let hit := x.queue.find? (fun q => decide (q.1 = t))
    let rest := x.queue.filter (fun q => decide (0 < tsDiff q.1 t))
    let begun := match x.first with
      | some a => decide (0 ≤ tsDiff t a)
      | none => false
    let (x, tag) : NetCtx × Nat := match hit with
      | some (_, v) => ({ x with queue := rest, held := v, fill := min 8 (x.fill + 1), miss := 0 }, 0)
      | none =>
        if begun then ({ x with queue := rest, fill := x.fill - 1, miss := x.miss + 1, lossM := x.lossM + 1, missC := bump32 x.missC }, 1)
        else ({ x with queue := rest }, 0)
    let s := s.setCtx n x
    let s := if begun then s.groveTick (.ctx n) hit.isNone else s
    if gap then put s tag (fun _ => 0)
    else if cxAsrc f then
      put s tag (fun i => if x.asrc then ctxScale x (Config.asrcValue (1024 + n) i t.toNat) else 0)
    else put s tag (fun i => ctxScale x (x.held.getD i 0))

/-! ## Talkers -/

/-- Is a MAC's link up: enabled with a speed? -/
def State.linkUp (s : State) (mac : Nat) : Bool :=
  bitN (s.rd Reg.NET_CTRL).toNat (8 + mac) && bitsOf (s.rd Reg.NET_STATUS) (4 * mac) 2 != 0

/-- A frame dropped because its MAC's link is down (R302). -/
def State.txDrop (s : State) (mac : Nat) : State :=
  (s.bump Reg.NET_TX_DROP).logLim Src.NET 0x900A 3 mac 1 1 s.time.dt (wN mac) 0 0

/-- The AVTP stamp of a boundary's DT. -/
def State.avtp (s : State) (offset : Nat) (d : DT) : Word := wI (mapRead s.time.net (d + BitVec.ofNat 64 offset))

/-- A talker in the tick that closes: its channels are read; after F ticks the packet is built and queued (R301). -/
def State.talkerTick (s : State) (n : Nat) : State :=
  let f := s.ctxWord n
  let x := s.netCtx n
  let gap := s.rateGap
  if !cxTalker f || !ctxUp x || gap then s
  else
    let crf := cxFmt f == 3
    let vals : List Int := if crf then [] else (List.range (cxChans f)).map (fun i =>
      let v := if cxAsrc f then (if x.asrc then Config.asrcValue (1024 + n) i s.time.ts.toNat else 0)
               else (s.sinkVal (BitVec.ofNat 16 (addrOf 0x24 (cxFirst f + i)))).val
      ctxScale x v)
    let l := (s.time.ts, s.time.bdt, vals) :: x.tx
    if l.length < cxFrames f then s.setCtx n { x with tx := l }
    else
      let fr := l.reverse
      let valid := s.time.net.valid
      let s := s.setCtx n { x with tx := [] }
      if !valid && cxTvReq f then s.bump Reg.NET_TX_DROP
      else
        let at_ (j : Nat) : DT := ((fr[j]?).map (·.2.1)).getD 0
        let stamp (j : Nat) : Word := if valid then s.avtp (cxOffset f) (at_ j) else 0
        let stamps := if crf then (List.range 6).map (fun j => stamp (j * (cxFrames f / 6))) else [stamp 0]
        let pkt : TxPkt := {
          tick := ((fr.head?).map (·.1)).getD 0, seq := x.txSeq, tv := valid, stamps := stamps,
          vlan := if cxTagged f then some (cxTci f) else none, cls := cxClass f, frames := fr.map (·.2.2) }
        let s := s.setCtx n { x with tx := [], txSeq := x.txSeq + 1, pkt := some pkt }
        if s.linkUp (cxMac f) then s else s.txDrop (cxMac f)

/-- The streams at a boundary. -/
def State.netTick (s : State) : State :=
  let l := s.net.ctx.map (·.1)
  let s := l.foldl State.ctxBoundary s
  l.foldl State.ctxRead s

def State.netClose (s : State) : State := (s.net.ctx.map (·.1)).foldl State.talkerTick s

/-- The leader's error sample for kind 4 (Table TK-2): from the last media-clock edge that has passed to the boundary, in tk,
Q16.16. An edge that lies ahead waits for the boundary after it. -/
def State.netErr (s : State) : Option Int :=
  let past := ((s.netCtx s.clk.index).edges.map (·.toNat)).filter (fun d => decide (d < s.time.bdt.toNat))
  if s.clk.kind = 4 ∧ past ≠ [] then
    some ((((s.time.bdt.toNat - past.foldl max 0 : Nat) : Rat) / perOf (fdHz s.clk.rate)) * 65536).floor
  else none

/-! ## Host frames, links and PHY registers -/

def ntxFrameValid (p : NtxP) : Bool := decide (60 ≤ p.len) && decide (p.len ≤ 1522) && decide (p.mac < 2) && decide (p.queue < 4)

/-- A descriptor of a network ring, taken by the stream engine in the tick in force: checks 1 to 3 of R328, then the
work; `pass` moves the consumer index past a rejected one (R322). -/
def State.runData (s : State) (h : Hdr) (opcode type : Nat) (valid hostOk : Bool) (pass work : State → State) : State :=
  if !(headerOk s h [type] && valid && !h.chain) then pass (s.rejectNext h opcode .invalid)
  else if !hostOk then pass (s.rejectNext h opcode .denied)
  else work s

/-- An NTX descriptor: the frame is queued, or discarded while the link is down (R302, R305). -/
def State.ntxTake (s : State) (h : Hdr) (p : NtxP) : State :=
  let n := ringOf h
  s.runData h 0x0910 4 (ntxFrameValid p) (s.dmaAllowed p.addr p.len false) (fun s => s.ringAdv n 1) (fun s =>
    let s := s.ringAdv n 1
    if s.linkUp p.mac then s.updRing n (fun r => { r with ntx := r.ntx ++ [NetBuf.mk h p.addr p.len p.mac p.tsreq p.queue false] })
    else (s.txDrop p.mac).reject h 0x0910 .lost)

/-- An NRX descriptor: the buffer waits for a frame (R305). -/
def State.nrxTake (s : State) (h : Hdr) (p : NrxP) : State :=
  let n := ringOf h
  let post (dead : Bool) (s : State) : State :=
    (s.updRing n (fun r => { r with nrx := r.nrx ++ [NetBuf.mk h p.addr p.len 0 false 0 dead] })).nrxPass n
  s.runData h 0x0911 5 (decide (1 ≤ p.len) && decide (p.len < 65536)) (s.dmaAllowed p.addr p.len true) (post true) (post false)

/-- NTX_FRAME as the stream engine picks it up in the tick in force. -/
def execNtxFrame (h : Hdr) (p : NtxP) (s : State) : Host.Outcome State Fault Refusal := .next (s.ntxTake h p)

/-- NRX_BUF as the stream engine picks it up in the tick in force. -/
def execNrxBuf (h : Hdr) (p : NrxP) (s : State) : Host.Outcome State Fault Refusal := .next (s.nrxTake h p)

/-- A queued host frame leaves the MAC (R305). -/
def execNtxEgress (ring : Nat) (dt : DT) (s : State) : Host.Outcome State Fault Refusal :=
  let s := s.advance dt
  let r := s.ring ring
  match r.ntx with
  | [] => .next s
  | b :: rest =>
    let s := s.setRing ring { r with ntx := rest }
    let d := if b.tsreq then dt else s.time.bdt
    let net := val64 (mapRead s.time.net d)
    let off := if b.tsreq then (dt.toNat - s.time.bdt.toNat) % 65536 else 0
    .next (s.complete b.hdr 0x0910 .ok s.time.ts s.time.bdt (net.extractLsb' 0 32) (net.extractLsb' 32 32) (wN off) false)

/-- Frames of a MAC that wait in NTX rings are discarded (R302). -/
def State.ntxFlush (s : State) (mac : Nat) : State :=
  s.host.rings.foldl (fun s p =>
    let gone := p.2.ntx.filter (fun b => b.mac == mac)
    let s := s.updRing p.1 (fun r => { r with ntx := r.ntx.filter (fun b => b.mac != mac) })
    gone.foldl (fun s b => (s.txDrop mac).reject b.hdr 0x0910 .lost) s) s

/-- A link's speed as NET_STATUS shows it, with its record (R285, R307). -/
def State.linkSpeed (s : State) (mac speed : Nat) : State :=
  let was := bitsOf (s.rd Reg.NET_STATUS) (4 * mac) 2
  let s := s.wr Reg.NET_STATUS (withBits (s.rd Reg.NET_STATUS) (4 * mac) 2 speed)
  if was = 0 ∧ speed ≠ 0 then s.log Src.NET 0x9001 1 (wN mac) (wN speed) 0
  else if was ≠ 0 ∧ speed = 0 then (s.ntxFlush mac).log Src.NET 0x9002 3 (wN mac) 0 0
  else s

def State.macOn (s : State) (mac : Nat) : Bool := decide (mac < 2) && bitN (s.rd Reg.NET_CTRL).toNat (8 + mac)

def execNetLinkUp (mac speed : Nat) (s : State) : Host.Outcome State Fault Refusal :=
  .next (if s.macOn mac && decide (1 ≤ speed) && decide (speed ≤ 3) then s.linkSpeed mac speed else s)

def execNetLinkDown (mac : Nat) (s : State) : Host.Outcome State Fault Refusal :=
  .next (if s.macOn mac then s.linkSpeed mac 0 else s)

/-- The link monitor reads a PHY's basic status (R535). -/
def execMdioLinkMonitor (mac speed : Nat) (s : State) : Host.Outcome State Fault Refusal :=
  .next (if s.macOn mac && decide (speed ≤ 3) then s.linkSpeed mac speed else s)

/-- A PHY interrupt asserts (R285). -/
def execNetPhyInt (mac : Nat) (dt : DT) (s : State) : Host.Outcome State Fault Refusal :=
  let s := s.advance dt
  if mac < 2 then
    let s := s.wr Reg.NET_STATUS (withBits (s.rd Reg.NET_STATUS) (16 + mac) 1 1)
    .next ((s.logAt Src.NET 0x900B 1 dt (wN mac) 0 0).wakeFire 6 mac dt)
  else .next s

/-- A PHY register access ends: GO clears, and a read's data are in DATA (R306). -/
def execMdioDone (data : BitVec 16) (s : State) : Host.Outcome State Fault Refusal :=
  if s.net.mdio then
    let s := { s with net := { s.net with mdio := false } }
    let s := s.setFld Fl.NET_MDIO.GO 0
    .next (if s.flag Fl.NET_MDIO.OP then s.setFld Fl.NET_MDIO.DATA data.toNat else s)
  else .next s

/-- NET_CTX_STAT of a context. -/
def State.ctxStat (s : State) (n : Nat) : Word :=
  let x := s.netCtx n
  let st := match x.state with
    | .idle => 0 | .armed => 1 | .running => 2 | .lost => 3 | .realigning => 4
  let g := match s.memberOf (.ctx n) with
    | some g => g + 1
    | none => 0
  wN (st * 2 ^ 29 + 2 ^ 28 * wB x.asrc + 2 ^ 24 * g)

/-! ## The aperture's context table -/

/-- Is a context's shadow entry locked by a STREAM_CTRL op 0 that is staged (R176)? -/
def State.ctxLocked (s : State) (n : Nat) : Bool :=
  s.staging.any (fun q => match q.cmd with
    | .streamCtrl p => p.op == 0 && decide (p.first ≤ n) && decide (n < p.first + p.count)
    | _ => false)

def State.apCtx (s : State) (off : Nat) (w : Word) : State :=
  let i := (off - 0x180000) / 4
  if s.ctxLocked (i / 16) then s.apBad off true
  else { s with net := { s.net with shd := bankSet s.net.shd i 0 w } }

def State.apCtxRead (s : State) (off : Nat) : Word := smGet s.net.shd ((off - 0x180000) / 4) 0

end Sys2Proof.Machine
end

