-- ==== Sys2Proof/Machine/Grove.lean ====
section
/-! DEFINITION. Groves (chapter 8): membership, starting on one trigger tick, late members, stopping. -/
namespace Sys2Proof.Machine

/-- The members of a Grove. -/
def groveMembers (x : GroveSt) : List Member :=
  ((List.range 16).filter (bitN x.ports.toNat)).map (fun k => Member.port (k % 8) (k / 8))
    ++ x.ctxs.map Member.ctx ++ ((List.range 64).filter (bitN x.rings.toNat)).map Member.ring

/-- The items that a GROVE_SET names. -/
def groveNamed (p : GroveSetP) : List Member :=
  let ctxs := ((List.range p.count).map (fun i => Member.ctx (p.first + i)))
  match p.op with
  | 0 => ((List.range 16).filter (bitN p.ports.toNat)).map (fun k => Member.port (k % 8) (k / 8)) ++ ctxs
           ++ ((List.range 64).filter (bitN p.rings.toNat)).map Member.ring
  | 1 => ctxs
  | _ => []

def groveSetValid (p : GroveSetP) : Bool :=
  decide (p.grove < 8) && decide (p.op ≤ 2) && (p.count == 0 || decide (p.first + p.count ≤ 1024))

/-- An item that may not be a member (R274): an ASRC direction, a ring that is neither HPB nor HCP. -/
def State.notMember (s : State) (m : Member) : Bool := match m with
  | .port p d => scAsrc (s.sapCfg (sapKey p d))
  | .ring r => s.ringType r != 2 && s.ringType r != 3
  | .ctx _ => false

/-- An item that already runs: a direction with RUN set, a started context, a ring that has placed a frame. -/
def State.itemRuns (s : State) (m : Member) : Bool := match m with
  | .port p d => (s.sapDir (sapKey p d)).runOn
  | .ctx n => ctxUp (s.netCtx n)
  | .ring r => (s.ring r).state == .running && (s.ring r).placed

def groveBusy (x : GroveSt) : Bool := decide (x.state = .running) || decide (x.state = .stopping)

/-- R274. -/
def groveSetRefusal (s : State) (p : GroveSetP) : Status :=
  let l := groveNamed p
  if l.any s.notMember then .invalid
  else if l.any (fun m => match s.memberOf m with
      | some g => g != p.grove
      | none => false) then .conflict
  else if groveBusy (s.groveOf p.grove) || l.any s.itemRuns then .busy
  else .ok

/-- Sorted union of contexts. -/
def addCtxs (l new : List Nat) : List Nat := (List.range 1024).filter (fun n => l.contains n || new.contains n)

def groveSetEffect (p : GroveSetP) (s : State) : Done :=
  let x := s.groveOf p.grove
  let ctxs := (List.range p.count).map (· + p.first)
  let y : GroveSt := match p.op with
    | 0 => { GroveSt.init with state := .defined, ports := p.ports, rings := p.rings, ctxs := ctxs }
    | 1 => { x with state := .defined, ctxs := addCtxs x.ctxs ctxs }
    | _ => GroveSt.init
  ⟨s.setGrove p.grove y, .ok, wN (groveMembers y).length, 0, 0, false, false⟩

def execGroveSet (h : Hdr) (p : GroveSetP) (s : State) : Host.Outcome State Fault Refusal :=
  .next (s.runCmd h (.groveSet p) 0x0811 (groveSetValid p) true (groveSetRefusal s p) (groveSetEffect p))

/-- Has a ring a descriptor for tick t (R275, R276)? -/
def ringCovers (r : Ring) (t : TS) : Bool :=
  r.queue.any (fun d => decide (0 ≤ tsDiff t d.first) && decide (tsDiff t d.first < d.n))

/-- Is a member running at the trigger, or ready to join (R276)? -/
def State.memberReady (s : State) (m : Member) : Bool := match m with
  | .port p d =>
    let x := s.sapDir (sapKey p d)
    (x.state == .running || x.state == .glitch || x.state == .lost || x.state == .rateError) && x.seq.isNone
  | .ctx n => cxTalker (s.ctxWord n) || (s.netCtx n).first.isSome
  | .ring r => (s.ring r).state == .running && (s.ringType r == 3 || ringCovers (s.ring r) s.time.ts)

/-- A direction raises its run factor from the boundary in force (R266, R275). -/
def State.dirRise (s : State) (k : Nat) : State :=
  s.updSap k (fun x => { x with runOn := true, run := grGo x.run.prev fullRun (scSmute (s.sapCfg k)) false })

/-- R274, R292: an empty Grove has nothing to start. -/
def groveStartRefusal (s : State) (g : Nat) : Status :=
  let x := s.groveOf g
  if x.state = .empty then .invalid
  else
    let l := x.ctxs.filter (fun n => !ctxUp (s.netCtx n))
    let c := if l.isEmpty then Status.ok else s.startCheck l
    if c = .invalid ∨ c = .conflict then c
    else if groveBusy x then .busy
    else c

/-- A refusal for channel capacity is noted (R362, R363). -/
def groveStartRefused (h : Hdr) (g : Nat) (st : Status) (s : State) : State :=
  s.streamNoted h 0x0812 ((s.groveOf g).ctxs.filter (fun n => !ctxUp (s.netCtx n))) st

/-- GROVE_START at its trigger T (R275, R276). -/
def groveStartEffect (g : Nat) (s : State) : Done :=
  let x := s.groveOf g
  let t := s.time.ts
  let ms := groveMembers x
  let late := ms.filter (fun m => !s.memberReady m)
  let s := ms.foldl (fun s m => match m with
    | .port p d => if late.contains m then s.updSap (sapKey p d) (fun y => { y with runOn := true }) else s.dirRise (sapKey p d)
    | .ctx n => if ctxUp (s.netCtx n) then s else s.ctxStart n
    | .ring _ => s) s
  let s := s.setGrove g { x with state := .running, trig := t, late := late, eps := [], stop := none }
  let ports := late.foldl (fun a m => match m with
    | .port p d => a + 2 ^ (p + 8 * d)
    | _ => a) 0
  let others := (late.filter (fun m => match m with
    | .port _ _ => false
    | _ => true)).length
  let s := s.logAt Src.SAP 0x8008 1 s.time.bdt (wN g) t (wN late.length)
  ⟨s, .ok, t, wN (ports + 65536 * others), 0, false, false⟩

def execGroveStart (h : Hdr) (g : Nat) (s : State) : Host.Outcome State Fault Refusal :=
  .next (s.runCmd h (.groveStart g) 0x0812 (decide (g < 8)) true (groveStartRefusal s g) (groveStartEffect g)
    (groveStartRefused h g))

/-- The last tick of a member's stopping ramp: SMUTE for a direction, 32 tk for a stream, the fill factor for a playback ring; a
capture ring has no ramp (DESIGN CHOICE, log entry 74). -/
def State.memberStop (s : State) (m : Member) : TS := match m with
  | .port p d => if (s.sapDir (sapKey p d)).runOn then lastTick s.time.ts (scSmute (s.sapCfg (sapKey p d))) else s.time.ts
  | .ctx n => if ctxUp (s.netCtx n) then lastTick s.time.ts 32 else s.time.ts
  | .ring n => if s.ringType n = 2 ∧ !(s.ring n).hold.isEmpty then lastTick s.time.ts (s.ring n).fill else s.time.ts

def groveStopRefusal (s : State) (g : Nat) : Status :=
  let x := s.groveOf g
  if x.state = .running then .ok else if x.state = .stopping then .busy else .invalid

/-- GROVE_STOP at its boundary (R278). -/
def groveStopEffect (g : Nat) (s : State) : Done :=
  let x := s.groveOf g
  let ms := groveMembers x
  let last := ms.foldl (fun a m => let b := s.memberStop m; if tsDiff a b < 0 then b else a) s.time.ts
  let s := ms.foldl (fun s m => match m with
    | .port p d => s.updSap (sapKey p d) (fun y => { y with
        runOn := false, run := if y.runOn then grGo y.run.prev 0 (scSmute (s.sapCfg (sapKey p d))) false else y.run })
    | .ctx n => s.ctxStop n
    | .ring _ => s) s
  let s := s.setGrove g { x with state := .stopping, stop := some last, late := [] }
  ⟨s, .ok, last, 0, 0, false, false⟩

def execGroveStop (h : Hdr) (g : Nat) (s : State) : Host.Outcome State Fault Refusal :=
  .next (s.runCmd h (.groveStop g) 0x0813 (decide (g < 8)) true (groveStopRefusal s g) (groveStopEffect g))

/-- A late member that has become ready joins (R276). -/
def execGroveMemberJoin (g : Nat) (m : Member) (s : State) : Host.Outcome State Fault Refusal :=
  let x := s.groveOf g
  if g < 8 ∧ x.state = .running ∧ x.late.contains m ∧ s.memberReady m then
    let s := s.setGrove g { x with late := x.late.erase m }
    let s := match m with
      | .port p d => s.dirRise (sapKey p d)
      | _ => s
    .next (s.log Src.SAP 0x800A 3 (wN g) (memberWord m) s.time.ts)
  else .next s

/-- The Groves at a boundary: one whose last member has stopped is defined again (R278). -/
def State.groveEnds (s : State) : State :=
  (List.range 8).foldl (fun s g =>
    let x := s.groveOf g
    match x.state, x.stop with
    | .stopping, some t =>
      if 0 < tsDiff s.time.ts t then
        (s.setGrove g { x with state := .defined, stop := none, eps := [] }).logAt Src.SAP 0x800B 1 s.time.bdt (wN g) t 0
      else s
    | _, _ => s) s

/-- The status registers of a Grove. -/
def State.grvStatus (s : State) (g : Nat) : Word :=
  let x := s.groveOf g
  let st := match x.state with
    | .empty => 0 | .defined => 1 | .running => 2 | .stopping => 3
  let late := x.late.foldl (fun a m => match m with
    | .port p d => a + 2 ^ (p + 8 * d)
    | _ => a) 0
  wN (st * 2 ^ 30 + late)

end Sys2Proof.Machine
end

