-- ==== Sys2Proof/Machine/Host.lean ====
section
/-! DEFINITION. The host interface (chapter 10): rings, the doorbell and consumer pages, host streams, bulk transfers,
MSI-X, link loss and PERST_N. -/
namespace Sys2Proof.Machine

/-! ## The endpoint (R308, R309) -/

/-- The identity that the endpoint presents (Table HR-1): one function with a type 0 header. -/
structure Endpoint where
  vendor     : BitVec 16
  device     : BitVec 16
  revision   : BitVec 8
  classCode  : BitVec 24
  subVendor  : BitVec 16
  subsystem  : BitVec 16
  payloadMax : Nat           -- bytes
  readMax    : Nat
  lanesMax   : Nat
  genMax     : Nat
  deriving DecidableEq, Repr

/-- The subsystem vendor lies in the lower half of the fuses' word. -/
def State.endpoint (s : State) : Endpoint :=
  ⟨0x1F3D, 0x9320, 0xB0, 0x040100, s.hwd.fuses.subsys.extractLsb' 0 16, s.hwd.fuses.subsys.extractLsb' 16 16, 256, 512, 2, 3⟩

/-- Bytes of a BAR: BAR0 and BAR2, each of 64 bits; there are no others (Table HR-2). -/
def barBytes (n : Nat) : Option Nat := match n with
  | 0 => some (256 * 1024)
  | 2 => some (16 * 1024 * 1024)
  | _ => none

/-! ## Ring set-up -/

/-- Ring types whose entries the host writes (Table HR-3). -/
def hostWritten (ty : Nat) : Bool := ty != 1 && ty != 6 && decide (ty < 8)

def State.ringEn (s : State) (n : Nat) : Bool := s.flag (Fl.HST_RING_CFG.EN n)

/-- A ring that has passed its checks and has not been disabled. -/
def State.ringUp (s : State) (n : Nat) : Bool := (s.ring n).state == .running || (s.ring n).state == .error

/-- Host stream of a ring: first channel, channels, packing (R333). -/
def State.rsFirst (s : State) (n : Nat) : Nat := s.fld (Fl.HST_RING_STREAM.FIRST n)
def State.rsCount (s : State) (n : Nat) : Nat := s.fld (Fl.HST_RING_STREAM.COUNTM1 n) + 1
def State.rsPack (s : State) (n : Nat) : Nat := s.fld (Fl.HST_RING_STREAM.PACK n)

/-- Bytes per sample of a packing code (Table SA-6). -/
def packBytes (p : Nat) : Nat := match p with
  | 0 => 2 | 1 => 3 | _ => 4

/-- A sample from its container, left-justified (R279). -/
def unpackWord (p : Nat) (w : Word) : Int := match p with
  | 0 => (w <<< 16).toInt
  | 1 | 4 => (w <<< 8).toInt
  | 2 => (w &&& 0xFFFFFF00).toInt
  | _ => w.toInt

/-- The container of a sample (R279). -/
def packWord (p : Nat) (v : Int) : Word := match p with
  | 0 => wN (roundTo 16 v % 2 ^ 16).toNat
  | 1 => wN (roundTo 24 v % 2 ^ 24).toNat
  | 2 => wI (roundTo 24 v * 256)
  | 4 => wI (roundTo 24 v)
  | _ => wI v

/-- The check of a ring in phase 8 (R317). Host streams are priced by channel range alone (R357), so check 6 never
fails. -/
def State.ringCheck (s : State) (n : Nat) : Status :=
  let ty := s.ringType n
  let lg := s.fld (Fl.HST_RING_CFG.LOG2SIZE n)
  let base := s.rd64 (Reg.HST_RING_BASE_LO n) (Reg.HST_RING_BASE_HI n)
  let stream := ty == 2 || ty == 3
  if 8 ≤ ty ∨ lg < 4 ∨ base.toNat % 64 ≠ 0 then .invalid
  else if hostWritten ty && !(s.ringType (s.cplOf n) == 1 && (s.ring (s.cplOf n)).state == .running) then .invalid
  else if stream && (decide (4 < s.rsPack n) || decide (256 < s.rsFirst n + s.rsCount n)) then .invalid
  else if !s.dmaAllowed base (32 * s.ringSize n) (!hostWritten ty) then .denied
  else if stream && (List.range 64).any (fun m => m != n && s.ringUp m && s.ringType m == ty
      && overlap (s.rsFirst n) (s.rsCount n) (s.rsFirst m) (s.rsCount m)) then .conflict
  else .ok

/-- Checks one ring: it runs from the next boundary, or its EN returns to 0 (R317). -/
def State.ringTry (s : State) (n : Nat) : State :=
  let r := s.ring n
  if r.state = .enabling ∧ r.armed then
    match s.ringCheck n with
    | .ok => s.setRing n { Ring.init with
        state := .running, fill := r.fill, hold := r.hold,
        queue := (r.queue.filter (fun d => !d.ended)).map (fun d => { d with counted := true }) }
    | c => (s.setFld (Fl.HST_RING_CFG.EN n) 0).setRing n { r with state := .off, armed := false, code := c }
  else s

/-- Phase 8: CPL and EVT rings first, then the others, in ascending number (R317). -/
def State.ringChecks (s : State) : State :=
  let dev (n : Nat) : Bool := s.ringType n == 1 || s.ringType n == 6
  let l := List.range 64
  (l.filter dev ++ l.filter (fun n => !dev n)).foldl State.ringTry s

/-- A write to HST_RINGn_CFG that R12 has passed (R317, R318). -/
def State.ringCfgWrite (s : State) (n : Nat) (v : Word) : State :=
  let en := bitN v.toNat 31
  if s.ringEn n then
    if en then s
    else if s.ringType n == 1 && (List.range 64).any (fun m => m != n && s.ringEn m && hostWritten (s.ringType m) && s.cplOf m == n) then
      s.updRing n (fun r => { r with code := .conflict })
    else (s.setFld (Fl.HST_RING_CFG.EN n) 0).updRing n (fun r => { r with stop := true })
  else
    let s := s.wr (Reg.HST_RING_CFG n) v
    if en then s.updRing n (fun r => if r.stop then r else { r with state := .enabling, armed := false }) else s

/-! ## Completing stream and bulk descriptors -/

/-- The write-back of a host stream descriptor (Tables HR-8, HR-11). -/
def State.streamEnd (s : State) (d : StreamDesc) (st : Status) : State :=
  let last : TS := d.first + BitVec.ofNat 32 (d.n - 1)
  let (ts, dt) := match d.firstOk with
    | some x => x
    | none => (d.first, s.dtOf d.first)
  s.complete d.hdr d.opcode st ts dt (wN d.moved) (wN d.disc) last false

/-- Drops completed descriptors whose slots have been passed, and passes those at the head that may be (R322). -/
def qPass (l : List StreamDesc) : Nat × List StreamDesc := match l with
  | [] => (0, [])
  | d :: r =>
    if d.counted then (let (n, t) := qPass r; (n, if d.ended then t else d :: t))
    else if d.ended || (d.opcode == 0x0A10 && d.bufOk) then
      (let (n, t) := qPass r; (n + 1, if d.ended then t else { d with counted := true } :: t))
    else (0, d :: r)

def State.streamPass (s : State) (n : Nat) : State :=
  let (k, l) := qPass (s.ring n).queue
  (s.updRing n (fun r => { r with queue := l })).ringAdv n k

/-- Ends the first descriptor of a ring that a test picks. -/
def State.streamFinish (s : State) (n : Nat) (f : StreamDesc → Bool) (st : Status) : State :=
  match (s.ring n).queue.find? (fun d => !d.ended && f d) with
  | none => s
  | some d =>
    let s := s.updRing n (fun r => { r with queue := r.queue.map (fun x => if x = d then { x with ended := true } else x) })
    (s.streamEnd d st).streamPass n

/-- Replaces a descriptor. -/
def State.streamUpd (s : State) (n : Nat) (d d' : StreamDesc) : State :=
  s.updRing n (fun r => { r with queue := r.queue.map (fun x => if x = d then d' else x) })

/-! ## HPB_DATA and HCP_DATA (R333 to R338) -/

/-- Does the Grove of a ring let it play or capture in a tick: none, or running since the trigger and joined (R275,
R276)? -/
def State.ringJoined (s : State) (n : Nat) (t : TS) : Bool := match s.memberOf (.ring n) with
  | none => true
  | some g =>
    let x := s.groveOf g
    x.state == .running && decide (0 ≤ tsDiff t x.trig) && !x.late.contains (.ring n)

/-- First target of a stream descriptor picked up in tick k; `lead` is 3 for playback, 2 for capture (R335, R338). -/
def streamFirst (r : Ring) (h : Hdr) (k : TS) (lead : Nat) : TS :=
  let e : TS := k + BitVec.ofNat 32 lead
  if h.timed then h.target
  else match r.prevEnd with
    | some t => if tsDiff t e < 0 then e else t
    | none => e

/-- Is it time to pick a stream descriptor up (R335, R338)? -/
def streamDue (r : Ring) (h : Hdr) (k : TS) (lead : Nat) : Bool :=
  decide (tsDiff (streamFirst r h k lead) (k + BitVec.ofNat 32 lead) ≤ 0)

/-- Picks a stream descriptor up in the tick in force: checks 1 to 4 and the overlap of R336; a rejected one waits only
for its consumer index. -/
def State.streamTake (s : State) (h : Hdr) (p : HostDataP) (opcode type lead : Nat) (write : Bool) : State :=
  let n := ringOf h
  let r := s.ring n
  let k := s.time.ts
  let t := streamFirst r h k lead
  let l : Int := if h.timed then tsDiff (k + BitVec.ofNat 32 lead) t else 0
  let cnt := s.rsCount n
  let bytes := p.n * cnt * packBytes (s.rsPack n)
  let mk (dead late : Bool) : StreamDesc :=
    { hdr := h, opcode := opcode, first := t, n := p.n, late := late, moved := 0,
      cut := if late then l.toNat else 0, disc := if late then l.toNat else 0, firstOk := none,
      frames := if late && write then List.replicate l.toNat (List.replicate cnt 0) else [],
      bufOk := false, readAt := k + 1, addr := p.addr, ended := dead, counted := false }
  let add (s : State) (d : StreamDesc) : State := (s.updRing n (fun r => { r with queue := r.queue ++ [d] })).streamPass n
  let no (st : Status) : State := add (s.rejectNext h opcode st) (mk true false)
  let yes (late : Bool) : State :=
    match r.prevEnd with
    | some e =>
      if h.timed && decide (tsDiff t e < 0) then no .conflict
      else add (s.updRing n (fun r => { r with prevEnd := some (t + BitVec.ofNat 32 p.n) })) (mk false late)
    | none => add (s.updRing n (fun r => { r with prevEnd := some (t + BitVec.ofNat 32 p.n) })) (mk false late)
  if !(headerOk s h [type] && decide (1 ≤ p.n) && decide (p.n ≤ 4096) && p.addr.toNat % 4 == 0) then no .invalid
  else if !s.dmaAllowed p.addr bytes write then no .denied
  else if l ≤ 0 then yes false
  else
    let runLate := if l < p.n then yes true else no .expired
    match h.late with
    | 0 => runLate
    | 1 => no .expired
    | _ => if l ≤ s.lateWin n then runLate else no .expired

/-- HPB_DATA as the mover picks it up in the tick in force. -/
def execHpbData (h : Hdr) (p : HostDataP) (s : State) : Host.Outcome State Fault Refusal :=
  .next (s.streamTake h p 0x0A10 2 3 false)

/-- HCP_DATA as the mover picks it up in the tick in force. -/
def execHcpData (h : Hdr) (p : HostDataP) (s : State) : Host.Outcome State Fault Refusal :=
  .next (s.streamTake h p 0x0A11 3 2 true)

/-- The buffer reads of a playback ring in the tick that closes (R335, R336). -/
def State.hpbRead (s : State) (n : Nat) (frames : List (List (List Word))) : State :=
  match (s.ring n).queue.find? (fun d => !d.ended && !d.bufOk && decide (0 ≤ tsDiff s.time.ts d.readAt)) with
  | none => s
  | some d =>
    let bytes := d.n * s.rsCount n * packBytes (s.rsPack n)
    if !s.dmaOn then s.streamFinish n (fun x => x == d) .lost
    else if !s.dmaAllowed d.addr bytes false then (s.winViol n d.addr).streamFinish n (fun x => x == d) .lost
    else match frames with
      | [] => s
      | f :: _ => (s.streamUpd n d { d with frames := f, bufOk := true }).streamPass n

/-- Which frame of a descriptor belongs to a tick. -/
def frameAt (d : StreamDesc) (t : TS) : Option Nat :=
  let i := tsDiff t d.first
  if 0 ≤ i ∧ i < d.n then some i.toNat else none

/-- The channels of a playback ring read a frame times the fill factor (R260). -/
def State.hpbPut (s : State) (n tag fill : Nat) (v : List Word) : State :=
  (List.range (s.rsCount n)).foldl (fun s i =>
    s.place (0x04 * 1024 + s.rsFirst n + i)
      ⟨roundAway ((unpackWord (s.rsPack n) (v.getD i 0) * (fill : Int) : Int) / (8 : Rat)), tag⟩) s

/-- The channels of a ring that has been disabled, or whose Grove does not run, fall to zero; the ticks are not counted
(R278, R318; DESIGN CHOICE, log entry 74). -/
def State.hpbFall (s : State) (n : Nat) : State :=
  let r := s.ring n
  if r.hold.isEmpty then s
  else
    let fill := r.fill - 1
    (s.updRing n (fun r => { r with
      fill := fill, placed := r.placed && decide (0 < fill), missing := false, hold := if fill = 0 then [] else r.hold })).hpbPut n 0 fill r.hold

/-- Playback in the tick that opens: the frame, or the fill of R260 (R335, R337). -/
def State.hpbTick (s : State) (n : Nat) : State :=
  let r := s.ring n
  let t := s.time.ts
  let joined := s.ringJoined n t
  let cur := r.queue.find? (fun d => !d.ended && (frameAt d t).isSome)
  let frame : Option (List Word) := match cur with
    | some d =>
      let i := (frameAt d t).getD 0
      if d.bufOk && decide (d.cut ≤ i) then d.frames[i]? else none
    | none => none
  -- the end of a descriptor comes in the tick of its last frame
  let ends (s : State) : State := match cur with
    | some d => if (frameAt d t).getD 0 + 1 = d.n then
        s.streamFinish n (fun x => x.hdr == d.hdr && x.first == d.first) (if !d.bufOk then .lost else if d.late then .late else .ok) else s
    | none => s
  match frame, cur with
  | some v, some d =>
    if joined then
      let d' := { d with moved := d.moved + 1, firstOk := some (d.firstOk.getD (t, s.time.bdt)) }
      let fill := if r.placed then min 8 (r.fill + 1) else 8
      let s := s.streamUpd n d d'
      let s := s.updRing n (fun r => { r with placed := true, missing := false, fill := fill, hold := v })
      ends ((s.hpbPut n 0 fill v).groveTick (.ring n) false)
    else
      -- a frame whose target precedes the trigger of its Grove is discarded and counted as late (R337)
      ends ((s.streamUpd n d { d with disc := d.disc + 1 }).hpbFall n)
  | _, _ =>
    let up := s.ringUp n
    if r.placed ∧ up ∧ joined then
      let fill := r.fill - 1
      let first := !r.missing
      let s := s.updRing n (fun r => { r with missing := true, fill := fill })
      let s := s.bump (Reg.HST_RING_MISS n)
      let s := if first then s.logLim Src.HST 0xA005 3 n 3 1 s.time.bdt (wN n) t 0 else s
      ends ((s.hpbPut n 2 fill r.hold).groveTick (.ring n) true)
    else ends (s.hpbFall n)

/-- Capture in the tick that closes (R338). -/
def State.hcpTick (s : State) (n : Nat) : State :=
  let r := s.ring n
  let t := s.time.ts
  if r.state ≠ .running then s
  else
    let lost (s : State) : State :=
      ((s.bump (Reg.HST_RING_MISS n)).logLim Src.HST 0xA009 3 n 1 1 s.time.dt (wN n) 0 0).groveTick (.ring n) true
    match r.queue.find? (fun d => !d.ended && (frameAt d t).isSome) with
    | none => if s.ringJoined n t then lost s else s
    | some d =>
      let i := (frameAt d t).getD 0
      if i < d.cut then s
      else if !s.dmaOn then lost (s.streamFinish n (fun x => x == d) .lost)
      else
        let cnt := s.rsCount n
        let bytes := cnt * packBytes (s.rsPack n)
        let a := d.addr + BitVec.ofNat 64 (i * bytes)
        if !s.dmaAllowed a bytes true then lost ((s.winViol n a).streamFinish n (fun x => x == d) .lost)
        else
          let joined := s.ringJoined n t
          let v := (List.range cnt).map (fun c => if joined then
              packWord (s.rsPack n) (s.sinkVal (BitVec.ofNat 16 (addrOf 0x25 (s.rsFirst n + c)))).val else 0)
          let d' : StreamDesc := { d with
            frames := d.frames ++ [v], moved := if joined then d.moved + 1 else d.moved, disc := if joined then d.disc else d.disc + 1,
            firstOk := if joined then some (d.firstOk.getD (t, s.time.bdt)) else d.firstOk }
          let s := s.streamUpd n d d'
          let s := if joined then s.groveTick (.ring n) false else s
          if i + 1 = d.n then s.streamFinish n (fun x => x == d') (if d.late then .late else .ok) else s

/-- The rings of a type. -/
def State.ringsOf (s : State) (ty : Nat) : List Nat := (s.host.rings.map (·.1)).filter (fun n => s.ringType n == ty)

/-! ## Bulk transfers (R339, R340) -/

def blkHostOk (s : State) (opcode : Nat) (p : BlkP) : Bool := match opcode with
  | 0x0701 => s.dmaAllowed p.host p.len false
  | 0x0702 => s.dmaAllowed p.host p.len true
  | _ => true

/-- Rejected transfers at the head of a BLK ring give up their slots (R322). -/
def blkPrune (l : List BlkXfer) : Nat × List BlkXfer := match l with
  | [] => (0, [])
  | b :: r => if b.dead then (let (n, t) := blkPrune r; (n + 1, t)) else (0, b :: r)

def State.blkPass (s : State) (n : Nat) : State :=
  let (k, l) := blkPrune (s.ring n).blk
  (s.updRing n (fun r => { r with blk := l })).ringAdv n k

/-- Picks a BLK descriptor up in the tick in force: the checks of R340. -/
def State.blkTake (s : State) (h : Hdr) (p : BlkP) (opcode : Nat) : State :=
  let n := ringOf h
  let add (s : State) (dead : Bool) : State :=
    (s.updRing n (fun r => { r with blk := r.blk ++ [BlkXfer.mk h opcode p (s.time.ts + 2) false 0 dead] })).blkPass n
  let no (st : Status) : State := add (s.rejectNext h opcode st) true
  if !(headerOk s h [7] && !h.timed && p.len % 64 == 0 && decide (64 ≤ p.len) && decide (p.len ≤ 2 ^ 30)) then no .invalid
  else if !s.regionOk p.dram.toNat p.len 64 then no .invalid
  else if !blkHostOk s opcode p || s.hitsReserved p.dram.toNat p.len || s.flt.fire then no .denied
  else add s false

def execBlkLoad (h : Hdr) (p : BlkP) (s : State) : Host.Outcome State Fault Refusal := .next (s.blkTake h p 0x0701)
def execBlkUnload (h : Hdr) (p : BlkP) (s : State) : Host.Outcome State Fault Refusal := .next (s.blkTake h p 0x0702)
def execBlkFill (h : Hdr) (p : BlkP) (s : State) : Host.Outcome State Fault Refusal := .next (s.blkTake h p 0x0703)

/-- Does a transfer write into clip data that a voice is playing (R240)? -/
def State.hitsClip (s : State) (base len : Nat) : Bool :=
  s.clip.voices.any (fun v => overlap base len (ceBase (fun i => v.2.words.getD i 0)) (ceBytes (fun i => v.2.words.getD i 0)))
    || s.clip.tails.any (fun v => overlap base len (ceBase (fun i => v.2.snd.words.getD i 0)) (ceBytes (fun i => v.2.snd.words.getD i 0)))

/-- The check at the start of a transfer (R240, R340). -/
def State.blkStartCheck (s : State) (b : BlkXfer) : Status :=
  if b.opcode = 0x0702 then .ok
  else if s.hitsWriter b.p.dram.toNat b.p.len (fun _ => false) then .conflict
  else if s.hitsClip b.p.dram.toNat b.p.len then .busy
  else .ok

/-- Ends the head transfer of a ring with its write-back (Table HR-8). -/
def State.blkEnd (s : State) (n : Nat) (b : BlkXfer) (st : Status) (moved corrected : Nat) : State :=
  let s := s.updRing n (fun r => { r with blk := match r.blk with
    | [] => []
    | x :: t => { x with dead := true } :: t })
  (s.complete b.hdr b.opcode st s.time.ts s.time.bdt (wN moved) b.startTs (wN corrected) false).blkPass n

/-- Starts the head transfer of a ring when it may start; one that is refused gives way to the next. -/
def State.blkGo (s : State) (n : Nat) : Nat → State
  | 0 => s
  | k + 1 => match (s.ring n).blk with
    | [] => s
    | b :: _ =>
      if b.running || decide (tsDiff s.time.ts b.startAt < 0) || !s.coreUp then s
      else match s.blkStartCheck b with
        | .ok => s.updRing n (fun r => { r with blk := match r.blk with
            | [] => []
            | x :: t => { x with running := true, startTs := s.time.ts } :: t })
        | st => (s.blkEnd n b st 0 0).blkGo n k

/-- BLK_TRANSFER_START at a boundary, on every BLK ring. -/
def State.blkStarts (s : State) : State := (s.ringsOf 7).foldl (fun s n => s.blkGo n ((s.ring n).blk.length + 1)) s

/-- The bytes that a transfer has written. -/
def State.blkWrite (s : State) (b : BlkXfer) (moved : Nat) (data : List Byte) : State := match b.opcode with
  | 0x0701 => { s with dram := memBytes s.dram b.p.dram.toNat (data.take moved) }
  | 0x0703 => { s with dram := (List.range (moved / 4)).foldl (fun m i => memWrite m (b.p.dram.toNat + 4 * i) b.p.word.toNat 4) s.dram }
  | _ => s

/-- A running transfer ends with LOST (R340). -/
def State.blkLost (s : State) (n moved : Nat) (data : List Byte) : State :=
  match (s.ring n).blk with
  | b :: _ =>
    if b.running then
      let s := (s.blkWrite b moved data).blkEnd n b .lost moved 0
      s.blkGo n ((s.ring n).blk.length + 1)
    else s
  | [] => s

/-- The head transfer of a ring has moved all its bytes (R340); without the link its data was in flight (R341). -/
def execBlkTransferEnd (n moved corrected : Nat) (data : List Byte) (s : State) : Host.Outcome State Fault Refusal :=
  match (s.ring n).blk with
  | b :: _ =>
    if b.running && b.opcode != 0x0703 && !s.dmaOn then .next (s.blkLost n moved data)
    else if b.running && moved == b.p.len then
      let s := (s.blkWrite b moved data).blkEnd n b .ok moved corrected
      .next (s.blkGo n ((s.ring n).blk.length + 1))
    else .next s
  | [] => .next s

/-! ## Doorbell and consumer pages -/

def State.dbBase (s : State) : Addr := s.rd64 Reg.HST_DB_BASE_LO Reg.HST_DB_BASE_HI
def State.cpBase (s : State) : Addr := s.rd64 Reg.HST_CP_BASE_LO Reg.HST_CP_BASE_HI

/-- A tick without a doorbell in time (R320). -/
def State.dbLate (s : State) : State :=
  let s := { s with host := { s.host with issued := false, dbOk := false } }
  ((s.bump Reg.HST_DB_LATECNT).hstErr Fl.HST_ERR.DB_LATE).logLim Src.HST 0xA001 3 0 0 1 s.time.dt 0 0 0

/-- DOORBELL_FETCH at the boundary (R319, R320, R341). -/
def State.dbFetch (s : State) : State :=
  let s := { s with host := { s.host with fresh := false, issued := false } }
  if !s.flag Fl.HST_CTRL.DB_EN then s
  else if !s.dmaOn then s.dbLate
  else if !s.dmaAllowed s.dbBase 256 false then (s.winViol 0xFF s.dbBase).dbLate
  else { s with host := { s.host with issued := true } }

/-- Takes up the entry of one ring (R315). -/
def State.dbEntry (s : State) (n v : Nat) : State :=
  let r := s.ring n
  if r.state = .running then
    let held := if hostWritten (s.ringType n) then (v + 65536 - r.didx) % 65536 else (r.didx + 65536 - v) % 65536
    let s := s.updRing n (fun r => { r with hidx := v })
    if s.ringSize n < held then s.ringErr n 1 else s
  else s

/-- The doorbell fetch returns in time (R320); in Shade a changed index of a host-written ring ends it (R387). -/
def execDoorbellReturn (page : List (Nat × Nat)) (s : State) : Host.Outcome State Fault Refusal :=
  if s.host.issued then
    let changed : Bool := page.any (fun e => decide (e.1 < 64) && hostWritten (s.ringType e.1) && (s.ring e.1).state == .running
      && (s.ring e.1).hidx != e.2 % 65536)
    let s := { s with host := { s.host with issued := false, fresh := true, dbOk := true } }
    let s := page.foldl (fun (s : State) e => if e.1 < 64 then s.dbEntry e.1 (e.2 % 65536) else s) s
    let shade : Bool := s.pwr.state == .shade
    .next (if changed && shade then s.wakeFire 10 0 s.time.dt else s)
  else .next s

/-- No doorbell has come 16 cc after the boundary (R320). -/
def execDoorbellLate (dt : DT) (s : State) : Host.Outcome State Fault Refusal :=
  let s := s.advance dt
  .next (if s.host.issued then s.dbLate else s)

/-- HST_RINGn_STAT.STATE. -/
def State.ringStateCode (s : State) (n : Nat) : Nat := match (s.ring n).state with
  | .off => 0 | .enabling => 1 | .running => if s.dmaOn then 2 else 4 | .error => 3

def State.ringStat (s : State) (n : Nat) : Word :=
  wN (statusCode (s.ring n).code * 2 ^ 24 + s.ringStateCode n * 2 ^ 16 + (s.ring n).didx)

def State.hstStatus (s : State) : Word :=
  wN (s.host.speed * 2 ^ 30 + s.host.width * 2 ^ 28 + wB s.host.bme * 2 ^ 27 + wB s.host.perst * 2 ^ 26 + wB s.host.dbOk * 2 ^ 25)

/-- The consumer page is written after every other write of the tick (R321). -/
def State.cpWrite (s : State) : State :=
  if !s.flag Fl.HST_CTRL.DB_EN || !s.dmaOn then s
  else if !s.dmaAllowed s.cpBase 512 true then (s.winViol 0xFF s.cpBase).hstErr Fl.HST_ERR.CP_FAIL
  else { s with host := { s.host with
    cpage := some ⟨(s.host.rings.map (fun r => (r.1, s.ringStateCode r.1, r.2.didx))), s.time.ts, s.time.bdt, s.time.epoch⟩ } }

/-! ## MSI-X (R311, R323) -/

/-- The vector control word of a vector; its mask bit is set at reset (PCIe). -/
def msixCtl (v : Nat) : Nat := 0x3E000 + 16 * v + 12
def State.msixMasked (s : State) (v : Nat) : Bool := bitN (smGet s.regs (msixCtl v) 1).toNat 0

/-- Raises a vector: at most one message a tick; a masked one, or one that the link cannot carry, pends. -/
def State.msixRaise (s : State) (v : Nat) : State :=
  if s.msixMasked v || !s.dmaOn then { s with host := { s.host with pba := s.host.pba ||| BitVec.ofNat 32 (2 ^ v) } }
  else if s.host.msix.contains v then s
  else { s with host := { s.host with msix := v :: s.host.msix } }

/-- A pending vector that is unmasked sends its message. -/
def State.msixFlush (s : State) : State :=
  (List.range 32).foldl (fun s v =>
    if s.host.pba.getLsbD v && !s.msixMasked v && s.dmaOn then
      ({ s with host := { s.host with pba := s.host.pba &&& ~~~(BitVec.ofNat 32 (2 ^ v)) } }).msixRaise v
    else s) s

/-- Ring vectors of a tick (R323). -/
def State.ringVec (s : State) (n : Nat) : State :=
  let r := s.ring n
  let vec := s.fld (Fl.HST_RING_CFG.VEC n)
  let low := s.fld (Fl.HST_RING_CFG.LOWWAT n)
  if r.state ≠ .running then s
  else if hostWritten (s.ringType n) then
    let was := (r.hidx + 65536 - r.left) % 65536
    let is := (r.hidx + 65536 - r.didx) % 65536
    let s := s.updRing n (fun r => { r with left := r.didx })
    if low ≠ 0 ∧ low < was ∧ is ≤ low then s.msixRaise vec else s
  else
    let due := match r.raised with
      | none => true
      | some t => decide ((low : Int) ≤ tsDiff s.time.ts t)
    let s := s.updRing n (fun r => { r with wrote := false })
    if r.wrote && due then (s.msixRaise vec).updRing n (fun r => { r with raised := some s.time.ts }) else s

/-- MSIX_RAISE in phase 9. -/
def State.msixTick (s : State) : State :=
  let s := { s with host := { s.host with msix := [] } }
  let s := if s.host.errNew then { s with host := { s.host with errNew := false } }.msixRaise 0 else s
  ((s.host.rings.map (·.1)).foldl State.ringVec s).msixFlush

/-! ## Disabling (R318) -/

/-- The waits of a ring end with ABORTED. -/
def State.abortWaits (s : State) (n : Nat) : State :=
  (s.host.waits.filter (fun w => w.hdr.ring == n)).foldl (fun s w => s.endWait w .aborted 0 0 0) s

/-- The effect at boundary D of a write of EN = 0; an EN written since starts the enabling. -/
def State.ringStop (s : State) (n : Nat) : State :=
  let r := s.ring n
  if r.stop then
    let s := s.abortWaits n
    let s := if s.ringType n = 3 then
        (s.ring n).queue.foldl (fun s d => if d.ended then s else s.streamFinish n (fun x => x == d) .aborted) s else s
    let s := s.updRing n (fun r => { r with
      stop := false, state := if s.ringEn n then .enabling else .off, armed := false, missing := false, longRun := false, prevEnd := none })
    s.drainBreak n
  else s

/-- Rings at a boundary: disabling takes effect; rings that wait for their check are due in this tick. -/
def State.ringsOpen (s : State) : State :=
  (s.host.rings.map (·.1)).foldl (fun s n =>
    (s.ringStop n).updRing n (fun r => { r with
      armed := r.armed || decide (r.state = .enabling), latewin := s.fld (Fl.HST_RING_LATEWIN.WIN n) })) s

/-! ## Failed DMA and the link -/

/-- A host DMA fails (R318, R320, R336, R338, R340). `ring` 64 is the consumer page. -/
def execHostDmaFail (n moved : Nat) (ringMemory : Bool) (data : List Byte) (s : State) : Host.Outcome State Fault Refusal :=
  if n = 64 then .next (s.hstErr Fl.HST_ERR.CP_FAIL)
  else if 64 < n then .next s
  else if ringMemory then .next (s.ringErr n 2)
  else match s.ringType n with
    | 2 => .next (s.streamFinish n (fun d => !d.bufOk) .lost)
    | 3 => .next (s.streamFinish n (fun d => (frameAt d s.time.ts).isSome) .lost)
    | 4 => match (s.ring n).ntx with
      | b :: r => .next ((s.updRing n (fun x => { x with ntx := r })).reject b.hdr 0x0910 .lost)
      | [] => .next s
    | 5 => match (s.ring n).nrx with
      | b :: r => .next ((((s.updRing n (fun x => { x with nrx := r })).ringAdv n 1).nrxPass n).reject b.hdr 0x0911 .lost)
      | [] => .next s
    | 7 => .next (s.blkLost n moved data)
    | _ => .next s

/-- Write-backs that waited for the link are written when it is back (R341). -/
def State.wbFlush (s : State) : State :=
  if s.dmaOn then { s with host := { s.host with wb := s.host.heldWb ++ s.host.wb, heldWb := [] } } else s

/-- Is the loss of the link part of a sleep entry (R341, R393)? -/
def State.linkHold (s : State) : Bool := match s.pwr.sleep with
  | some z => z.holding && decide (3 ≤ z.chosen)
  | none => false

/-- One of the three events of R341. -/
def State.linkLost (s : State) (why : Nat) (dt : DT) : State :=
  if s.pwr.state = .glade ∨ s.pwr.state = .clearing ∨ s.pwr.state = .moss ∨ s.pwr.state = .waking ∨ s.linkHold then s
  else ((s.hstErr Fl.HST_ERR.LINK).alertSet Fl.TWB_ALERT.LINK).logAt Src.HST 0xA002 4 dt (wN why) 0 0

def execPcieLinkDown (_l2 : Bool) (dt : DT) (s : State) : Host.Outcome State Fault Refusal :=
  let s := s.advance dt
  if s.host.speed = 0 then .next s
  else .next (({ s with host := { s.host with speed := 0, width := 0 } }).linkLost 0 dt)

def execPcieLinkUp (speed width : Nat) (dt : DT) (s : State) : Host.Outcome State Fault Refusal :=
  let s := s.advance dt
  if 1 ≤ speed ∧ speed ≤ 3 ∧ 1 ≤ width ∧ width ≤ 2 ∧ !s.host.perst then
    let s := { s with host := { s.host with speed := speed, width := width }, pwr := { s.pwr with wakeN := false } }
    .next (s.log Src.HST 0xA003 2 (wN speed) (wN width) 0)
  else .next s

def execBusMasterDisable (dt : DT) (s : State) : Host.Outcome State Fault Refusal :=
  let s := s.advance dt
  if s.host.bme then .next (({ s with host := { s.host with bme := false } }).linkLost 1 dt) else .next s

def execBusMasterEnable (s : State) : Host.Outcome State Fault Refusal :=
  .next (if s.host.perst then s else { s with host := { s.host with bme := true } })

/-- A header whose write-back is discarded (R342). -/
def hdrGone (h : Hdr) : Hdr := if h.ring < 64 then { h with ring := h.ring + 64 } else h
def pickGone (p : Picked) : Picked := { p with hdr := hdrGone p.hdr }

/-- MSI-X state at reset: every vector masked, addresses and data zero, nothing pending. -/
def msixReset (m : SMap Word) : SMap Word := m.filter (fun p => decide (p.1 < 0x3E000))

/-- The host-interface reset (R342). -/
def State.hostReset (s : State) : State :=
  let off (p : Nat × Ring) : Nat × Ring :=
    let r : Ring := { Ring.init with fill := p.2.fill, hold := p.2.hold }
    (p.1, r)
  let s := (s.host.rings.map (·.1)).foldl (fun s n => (s.setFld (Fl.HST_RING_CFG.EN n) 0).drainBreak n) s
  let s := s.setFld Fl.HST_CTRL.DB_EN 0
  { s with
    regs := msixReset s.regs,
    host := { s.host with
      rings := s.host.rings.map off, fresh := false, issued := false, heldWb := [], openWb := [], dueWb := [], waits := [], arr := [],
      picked := s.host.picked.map pickGone, commit := s.host.commit.map pickGone, pend := s.host.pend.map pickGone, limited := none,
      msix := [], pba := 0, errNew := false },
    flt := { s.flt with
      held := s.flt.held.map pickGone,
      load := s.flt.load.map (fun (l : FwLoad) => { l with hdr := hdrGone l.hdr }) },
    clk := { s.clk with rc := s.clk.rc.map (fun (r : RateChange) => { r with
      hdr := hdrGone r.hdr, aborted := r.aborted.map (fun (a : Hdr × Nat) => (hdrGone a.1, a.2)) }) },
    loop := smMap s.loop (fun (x : Recorder) => { x with run := x.run.map (fun (l : LoopRun) => { l with hdr := hdrGone l.hdr }) }),
    pwr := { s.pwr with sleep := s.pwr.sleep.map (fun (z : SleepSt) => { z with hdr := hdrGone z.hdr }) } }

/-- PERST_N asserts (R341, R342). -/
def execPerstAssert (dt : DT) (s : State) : Host.Outcome State Fault Refusal :=
  let s := s.advance dt
  if s.host.perst then .next s
  else
    let s := { s with host := { s.host with perst := true, speed := 0, width := 0, bme := false } }
    .next ((s.linkLost 2 dt).hostReset)

/-- PERST_N is released: a wake source in every sleep state (R398), and link training starts. -/
def execPerstRelease (dt : DT) (s : State) : Host.Outcome State Fault Refusal :=
  let s := s.advance dt
  if s.host.perst then .next (({ s with host := { s.host with perst := false } }).wakeFire 2 1 dt) else .next s

/-- A BAR access in Glade (R388). -/
def execBarAccessInGlade (dt : DT) (s : State) : Host.Outcome State Fault Refusal :=
  let s := s.advance dt
  .next (if s.pwr.state = .glade then s.wakeFire 2 0 dt else s)

/-- CLKREQ_N signals L1.2 exit in Glade (R398). -/
def execPcieL12Exit (dt : DT) (s : State) : Host.Outcome State Fault Refusal :=
  let s := s.advance dt
  .next (if s.pwr.state = .glade then s.wakeFire 2 2 dt else s)

/-- A write to HST_NUDGE (R324). -/
def State.nudge (s : State) (dt : DT) : State := match s.pwr.state with
  | .glade | .entering => s.wakeFire 2 0 dt
  | .awake | .shade => s.bump Reg.HST_NUDGE_CNT
  | _ => s

def execHstNudge (dt : DT) (s : State) : Host.Outcome State Fault Refusal := .next ((s.advance dt).nudge dt)

/-! ## NOP (R343) -/

/-- NOP reports its pickup tick k. -/
def nopEffect (k : TS) (s : State) : Done := ⟨s, .ok, k, 0, 0, false, false⟩

/-- NOP: an untimed one was picked up two ticks before it commits; the operand says when a timed one was. -/
def execNop (c : PickedHdr) (s : State) : Host.Outcome State Fault Refusal :=
  .next (s.runCmd c.h .nop 0x0A01 true true .ok (nopEffect (if c.h.timed then c.picked else s.time.ts - 2)))

end Sys2Proof.Machine
end

