-- ==== Sys2Proof/Machine/Budget.lean ====
section
/-! DEFINITION. Admission's ledger and its records, and an engine that overruns its tick (chapter 11). -/
namespace Sys2Proof.Machine

/-- Remembers the engines before phase 6 (R361). -/
def State.engineSave (s : State) : State :=
  { s with adm := { s.adm with save := some ⟨s.thk.tones, s.fx.ch, s.clip.voices, s.clip.tails⟩ } }

/-- Source classes that an engine writes: the buses and tones, the effect outputs, the voices and takes. -/
def engineClasses (e : Nat) : List Nat := match e with
  | 0 => [0x07, 0x0A] | 1 => [0x06] | 2 => [0x05, 0x09] | _ => []

/-- The sources of some classes repeat the value of the tick before, with tag 3 (R361, R482). -/
def repeatClasses (cs : List Nat) (read write : SMap Smp) : SMap Smp :=
  let mine (p : Nat × Smp) : Bool := cs.contains (p.1 / 1024)
  (read.filter mine).foldl (fun m p => smSet m p.1 ⟨p.2.val, 3⟩) (write.filter (fun p => !mine p))

/-- Puts an engine back to its state before phase 6 of the tick in force. -/
def State.engineBack (s : State) (e : Nat) : State := match s.adm.save with
  | none => s
  | some x => match e with
    | 0 => { s with thk := { s.thk with tones := x.tones } }
    | 1 => { s with fx := { s.fx with ch := x.fx } }
    | _ => { s with clip := { s.clip with voices := x.voices, tails := x.tails } }

/-- An engine (0 Thicket, 1 effect, 2 clip) has not finished phase 6 of the tick in force when its boundary comes (R361).
The whole of its work in the tick is abandoned. -/
def execBudgetOverrun (engine : Nat) (s : State) : Host.Outcome State Fault Refusal :=
  if s.time.running ∧ engine ≤ 2 then
    let s := { s with inter2 := repeatClasses (engineClasses engine) s.inter s.inter2 }.engineBack engine
    let s := s.bump Reg.PWR_BUD_OVRCNT
    .next (s.log Src.PWR 0x2103 5 (wN engine) s.time.ts (s.rd Reg.PWR_BUD_OVRCNT))
  else .next s

/-- Ledger register of a priced engine. -/
def budReg (e : Nat) : Nat := match e with
  | 0 => Reg.PWR_BUD_THK | 1 => Reg.PWR_BUD_FX | _ => Reg.PWR_BUD_CLP

/-- One engine's COST and PEAK, and BUD_NEAR (R362, R363). -/
def State.ledger1 (s : State) (e cost : Nat) : State :=
  let c := min cost 65535
  let peak := max c (bitsOf (s.rd (budReg e)) 16 16)
  let s := s.wr (budReg e) (wN (peak * 65536 + c))
  let b := budgetB s.clk.rate s.pwr.level
  let above : Bool := decide (s.fld Fl.PWR_BUD_CTRL.NEAR * b < 100 * cost)
  let put (s : State) (since : Option DT) : State :=
    { s with adm := { s.adm with near := (e, since) :: s.adm.near.filter (fun p => p.1 != e) } }
  match s.adm.near.find? (fun p => p.1 == e) with
  | none => if above then (put s none).log Src.PWR 0x2102 1 (wN e) (wN cost) (wN b) else s
  | some (_, since) =>
    if above then
      match since with
      | some d => if d.toNat + 10 * oneSecond ≤ s.time.dt.toNat then
            (put s none).log Src.PWR 0x2102 1 (wN e) (wN cost) (wN b) else put s none
      | none => s
    else put s (some (since.getD s.time.dt))

/-- The ledger after phase 8: the costs of the configuration of the next boundary. -/
def State.ledger (s : State) (costs : List Nat) : State :=
  let s := (List.range 3).foldl (fun s e => s.ledger1 e (costs.getD e 0)) s
  s.wr Reg.PWR_BUD_DRAM (wN (costs.getD 3 0))

/-- Clears the PEAK fields (R362). -/
def State.peakClear (s : State) : State :=
  (List.range 3).foldl (fun s e => s.wr (budReg e) (withBits (s.rd (budReg e)) 16 16 0)) s

/-- PWR_BUD_CAP and PWR_BUD_PEND (R360, R362). -/
def State.budCap (s : State) : Word :=
  wN (min (cyclesC s.clk.rate s.pwr.level) 65535 * 65536 + min (budgetB s.clk.rate s.pwr.level) 65535)
def State.budPend (s : State) : Word :=
  let lower : Bool := s.pwr.raiseAt.isSome || s.stagedLevel.isSome || s.clk.rc.isSome
  wN (2 ^ 31 * wB lower + min s.budgetUsed 65535)

end Sys2Proof.Machine
end

