-- ==== Sys2Proof/Machine/Jacks.lean ====
section
/-! DEFINITION. Input jacks (R101, R102) and headphone jacks: insertion, identification, measurement, presence,
removal and buttons (R118 to R126). -/
namespace Sys2Proof.Machine

/-- AIN_JACK_IN (R101, R102): the detect pin has stayed low since a DT for the debounce time; present; a wake source
when armed. -/
def execAinJackIn (j : Nat) (pin : PinHeld) (s : State) : Host.Outcome State Fault Refusal :=
  let since := pin.since
  let dt := pin.dt
  let s := s.advance dt
  if j < 2 ∧ s.ainJack j = false ∧ since.toNat + s.fld Fl.AIN_JACK_CFG.DEBOUNCE * 1000000 ≤ dt.toNat then
    let s := ((s.setAinJack j true).ainJackGo j).logAt Src.AIN 0x3005 1 dt (wN j) 0 0
    .next (s.wakeFire 8 j dt)
  else .next s

/-- AIN_JACK_OUT (R101, R102): the pin has stayed high for 1 ms; absent. -/
def execAinJackOut (j : Nat) (pin : PinHeld) (s : State) : Host.Outcome State Fault Refusal :=
  let since := pin.since
  let dt := pin.dt
  let s := s.advance dt
  if j < 2 ∧ s.ainJack j = true ∧ since.toNat + 1000000 ≤ dt.toNat then
    .next (((s.setAinJack j false).ainJackGo j).logAt Src.AIN 0x3006 1 dt (wN j) 0 0)
  else .next s

/-- A number of ms of DT later. -/
def afterMs (t : DT) (ms : Nat) : Nat := t.toNat + ms * 1000000

/-- HP_PLUG_DETECT (R119): HPn_DET goes low; the debounce starts, or starts anew. While a removal ramps out, the new edge
is kept until its end. -/
def execHpPlugDetect (j : Nat) (dt : DT) (s : State) : Host.Outcome State Fault Refusal :=
  let s := s.advance dt
  let x := s.hpJack j
  if j < 2 ∧ x.phase ≠ .present ∧ x.phase ≠ .served then
    .next (s.setHp j { x with phase := .debounce, t0 := dt })
  else .next (if j < 2 ∧ (x.remReq ∨ x.rem.isSome) then s.setHp j { x with again := some dt } else s)

/-- The poles code of an identification (R118, R119). -/
def polesOf (hsid : Bool) (ohms mvSlv mvRing2 : Nat) : Nat :=
  if !hsid then 1
  else if ohms < 20 then 1
  else if 600 ≤ mvSlv ∧ mvSlv ≤ 2400 then 2
  else if 600 ≤ mvRing2 ∧ mvRing2 ≤ 2400 then 3
  else 4

/-- Does identification hold AIN7 at zero (R121): jack 1, HS_LINK set, HSID set? -/
def State.linkHeld (s : State) (j : Nat) : Bool :=
  j == 1 && cfgLink (s.rd (Reg.AIN_CFG 7)) && bitN (s.fld Fl.AOUT_JACK_CFG.HSID) j

/-- Identification holds AIN7's fault factor at zero, and lets it go: it returns over 32 tk (R121). -/
def State.hold7 (s : State) : State :=
  ({ s with aout := { s.aout with hold7 := true } }).setAin 7 { s.ainCh 7 with fault := facZero }
def State.free7 (s : State) : State :=
  if s.aout.hold7 then
    let s := { s with aout := { s.aout with hold7 := false } }
    let c := s.ainCh 7
    -- a front-end sequence that runs brings its own return
    if c.seq.any (·.fe) then s else s.setAin 7 { c with fault := s.faultUp 7 c }
  else s

/-- HP_IDENTIFY at t0+30 ms (R119, R121): from here jack 1 holds AIN7 at zero while it is linked. -/
def execHpIdentify (j ohms mvSlv mvRing2 : Nat) (dt : DT) (s : State) : Host.Outcome State Fault Refusal :=
  let s := s.advance dt
  let x := s.hpJack j
  if j < 2 ∧ x.phase = .debounce ∧ afterMs x.t0 30 ≤ dt.toNat then
    let p := polesOf (bitN (s.fld Fl.AOUT_JACK_CFG.HSID) j) ohms mvSlv mvRing2
    let s := s.setHp j { x with phase := .identified, poles := p }
    .next (if s.linkHeld j then s.hold7 else if j = 1 then s.free7 else s)
  else .next s

/-- HP_MEASURE at t0+38 ms (R119, R120): both channels in 0.1 ohm units, saturated. -/
def execHpMeasure (j zl zr : Nat) (dt : DT) (s : State) : Host.Outcome State Fault Refusal :=
  let s := s.advance dt
  let x := s.hpJack j
  if j < 2 ∧ x.phase = .identified ∧ afterMs x.t0 38 ≤ dt.toNat then
    .next (s.setHp j { x with phase := .measured, zl := min zl 0xFFFF, zr := min zr 0xFFFF })
  else .next s

/-- The impedance class (Table AO-9), from the two values in 0.1 ohm: the larger, class 0 when either is below 4 ohm. -/
def hpClass (zl zr : Nat) : Nat :=
  let z := max zl zr
  if min zl zr < 40 then 0 else if z < 200 then 1 else if z < 600 then 2 else if z < 2000 then 3 else if z < 10000 then 4 else 5

/-- HP_PRESENT at t0+50 ms (R119, R120, R122): the jack is present, its state is written and logged, the ramp is due at
the first tick boundary at or after t0+50 ms. While the device sleeps the insertion waits for the wake. -/
def execHpPresent (j : Nat) (dt : DT) (s : State) : Host.Outcome State Fault Refusal :=
  let s := s.advance dt
  let x := s.hpJack j
  if 2 ≤ j ∨ dt.toNat < afterMs x.t0 50 then .next s
  else if (s.asleep ∨ s.pwr.state = .waking) ∧ (x.phase = .debounce ∨ x.phase = .identified ∨ x.phase = .measured) then
    .next ((s.setHp j { x with phase := .afterWake }).wakeFire 8 (2 + j) dt)
  else if x.phase = .measured then
    let cls := hpClass x.zl x.zr
    let lo := if cls = 1 ∧ bitN (s.fld Fl.AOUT_JACK_CFG.AUTO_RANGE) j then true else bitN (s.fld Fl.AOUT_JACK_CFG.RANGE) j
    let s := s.setHp j { x with phase := .present, lo := lo, short := cls == 0,
                                rampAt := some (BitVec.ofNat 64 (afterMs x.t0 50)) }
    let s := (((s.setFld (Fl.AOUT_JACK_STAT.LO j) (wB lo)).setFld (Fl.AOUT_JACK_STAT.CLASS j) cls).setFld
      (Fl.AOUT_JACK_STAT.POLES j) x.poles)
    let s := (s.setFld (Fl.AOUT_JACK_Z.Z_L j) x.zl).setFld (Fl.AOUT_JACK_Z.Z_R j) x.zr
    let s := s.logAt Src.AOUT 0x3101 1 dt (wN j) (wN (x.poles + 256 * cls)) (wN (x.zl * 65536 + x.zr))
    let s := if cls = 0 then s.logAt Src.AOUT 0x3104 4 dt (wN j) (wN x.zl) (wN x.zr) else s
    .next (s.wakeFire 8 (2 + j) dt)
  else .next s

/-- HP_INSERT_AFTER_WAKE (R122): identification and measurement run in the 18 ms that begin at a real boundary, so
that presence falls 18 ms after it. -/
def execHpInsertAfterWake (j : Nat) (dt : DT) (s : State) : Host.Outcome State Fault Refusal :=
  let s := s.advance dt
  let x := s.hpJack j
  if j < 2 ∧ x.phase = .afterWake ∧ ¬ s.coreDown then
    .next (s.setHp j { x with phase := .debounce, t0 := dt - BitVec.ofNat 64 32000000 })
  else .next s

/-- HP_REMOVE (R123): a removal ends an insertion under way; a present jack ramps out from the next boundary. -/
def execHpRemove (j : Nat) (dt : DT) (s : State) : Host.Outcome State Fault Refusal :=
  let s := s.advance dt
  let x := s.hpJack j
  if 2 ≤ j then .next s
  else match x.phase with
    | .present | .served => .next (s.setHp j (if x.remReq || x.rem.isSome then { x with again := none } else { x with remReq := true }))
    | .absent => .next s
    | _ =>
      let s := s.setHp j { HpJack.init with lo := x.lo }
      .next (if j = 1 then s.free7 else s)

/-- The button that a current selects (R125): 1 A, 2 B, 3 C, 0 none. -/
def buttonOf (s : State) (i : Nat) : Nat :=
  if s.fld Fl.AOUT_BTN_THR0.A_MIN ≤ i then 1 else if s.fld Fl.AOUT_BTN_THR0.B_MIN ≤ i then 2
  else if s.fld Fl.AOUT_BTN_THR1.C_MIN ≤ i then 3 else 0

/-- Does button detection run on a jack (R125)? -/
def State.btnRuns (s : State) (j : Nat) : Bool :=
  let x := s.hpJack j
  (x.phase == .present || x.phase == .served) && (x.poles == 2 || x.poles == 3) && bitN (s.fld Fl.AOUT_JACK_CFG.BTN) j

def State.setCur (s : State) (j v : Nat) : State :=
  let s := s.setHp j { s.hpJack j with held := v }
  if j = 0 then s.setFld Fl.AOUT_BTN.CUR0 v else s.setFld Fl.AOUT_BTN.CUR1 v

/-- A release: CUR clears and the record is logged (R125). -/
def State.btnRelease (s : State) (j : Nat) (dt : DT) : State :=
  let b := (s.hpJack j).held
  (s.setCur j 0).logAt Src.AOUT 0x3103 1 dt (wN j) (wN b) 0

/-- HP_BTN_PRESS (R125): a change without release is a release followed by a press. -/
def execHpBtnPress (j microamps : Nat) (dt : DT) (s : State) : Host.Outcome State Fault Refusal :=
  let s := s.advance dt
  let b := buttonOf s microamps
  if j < 2 ∧ s.btnRuns j ∧ b ≠ 0 ∧ (s.hpJack j).held ≠ b then
    let s := if (s.hpJack j).held ≠ 0 then s.btnRelease j dt else s
    let s := s.setCur j b
    let s := if j = 0 then s.orFld Fl.AOUT_BTN.PRESS0 (2 ^ (b - 1)) else s.orFld Fl.AOUT_BTN.PRESS1 (2 ^ (b - 1))
    .next (s.logAt Src.AOUT 0x3103 1 dt (wN j) (wN b) 1)
  else .next s

/-- HP_BTN_RELEASE (R125). -/
def execHpBtnRelease (j : Nat) (dt : DT) (s : State) : Host.Outcome State Fault Refusal :=
  let s := s.advance dt
  .next (if j < 2 ∧ s.btnRuns j ∧ (s.hpJack j).held ≠ 0 then s.btnRelease j dt else s)

/-- round (Fd × 0.020) ticks, exact at every rate (R119). -/
def insertTk (rate : Nat) : Nat := fdOf rate * 2

/-- Does jack j drive the jack factor (AOUT_JACK_CFG.ACT)? -/
def State.hpAct (s : State) (j : Nat) : Bool := bitN (s.fld Fl.AOUT_JACK_CFG.ACT) j

/-- Sets the jack factor of both channels of a jack on its way. -/
def State.jackGo (s : State) (j : Nat) (tgt : Rat) (n : Nat) : State :=
  [8 + 2 * j, 9 + 2 * j].foldl (fun s c => s.updAout c (fun x =>
    if x.jack.tgt = tgt then x else { x with jack := facGo x.jack tgt n })) s

/-- A jack's part of a tick boundary: the ramp of presence with the return of AIN7, the ramp and the end of a removal,
and a jack factor that follows ACT (R119 to R124). To zero the factor takes 8 tk also where ACT is set with no jack
(DESIGN CHOICE, log entry 144); a button held at the removal is cleared at its end without a record (DESIGN CHOICE, log
entry 145). -/
def State.jackTick (s : State) (j : Nat) : State :=
  let x := s.hpJack j
  let s := match x.phase, x.rampAt with
    | .present, some d =>
      if d.toNat ≤ s.time.bdt.toNat then
        let s := s.setHp j { x with phase := .served, rampAt := none }
        let s := if s.hpAct j && !x.short then s.jackGo j 1 (insertTk s.clk.rate) else s
        if j == 1 && (x.poles == 2 || x.poles == 3) then s.free7 else s
      else s
    | _, _ => s
  let x := s.hpJack j
  let s := if x.remReq then
      let s := s.setHp j { x with remReq := false, rem := some (s.time.ts + 8) }
      if s.hpAct j then s.jackGo j 0 8 else s
    else s
  let x := s.hpJack j
  let s := match x.rem with
    | some e =>
      if s.reached e 0 then
        let s := s.setHp j (match x.again with
          | some d => { HpJack.init with lo := x.lo, phase := .debounce, t0 := d }
          | none => { HpJack.init with lo := x.lo })
        let s := (s.setFld (Fl.AOUT_JACK_STAT.CLASS j) 0).setFld (Fl.AOUT_JACK_STAT.POLES j) 0
        (s.setCur j 0).log Src.AOUT 0x3102 1 (wN j) 0 0
      else s
    | none => s
  let x := s.hpJack j
  if x.short then s.jackGo j 0 8
  else if !s.hpAct j then s.jackGo j 1 32
  else if x.phase == .served && !x.rem.isSome then s.jackGo j 1 32
  else s.jackGo j 0 8

end Sys2Proof.Machine
end

