-- ==== Sys2Proof/Machine/Listen.lean ====
section
/-! DEFINITION. The listening detector and the pre-roll (chapter 14): activity runs, onsets, the phrase classifier,
reports, the pre-roll buffer and its coder, LISTEN_SET, LISTEN_WAIT, PREROLL_READ. -/
namespace Sys2Proof.Machine

/-! ## Start, stop and reset (R419 to R422) -/

/-- MODE of WAK_LSN_CTRL: true for phrase mode. -/
def State.lsnPhrase (s : State) : Bool := s.fld Fl.WAK_LSN_CTRL.MODE == 1
/-- Hop length in ns (R423). -/
def State.hopNs (s : State) : Nat := if s.lsnPhrase then 10000000 else 4000000

/-- Everything but the pre-roll buffer resets (R422); the next block does not follow the last. -/
def lsnClear (l : LsnSt) (dt : DT) : LsnSt :=
  { l with nf := none, bands := none, m := 0, onset := none, run := none, feats := [], counts := [], disc := true, gaps := [], win := [],
           mark := false, pred := 0, idx := 0, since := dt, stopW := none }

/-- LSN_RESET: 0 start, 1 mode change, 2 source change. -/
def State.lsnReset (s : State) (why : Nat) : State :=
  let src := s.fld Fl.WAK_LSN_CTRL.SRC
  let settles : Bool := decide (src < 10) && (s.ainCh src).noClip
  let l := { lsnClear s.lsn s.time.dt with gaps := if settles then [(s.time.dt, none)] else [] }
  let s := { s with lsn := if why = 2 then { l with blocks := [] } else l }
  s.log Src.WAK 0xC105 1 (wN why) (wN (s.fld Fl.WAK_LSN_CTRL.SRC)) 0

/-- The path starts (R419). -/
def State.lsnStart (s : State) : State :=
  { s.lsnReset 0 with lsn := { (s.lsnReset 0).lsn with mode := .running } }

/-- Takes up WAK_LSN_CTRL and WAK_LSN_MASK as they stand, from the control word before (R419, R422). -/
def State.lsnApply (s : State) (old : Word) : State :=
  let en := s.flag Fl.WAK_LSN_CTRL.EN
  let modeCh : Bool := bitsOf old 28 2 != s.fld Fl.WAK_LSN_CTRL.MODE
  let srcCh : Bool := bitsOf old 0 16 != s.fld Fl.WAK_LSN_CTRL.SRC
  let runs : Bool := s.flag Fl.WAK_LSN_CTRL.AWAKE || s.pwr.sleep.isSome || (s.lsn.stopW.isSome && s.lsn.mode == .running)
  if !en then { s with lsn := { s.lsn with mode := .off, run := none, stopW := none } }
  else
    let was := s.lsn.mode
    let stop := s.lsn.stopW
    let s := if srcCh then { s with lsn := { s.lsn with blocks := [] } } else s
    let s := if was != .off && srcCh then s.lsnReset 2 else if was != .off && modeCh then s.lsnReset 1
      else if runs && was != .running then s.lsnReset 0 else s
    let mode := if runs then LsnMode.running else LsnMode.frozen
    { s with lsn := { s.lsn with mode := mode, run := if runs then s.lsn.run else none, stopW := stop } }

/-! ## Reports (R430) -/

def State.lsnReport (s : State) (start : DT) (len cls : Nat) (trunc woke : Bool) : State :=
  let n := min len (2 ^ 24 - 1)
  let info := n + 2 ^ 24 * cls + 2 ^ 28 * wB trunc + 2 ^ 29 * wB woke
  let s := (s.wr64 Reg.WAK_LSN_LAST_DT_LO Reg.WAK_LSN_LAST_DT_HI start).wr Reg.WAK_LSN_LAST_INFO (wN info)
  let s := (s.bump Reg.WAK_LSN_DETCNT).pinPulse 4 0 (s.time.dt + BitVec.ofNat 64 1000000)
  let s := s.logAt Src.WAK 0xC101 1 start (wN (cls + 256 * wB s.lsnPhrase + 512 * wB trunc + 1024 * wB woke)) (wN n)
    (s.rd Reg.WAK_LSN_DETCNT)
  let r2 := wN (n + 2 ^ 24 * (cls + 16 * wB trunc + 32 * wB woke))
  s.host.waits.foldl (fun s w => match w.kind with
    | .listen mask => if bitN mask.toNat cls then s.arrive w .ok (start.extractLsb' 0 32) (start.extractLsb' 32 32) r2 0 else s
    | _ => s) s

/-- Is the class in WAKE_MASK (R431)? -/
def State.lsnWakes (s : State) (cls : Nat) : Bool := bitN (s.rd Reg.WAK_LSN_MASK).toNat cls

/-- Samples between two DTs. -/
def samplesIn (a b : DT) : Nat := (b.toNat - a.toNat) / sampleNs

/-- A run ends with its last sample at a DT; a confirmed class is reported (R429). -/
def State.lsnRunEnd (s : State) (e : DT) : State := match s.lsn.run with
  | none => s
  | some r =>
    let s := { s with lsn := { s.lsn with run := none } }
    match r.conf with
    | some (c, _) => if r.done then s else s.lsnReport r.start (samplesIn r.start e) c false r.woke
    | none => s

/-! ## The classifier (R425 to R427) -/

/-- Byte `i` of the active weight image, unsigned and signed. -/
def wImg (m : SMap Word) (i : Nat) : Nat := bitsOf (smGet m (i / 4) 0) (8 * (i % 4)) 8
def wImgS (m : SMap Word) (i : Nat) : Int := signedOf 8 (wImg m i)
def wBias (m : SMap Word) (i : Nat) : Int := (smGet m (i / 4) 0).toInt

/-- The output of one accumulator: clamp ((acc × M + 2^(S−1)) >> S, lo, 127). -/
def requant (mul sh : Nat) (lo acc : Int) : Int :=
  let x := acc * (mul : Int) + (if sh = 0 then 0 else 2 ^ (sh - 1))
  clampI lo 127 (x / 2 ^ sh)

/-- M and S of layer i. -/
def layerM (m : SMap Word) (i : Nat) : Nat := wImg m (0x18 + 4 * i) + 256 * wImg m (0x19 + 4 * i)
def layerS (m : SMap Word) (i : Nat) : Nat := wImg m (0x1A + 4 * i)

/-- The sum of products of a row of weights with inputs. -/
def dotAt (m : SMap Word) (off : Nat) (x : List Int) (acc : Int) : Int := match x with
  | [] => acc
  | v :: r => dotAt m (off + 1) r (acc + wImgS m off * v)

/-- A convolution of stride 2: position t takes input frames 2t to 2t + kernel − 1. -/
def convLayer (m : SMap Word) (layer wOff bOff outs kernel nIn positions : Nat) (inp : List (List Int)) : List (List Int) :=
  (List.range positions).map (fun t =>
    let x := ((inp.drop (2 * t)).take kernel).flatten
    (List.range outs).map (fun o =>
      requant (layerM m layer) (layerS m layer) 0 (dotAt m (wOff + o * kernel * nIn) x (wBias m (bOff + 4 * o)))))

def denseLayer (m : SMap Word) (layer wOff bOff outs : Nat) (lo : Int) (x : List Int) : List Int :=
  (List.range outs).map (fun o =>
    requant (layerM m layer) (layerS m layer) lo (dotAt m (wOff + o * x.length) x (wBias m (bOff + 4 * o))))

/-- The 16 logits of 96 frames of 32 features, oldest first (Table WK-3, Table WK-4). -/
def logits (m : SMap Word) (frames : List (List Int)) : List Int :=
  let a := convLayer m 0 0x0400 0x0040 64 5 32 46 frames
  let b := convLayer m 1 0x2C00 0x0140 64 5 64 21 a
  let c := convLayer m 2 0x7C00 0x0240 64 3 64 10 b
  let d := denseLayer m 3 0xAC00 0x0340 32 0 c.flatten
  denseLayer m 4 0xFC00 0x03C0 16 (-128) d

/-- The feature of a band level (R425). -/
def feature (l : Rat) : Int := clampI (-128) 127 (roundAway (2 * l) + 127)

/-- The newest 96 frames, oldest first; frames from before the start read −128. -/
def frames96 (f : List (List Int)) : List (List Int) :=
  List.replicate (96 - f.length) (List.replicate 32 (-128)) ++ (f.take 96).reverse

/-- The class of 1 to 15 with the largest logit, ties to the lowest. -/
def bestClass (l : List Int) : Nat :=
  (List.range 15).foldl (fun b i => if l.getD b 0 < l.getD (i + 1) 0 then i + 1 else b) 1

/-- Consecutive evaluations at or above the thresholds T_1 to T_15, by class (R429). -/
def countUp (m : SMap Word) (old : List Nat) (l : List Int) : List Nat :=
  (List.range 16).map (fun c => if c ≠ 0 ∧ wImgS m (8 + c) ≤ l.getD c 0 then old.getD c 0 + 1 else 0)

/-! ## Levels and bands (R423 to R425) -/

/-- What a hop gives: the level Lf and the 32 band levels L_b, in dB. -/
structure HopVal where
  dt    : DT
  done  : DT
  level : Rat
  bands : List Rat

/-- Are the samples of a DT zero (R418)? -/
def zeroAt (g : List (DT × Option DT)) (d : Nat) : Bool := g.any (fun p => decide (p.1.toNat ≤ d) && (match p.2 with
  | none => true
  | some e => decide (d < e.toNat)))

/-- Samples that end at a DT, with the zeros of R418. -/
def gapped (g : List (DT × Option DT)) (e : DT) (l : List Word) : List Word :=
  l.mapIdx (fun i w => if zeroAt g (e.toNat - (l.length - i) * sampleNs) then 0 else w)

/-- A level in dB above full scale of a mean power (R423, R425). -/
def powerDb (p : Rat) : Rat := nearFree (10 * log10 (p + 1 / 10 ^ 12))

/-- Lf: the mean square of the hop. -/
def hopLevel (l : List Word) : Rat :=
  powerDb (l.foldl (fun a w => a + ((w.toInt * w.toInt : Int) : Rat)) 0 / ((2 ^ 62 * l.length : Nat) : Rat))

/-- The Hann window of so many samples. -/
def hann (n i : Nat) : Rat := (1 - sinTurn ((i : Rat) / ((if Config.hannSymmetric then n - 1 else n : Nat) : Rat) + 1 / 4)) / 2

/-- The power of the transform of a sequence at a frequency in turns per sample. -/
def dftPower (x : List Rat) (p : Rat) : Rat :=
  let a := x.foldl (fun (a : Nat × Rat × Rat) v =>
    (a.1 + 1, a.2.1 + v * sinTurn (p * (a.1 : Rat) + 1 / 4), a.2.2 + v * sinTurn (p * (a.1 : Rat)))) (0, 0, 0)
  a.2.1 * a.2.1 + a.2.2 * a.2.2

/-- Point i of the 34 band edges in Hz: equally spaced on the mel scale from 60 Hz to 7,600 Hz (R425). -/
def melOf (f : Rat) : Rat := 2595 * log10 (1 + f / 700)
def bandEdge (i : Nat) : Rat := 700 * (exp10 ((melOf 60 + (melOf 7600 - melOf 60) * (i : Rat) / 33) / 2595) - 1)

/-- A triangle's weight at a frequency. -/
def triWeight (lo mid hi f : Rat) : Rat :=
  if f ≤ lo ∨ hi ≤ f then 0 else if f ≤ mid then (f - lo) / (mid - lo) else (hi - f) / (hi - mid)

/-- The bins of band b in a transform of n points with their weights; a band without a bin takes the nearest (R424). -/
def bandBins (n b : Nat) : List (Nat × Rat) :=
  let hz (k : Nat) : Rat := ((16000 * k : Nat) : Rat) / (n : Rat)
  let mid := bandEdge (b + 1)
  let l := ((List.range (n / 2 + 1)).map (fun k => (k, triWeight (bandEdge b) mid (bandEdge (b + 2)) (hz k)))).filter (fun p => decide (0 < p.2))
  if l.isEmpty then [((mid * (n : Rat) / 16000 + 1 / 2).floor.toNat, 1)] else l

/-- L_b of windowed samples in a transform of n points; a full-scale sine at the band's centre gives P_b = 1 (R425). -/
def bandLevel (n b : Nat) (x : List Word) : Rat :=
  let w := (List.range x.length).map (hann x.length)
  let v := List.zipWith (fun (h : Rat) (s : Word) => h * ((s.toInt : Int) : Rat) / 2 ^ 31) w x
  let bins := bandBins n b
  let own := bins.foldl (fun a k => a + k.2 * dftPower v ((k.1 : Rat) / (n : Rat))) 0
  let full := bins.foldl (fun a k =>
    a + k.2 * dftPower (w.map (fun h => h / 2)) ((k.1 : Rat) / (n : Rat) - bandEdge (b + 1) / 16000)) 0
  powerDb (own / full)

/-- What a hop gives in the mode in force: the transform spans the newest 256 or 400 samples, zero before the start. -/
def State.hopVal (s : State) (x : HopIn) : HopVal :=
  let l := gapped s.lsn.gaps x.dt x.samples
  let (n, span) := if s.lsnPhrase then (512, 400) else (256, 256)
  let all := (l.reverse ++ s.lsn.win).take span
  let v := (all ++ List.replicate (span - all.length) 0).reverse
  ⟨x.dt, x.done, hopLevel l, (List.range 32).map (fun b => bandLevel n b v)⟩

/-! ## One hop -/

/-- The noise floor after a frame (R423), in dB: it rises by 5 dB per second of hops. -/
def noiseFloor (nf : Option Rat) (l : Rat) (hop : Nat) : Rat := match nf with
  | none => l
  | some n => if l < n then l else n + (5 * hop : Nat) / (1000000000 : Rat)

/-- F(t) (R424). -/
def fluxOf (old : Option (List Rat)) (new : List Rat) : Rat := match old with
  | none => 0
  | some o => (List.zipWith (fun (a b : Rat) => if a < b then b - a else 0) o new).foldl (· + ·) 0

/-- The activity run after a frame (R423); a run that ends is reported. -/
def State.lsnGate (s : State) (active : Bool) (x : DT) (hop : Nat) : State :=
  match s.lsn.run with
  | none => if active then { s with lsn := { s.lsn with run := some ⟨x - BitVec.ofNat 64 hop, x, 0, none, false, false⟩ } } else s
  | some r =>
    if active then { s with lsn := { s.lsn with run := some { r with last := x, quiet := 0 } } }
    else if s.fld Fl.WAK_LSN_VAD.HANG ≤ r.quiet + 1 then s.lsnRunEnd r.last
    else { s with lsn := { s.lsn with run := some { r with quiet := r.quiet + 1 } } }

def adaptOf (code : Nat) : Rat := match code with
  | 0 => 0 | 1 => 1 | 2 => 2 | _ => 4

/-- Onset mode (R424): LSN_ONSET. -/
def State.lsnOnset (s : State) (x : HopVal) : State :=
  let f := fluxOf s.lsn.bands x.bands
  let m := s.lsn.m
  let start := x.dt - BitVec.ofNat 64 s.hopNs
  let thr : Rat := (s.fld Fl.WAK_LSN_ONSET.THR : Nat) / (2 : Rat) + adaptOf (s.fld Fl.WAK_LSN_ONSET.ADAPT) * m
  let held : Bool := match s.lsn.onset with
    | none => true
    | some o => decide (o.toNat + s.fld Fl.WAK_LSN_ONSET.HOLD * 1000000 ≤ start.toNat)
  let s := { s with lsn := { s.lsn with bands := some x.bands, m := m + (f - m) / 128 } }
  if thr ≤ f ∧ -((s.fld Fl.WAK_LSN_ONSET.FLOOR : Nat) : Rat) ≤ x.level ∧ held then
    let s := { s with lsn := { s.lsn with onset := some start, mark := true } }
    let woke := s.lsnWakes 0
    let s := if woke then s.wakeFire 7 0 x.done else s
    s.lsnReport start 0 0 false woke
  else s

/-- Phrase mode (R425, R426, R429): LSN_CONFIRM, and the report 2 s after it. -/
def State.lsnPhraseHop (s : State) (x : HopVal) : State :=
  let feats := (x.bands.map feature) :: s.lsn.feats.take 95
  let l := logits s.lsn.act (frames96 feats)
  let counts := countUp s.lsn.act s.lsn.counts l
  let s := { s with lsn := { s.lsn with feats := feats, counts := counts } }
  let c := bestClass l
  match s.lsn.run with
  | none => s
  | some r => match r.conf with
    | none =>
      if s.lsn.valid ∧ wImg s.lsn.act 6 ≤ counts.getD c 0 then
        let s := { s with lsn := { s.lsn with run := some { r with conf := some (c, x.dt), woke := s.lsnWakes c }, mark := true } }
        if s.lsnWakes c then s.wakeFire 7 0 x.done else s
      else s
    | some (k, d) =>
      if !r.done ∧ d.toNat + 2 * oneSecond ≤ x.dt.toNat then
        let s := { s with lsn := { s.lsn with run := some { r with done := true } } }
        s.lsnReport r.start (samplesIn r.start x.dt) k true r.woke
      else s

/-- LSN_HOP: a hop ends, and its samples have become available (R416, R423). -/
def execLsnHop (x : HopIn) (s : State) : Host.Outcome State Fault Refusal :=
  let s := s.advance x.done
  let hop := s.hopNs
  if s.lsn.mode = .running ∧ x.dt.toNat % hop = 0 ∧ x.samples.length * sampleNs = hop ∧ s.lsn.since.toNat + hop ≤ x.dt.toNat
      ∧ x.dt.toNat + 11 * sampleNs ≤ x.done.toNat then
    let v := s.hopVal x
    let s := { s with lsn := { s.lsn with win := ((gapped s.lsn.gaps x.dt x.samples).reverse ++ s.lsn.win).take 400 } }
    let x := v
    let nf := noiseFloor s.lsn.nf x.level hop
    let s := { s with lsn := { s.lsn with nf := some nf } }
    let s := s.wr Reg.WAK_LSN_NOISE (wN ((wI (roundAway (nf * 100))).toNat % 2 ^ 16))
    let s := s.lsnGate (decide (nf + (s.fld Fl.WAK_LSN_VAD.MARGIN : Nat) / (2 : Rat) ≤ x.level)) x.dt hop
    .next (if s.lsnPhrase then s.lsnPhraseHop x else s.lsnOnset x)
  else .next s

/-! ## The pre-roll buffer (R433, R434) -/

/-- The time epoch in force at a DT, from the history. -/
def State.epochAt (s : State) (d : DT) : BitVec 8 :=
  match s.time.hist.find? (fun h => decide (h.dt.toNat ≤ d.toNat)) with
  | some h => h.epoch
  | none => match s.time.hist.getLast? with
    | some h => h.epoch - 1
    | none => s.time.epoch

/-- PREROLL_BLOCK: a block boundary closes a block; blocks begin at boundaries. -/
def execPrerollBlock (samples : List Word) (dt : DT) (s : State) : Host.Outcome State Fault Refusal :=
  let s := s.advance dt
  let l := s.lsn
  if l.mode = .running ∧ samples.length = 256 ∧ dt.toNat % blockNs = 0 ∧ l.since.toNat + blockNs ≤ dt.toNat then
    let (codes, pred, idx) := imaRun l.pred l.idx ((gapped l.gaps dt samples).map (fun x => roundTo 16 x.toInt))
    let first := dt - BitVec.ofNat 64 blockNs
    let det := (match l.run with
      | none => 0
      | some r => if r.conf.isSome then 2 else 1) + 4 * wB l.mark
    let zeros : Bool := (List.range 256).any (fun i => zeroAt l.gaps (first.toNat + i * sampleNs))
    let b : PrBlock := {
      dt := first, epoch := s.epochAt first, det := det, pred := l.pred, idx := l.idx, disc := l.disc, gap := zeros,
      seq := l.seq, codes := codes }
    let all := l.blocks ++ [b]
    .next { s with lsn := { l with
      blocks := all.drop (all.length - 512), seq := (l.seq + 1) % 65536, disc := false, mark := false,
      gaps := l.gaps.filter (fun p => match p.2 with
        | none => true
        | some e => decide (first.toNat ≤ e.toNat)), pred := pred,
      idx := idx } }
  else .next s

/-! ## Stop, suspend, resume -/

/-- The path begins to run for a sleep that has been chosen (R419). -/
def State.lsnSleep (s : State) : State :=
  if s.flag Fl.WAK_LSN_CTRL.EN then
    if s.lsn.mode = .frozen then s.lsnStart else { s with lsn := { s.lsn with stopW := none } }
  else s

/-- Awake again at W or B: with AWAKE clear the stop point counts from there (R420). -/
def State.lsnAwake (s : State) (dt : DT) : State :=
  if s.lsn.mode = .running ∧ !s.flag Fl.WAK_LSN_CTRL.AWAKE then { s with lsn := { s.lsn with stopW := some dt } } else s

/-- LSN_STOP (R420). -/
def execLsnStop (dt : DT) (s : State) : Host.Outcome State Fault Refusal :=
  let s := s.advance dt
  match s.lsn.stopW with
  | some w =>
    let ended : Bool := decide (w.toNat + 10 * oneSecond ≤ dt.toNat)
    if s.lsn.mode = .running ∧ dt.toNat % blockNs = 0 ∧ w.toNat + oneSecond ≤ dt.toNat ∧ (s.lsn.run.isNone ∨ ended) then
      let s := match s.lsn.run with
        | some r => s.lsnRunEnd r.last
        | none => s
      .next { s with lsn := { s.lsn with mode := .frozen, stopW := none } }
    else .next s
  | none => .next s

/-- LSN_SUSPEND (R421): the run in progress ends at the last sample before it. -/
def State.lsnSuspend (s : State) (code : Nat) (dt : DT) : State :=
  if s.lsn.mode = .running then
    let s := s.lsnRunEnd dt
    let s := { s with lsn := { s.lsn with mode := .suspended, bands := none, m := 0, feats := [], counts := [], win := [] } }
    s.logAt Src.WAK 0xC102 2 dt (wN code) (wN ((s.lsn.seq + 65535) % 65536)) 0
  else s

/-- LSN_RESUME at the first real boundary after wake (R421). -/
def State.lsnResume (s : State) (code : Nat) (dt : DT) : State :=
  if s.lsn.mode = .suspended then
    let s := { s with lsn := { s.lsn with mode := .running, disc := true, mark := false, since := dt } }
    s.logAt Src.WAK 0xC103 2 dt (wN code) (wN s.lsn.seq) 0
  else s

/-! ## Registers and the weight region -/

def State.lsnStatus (s : State) : Word :=
  let st := match s.lsn.mode with
    | .off => 0 | .running => 1 | .suspended => 2 | .frozen => 3
  let lock : Bool := s.staging.any (fun p => match p.cmd with
    | .listenSet q => q.op == 1
    | _ => false)
  wN (st * 2 ^ 29 + wB s.lsn.run.isSome * 2 ^ 28 + wB s.lsn.valid * 2 ^ 27 + wB lock * 2 ^ 26 + s.lsn.blocks.length)

def State.lsnSeq (s : State) : Word := match s.lsn.blocks.head?, s.lsn.blocks.getLast? with
  | some a, some b => wN (a.seq * 65536 + b.seq)
  | _, _ => 0

/-- A write of one word to the weight region (R428). -/
def State.apLsn (s : State) (off : Nat) (w : Word) : State :=
  if bitN s.lsnStatus.toNat 26 then s.apBad off true
  else { s with lsn := { s.lsn with shd := smSet s.lsn.shd ((off - 0x1C0000) / 4) w } }
def State.apLsnRead (s : State) (off : Nat) : Word :=
  smGet (if s.flag Fl.WAK_LSN_AP.READ_ACTIVE then s.lsn.act else s.lsn.shd) ((off - 0x1C0000) / 4) 0

/-! ## LISTEN_SET (R428, R435) -/

/-- The header of a weight image (Table WK-4): magic, version, CONFIRM, M and S of each layer, reserved bytes. -/
def weightsOk (m : SMap Word) : Bool :=
  smGet m 0 0 == 0x314E534C && wImg m 4 + 256 * wImg m 5 == 1 && decide (1 ≤ wImg m 6) && decide (wImg m 6 ≤ 8)
    && wImg m 7 == 0 && wImg m 8 == 0
    && (List.range 5).all (fun i => decide (1 ≤ layerM m i) && decide (layerM m i ≤ 32767) && decide (layerS m i ≤ 31)
        && wImg m (0x1B + 4 * i) == 0)
    && (List.range 20).all (fun i => wImg m (0x2C + i) == 0)

/-- Is a source one of those of R415? -/
def lsnSource (a : ChAddr) : Bool := decide (a.toNat < 10) || (decide (1024 ≤ a.toNat) && decide (a.toNat < 1032))
def State.lsnSrcOn (s : State) (a : ChAddr) : Bool :=
  if a.toNat < 10 then cfgEn (s.rd (Reg.AIN_CFG a.toNat)) else cfgEn (s.rd (Reg.AIN_PDMCH (a.toNat - 1024)))

def listenSetValid (p : ListenSetP) : Bool :=
  decide (p.op ≤ 1) && (p.op == 1 || (decide (p.mode ≤ 1) && lsnSource p.source))
def listenSetRefusal (s : State) (p : ListenSetP) : Status :=
  if p.op = 1 then (if weightsOk s.lsn.shd then .ok else .invalid)
  else if !s.lsnSrcOn p.source || (p.mode == 1 && !s.lsn.valid) then .denied else .ok

def listenSetEffect (p : ListenSetP) (s : State) : Done :=
  if p.op = 1 then
    let img := s.lsn.shd
    let s := { s with lsn := { s.lsn with act := img, valid := true, counts := [] } }
    let crc := crc32c ((List.range 16384).map (fun i => smGet img i 0))
    { okDone (s.logAt Src.WAK 0xC104 1 s.time.bdt crc 1 0) with force := true }
  else
    let old := s.rd Reg.WAK_LSN_CTRL
    let s := s.wr Reg.WAK_LSN_CTRL (wN (p.source.toNat + 2 ^ 28 * p.mode + 2 ^ 30 * wB p.awake + 2 ^ 31 * wB p.en))
    okDone ((s.wr Reg.WAK_LSN_MASK (wN p.wmask.toNat)).lsnApply old)

def execListenSet (h : Hdr) (p : ListenSetP) (s : State) : Host.Outcome State Fault Refusal :=
  .next (if p.op = 1 then s.runLocking h (.listenSet p) 0x0C01 (listenSetValid p) (listenSetRefusal s p) (listenSetEffect p)
    else s.runCmd h (.listenSet p) 0x0C01 (listenSetValid p) true (listenSetRefusal s p) (listenSetEffect p))

/-! ## LISTEN_WAIT (R436) and PREROLL_READ (R437) -/

def listenWaitValid (p : ListenWaitP) : Bool := p.mask != 0
def listenWaitEffect (h : Hdr) (p : ListenWaitP) (s : State) : Done := laterDone (s.armWait h 0x0C02 (.listen p.mask) p.timeout)
def execListenWait (h : Hdr) (p : ListenWaitP) (s : State) : Host.Outcome State Fault Refusal :=
  .next (s.runCmd h (.listenWait p) 0x0C02 (listenWaitValid p) true .ok (listenWaitEffect h p))

def prerollReadValid (p : PrerollReadP) : Bool := decide (1 ≤ p.n) && decide (p.n ≤ 512)

/-- The blocks that a read takes: from the one whose span contains the DT, or the first after it. -/
def prerollTake (l : List PrBlock) (p : PrerollReadP) : List PrBlock :=
  ((if p.from_ = 0 then l else l.filter (fun b => decide (p.from_.toNat < b.dt.toNat + blockNs))).take p.n)

def prerollReadEffect (p : PrerollReadP) (s : State) : Done :=
  let l := prerollTake s.lsn.blocks p
  let s := { s with lsn := { s.lsn with copied := some (p.addr, l) } }
  match l.head? with
  | none => okDone s
  | some b => ⟨s, .ok, wN (l.length + 65536 * b.seq), b.dt.extractLsb' 0 32, b.dt.extractLsb' 32 32, false, false⟩

def execPrerollRead (h : Hdr) (p : PrerollReadP) (s : State) : Host.Outcome State Fault Refusal :=
  .next (s.runCmd h (.prerollRead p) 0x0C03 (prerollReadValid p) (s.dmaAllowed p.addr (144 * p.n) true) .ok (prerollReadEffect p))

end Sys2Proof.Machine
end

