-- ==== Sys2Proof/Machine/Reads.lean ====
section
/-! DEFINITION. What the registers report (R510): the live state behind the read-only registers, and what a read of a
register returns. -/
namespace Sys2Proof.Machine

def State.locked (s : State) : Bool := s.flag Fl.TOP_LOCK.LOCK
def State.runSet (s : State) : Bool := s.flag Fl.CLK_CTRL.RUN
def State.signedOnly (s : State) : Bool := bitN s.hwd.fuses.policy.toNat 0

/-! ## Cores -/

abbrev CoreSt.init : CoreSt := ⟨.off, 0, 0, false, 0, []⟩

def State.core (s : State) (c : Nat) : CoreSt := if c = 0 then s.flt.coreA else s.flt.coreB
def State.setCore (s : State) (c : Nat) (x : CoreSt) : State :=
  { s with flt := if c = 0 then { s.flt with coreA := x } else { s.flt with coreB := x } }

def State.activeCore (s : State) : Nat := wB s.flt.activeB
def State.fwOf (s : State) (slot : Nat) : FwSlot := smGet s.flt.fw slot ⟨0, 0⟩

/-- Is some core active, or about to be, with no healthy standby beside it (FLT_STATUS.NO_STANDBY)? -/
def State.noStandby (s : State) : Bool :=
  s.flt.coreA.run != .off && s.flt.coreA.run != .standby && s.flt.coreB.run != .standby

/-- Does a core run? -/
def coreRuns (x : CoreSt) : Bool := x.run == .active || x.run == .standby || x.run == .resuming
def State.anyCore (s : State) : Bool := coreRuns s.flt.coreA || coreRuns s.flt.coreB

/-- FAULT_N is asserted while any bit of FLT_FAULT is set (R476). -/
def State.faultN (s : State) : Bool := s.rd Reg.FLT_FAULT != 0

/-- The conditions of the FLT_FAULT bits that still hold (R476): no core runs, Ranger is lost, the wake has failed, a core
whose code is bad has not been reloaded. -/
def State.fltHolds (s : State) : Word :=
  wN (wB (!s.anyCore) + 2 * wB s.flt.lost + 4 * wB s.pwr.failed + 8 * wB (!s.anyCore))

def State.fltStatus (s : State) : Word :=
  wN (wB s.flt.prob.isSome * 128 + wB s.flt.dump.isSome * 64 + wB s.flt.fire * 32 + wB s.flt.alive * 16 + wB s.noStandby * 8
    + wB s.flt.coppice.isSome * 4 + wB s.flt.activeB * 2)

/-! ## Power -/


def State.pwrStatus (s : State) : Word :=
  let turn := match s.pwr.sleep with
    | some z => if s.pwr.state = .entering ∧ z.turn ≤ 6 then z.turn else 0
    | none => 0
  wN (pstateCode s.pwr.state * 2 ^ 29 + turn * 2 ^ 24 + wB s.pwr.settle * 2 ^ 17 + wB s.pwr.raiseAt.isSome * 2 ^ 16
    + (if s.pwr.settle || s.pwr.raiseAt.isSome then s.pwr.target * 256 else 0) + s.pwr.level)

/-! ## Register reads -/

/-- A mask of the numbers below n for which a test holds. -/
def maskBy (n : Nat) (f : Nat → Bool) : Nat := maskOf ((List.range n).filter f)

def State.clkStatus (s : State) : Word :=
  let l := match s.clk.lstate with
    | .noLeader => 0 | .acquiring => 1 | .locked => 2 | .holdover => 3 | .outOfRange => 4
  wN (s.clk.rate * 2 ^ 13 + wB ((s.clk.lock || s.time.started) && family441 s.clk.rate) * 2 ^ 12 + wB s.clk.rc.isSome * 2 ^ 11 + l * 2 ^ 8
    + 4 * wB s.clk.mclkExt + 2 * wB s.clk.cfgErr + wB s.clk.lock)

/-- Word i of a mapping's registers: anchor DT, anchor value, rate (R55, R58). -/
def mapWord (m : Mapping) (i : Nat) : Word :=
  if !m.valid then 0
  else match i with
    | 0 => m.da.extractLsb' 0 32 | 1 => m.da.extractLsb' 32 32
    | 2 => (val64 m.va).extractLsb' 0 32 | 3 => (val64 m.va).extractLsb' 32 32
    | _ => wI m.r

/-- Word j of history entry i (Table TK-6); the ring starts at entry 0. -/
def State.histWord (s : State) (i j : Nat) : Word :=
  let n := s.time.histCnt
  let newest := (n + 31) % 32
  let back := (newest + 32 - i) % 32
  match (if n = 0 then none else s.time.hist[back]?) with
  | none => 0
  | some h => match j with
    | 0 => wN (h.epoch.toNat + 256 * h.kind) | 1 => wI h.rate
    | 2 => h.dt.extractLsb' 0 32 | 3 => h.dt.extractLsb' 32 32
    | 4 => (val64 h.old).extractLsb' 0 32 | 5 => (val64 h.old).extractLsb' 32 32
    | 6 => (val64 h.new).extractLsb' 0 32 | _ => (val64 h.new).extractLsb' 32 32

def State.histHead (s : State) : Word :=
  let n := s.time.histCnt
  wN ((if n = 0 then 0 else (n + 31) % 32) + 65536 * (n % 65536))

/-- Is a jack present (AOUT_STATUS.JACK)? -/
def hpPresent (x : HpJack) : Bool := x.phase == .present || x.phase == .served

def State.ainStatus (s : State) : Word :=
  let busy (n : Nat) : Bool := (s.ainCh n).seq.isSome || (cfgEn (s.ainCh n).analog && (s.ainCh n).gain != ainGainTarget (s.ainCh n))
  let bias (n : Nat) : Bool := biasOn (s.ainCh n)
  let pdm (p : Nat) : Bool := !pdmRateOk (s.pdmRate p) s.clk.rate
  wN (maskBy 4 pdm * 2 ^ 24 + maskBy 8 bias * 2 ^ 16 + wB s.ain.jack1 * 2 ^ 13 + wB s.ain.jack0 * 2 ^ 12 + maskBy 10 busy)

def State.aoutStatus (s : State) : Word :=
  let busy (n : Nat) : Bool := (s.aoutCh n).seq.isSome || (s.aoutCh n).rng.isSome
  wN (wB s.cpOn * 2 ^ 19 + wB (s.aout.vcm == .ok) * 2 ^ 18 + wB (hpPresent s.aout.hp1) * 2 ^ 17 + wB (hpPresent s.aout.hp0) * 2 ^ 16
    + maskBy 12 busy)

def State.spkStatus (s : State) : Word :=
  let m (f : SpkCh → Bool) : Nat := maskBy 2 (fun n => f (s.spkCh n))
  let own (n : Nat) : Bool := (smGet? s.trl.owner (12 + n)).isSome
  wN (m (·.latch) * 2 ^ 26 + m (fun c => c.retry == .clamp || isProbe c.retry) * 2 ^ 24
    + m (fun c => c.pilot.kind != 0 && !c.pilot.held) * 2 ^ 22
    + m (fun c => decide (c.cap < 1)) * 2 ^ 20 + m (fun c => decide (spkTherm c < 1)) * 2 ^ 18 + m (·.acting) * 2 ^ 16
    + wB (s.boostMode == .regulating || s.boostMode == .isolated) * 2 ^ 12 + maskBy 2 own * 2 ^ 8 + s.spk.ch1.cls * 64 + s.spk.ch0.cls * 16 + m (fun c => c.seq.isSome))

def State.spkBst (s : State) : Word := wN (min s.spk.bst 65535 * 65536 + min s.spk.target.floor.toNat 65535)

/-- Dual-feed slots taken: in dual feed, or reserved by a ROUTE_SET that is staged in this tick (R185). -/
def State.dualTaken (s : State) : Nat :=
  let l := s.staging.filterMap (fun p => match p.cmd with
    | .routeSet q => if clsOf q.sink = 0x28 ∧ q.ramp ≠ 0 ∧ (smGet? s.thk.dual (idxOf q.sink)).isNone
        ∧ s.laneSrc (idxOf q.sink) ≠ q.source then some (idxOf q.sink) else none
    | _ => none)
  min 64 (s.thk.dual.length + (l.foldl addNew []).length)

def State.thkStatus (s : State) : Word :=
  wN (wB s.shadowLock * 2 ^ 31 + wB s.shadowLock * 2 ^ 30 + wB (s.flag Fl.THK_STATUS.METER_ERR) * 2 ^ 29
    + min s.faderSlots 4096 * 65536 + s.dualTaken)

def State.trlStatus (s : State) : Word :=
  wN (65536 * maskBy 16 (fun c => (s.trlCh c).xf.isSome) + maskBy 16 (fun c => (s.trlCh c).en))
def State.trlOwn (s : State) : Word := wN (maskBy 14 (fun k => (smGet? s.trl.owner k).isSome))
def State.trlLimgr (s : State) (c : Nat) : Word := wN (min (limDb (s.trlCh c).lim) 65535)

def State.fxStatus (s : State) : Word :=
  let en := s.fxSlots.filter (fun n => fxEn (s.fxAct n))
  let lines := en.filter (fun n => fxDram (s.fxAct n) && fxD (s.fxAct n) != 0)
  wN (wB ((List.range 256).any s.fxLock) * 2 ^ 31 + lines.length * 65536 + en.length)

def State.clpStatus (s : State) : Word :=
  let staged : Bool := s.staging.any (fun p => match p.cmd with
    | .clipCommit _ => true
    | _ => false)
  wN (wB staged * 2 ^ 31 + s.clip.voices.length * 65536 + s.clip.tails.length)

def State.recStat (s : State) (r : Nat) : Word :=
  let x := s.recOf r
  wN (wB x.en * 2 ^ 31 + wB x.run.isSome * 2 ^ 30 + wB x.play.isSome * 2 ^ 29)

def State.topStatus (s : State) : Word :=
  wN (pstateCode s.pwr.state * 2 ^ 29 + s.pwr.level * 256 + 16 * wB s.faultN + 8 * wB s.flt.fire + 4 * wB s.hwd.booted
    + 2 * wB s.locked + wB s.runSet)

def State.hwdStatus (s : State) : Word :=
  wN (65536 * s.hwd.keys.length + 8 * wB s.hwd.running + 4 * wB s.hwd.unlocked.isSome + 2 * wB s.hwd.keysLost + wB s.hwd.booted)

def State.twbStatus (s : State) : Word :=
  wN (statusCode s.twb.last * 65536 + 2 ^ 15 * wB s.twb.armed.isSome + 0x58 + s.twb.sel.toNat)

def State.pinStatus (s : State) : Word := wN (4 * wB s.sup.vio2Hi + 2 * wB s.sup.vio2 + wB s.sup.vio1)

/-- Is DT within the first part of the tick in force, given in ticks? -/
def State.tickHead (s : State) (part : Rat) : Bool :=
  s.time.running && decide (((s.time.dt.toNat - s.time.bdt.toNat : Nat) : Rat) < part * tickLen s.clk.rate s.clk.dco)

/-- The level that the device drives on GPIO n (Table BL-8); a pin that it does not drive stands at a value that only the board
gives. -/
def State.gpioLevel (s : State) (n : Nat) : Bool :=
  let func := s.fld (Fl.PIN_GPIO_CFG.FUNC n)
  if func = 0 then (if s.flag (Fl.PIN_GPIO_CFG.DIR n) then bitN (s.rd Reg.PIN_GPIO_OUT).toNat n
      else bitN (Config.gpioPins s.free) n)
  else if func = 5 then
    let sel := s.fld (Fl.PIN_GPIO_CFG.SEL n)
    (bitN sel 0 && (s.spk.ch0.latch || s.spk.ch0.giveup)) || (bitN sel 1 && (s.spk.ch1.latch || s.spk.ch1.giveup))
  else if func = 1 then
    s.time.ts.toNat % 2 ^ s.fld (Fl.PIN_GPIO_CFG.SEL n) == 0 && s.tickHead (16 / ccPerTk s.clk.rate)
  else if func = 2 then s.tickHead (1 / 2)
  else (smGet? s.pin.high n).isSome && (func != 3 || s.time.net.valid)

def State.gpioIn (s : State) : Word := wN (maskBy 16 s.gpioLevel)

/-- PIN_SAPX_IN: pins in mode 3 stand at a value that only the board gives; the others read as zero. -/
def State.sapxIn (s : State) : Word :=
  wN (maskBy 16 (fun i => bitsOf (s.rd Reg.PIN_SAPX_CFG) (2 * i) 2 == 3 && bitN (Config.sapxPins s.free) i))

/-- The last DT that a read of TIME_TICK_TS32 latches. -/
def State.tickDt (s : State) : DT := s.time.bdt

/-- A word of an availability counter. -/
def avWord (n hi : Nat) : Word := wN (n / 2 ^ (32 * hi))

/-- Registers of the SAP blocks. -/
def State.sapRead32 (s : State) (off : Nat) : Word :=
  let p := (off - 0xC000) / 0x400
  match off % 0x400 with
  | 0x020 => s.sapStatus p
  | 0x034 => s.sapFillWord p
  | 0x038 => s.sapFillWord (p + 8)
  | 0x380 => s.grvStatus p
  | 0x384 => (s.groveOf p).trig
  | 0x388 => wN (s.groveOf p).ports.toNat
  | 0x38C => (s.groveOf p).rings.extractLsb' 0 32
  | 0x390 => (s.groveOf p).rings.extractLsb' 32 32
  | 0x394 => wN (s.groveOf p).ctxs.length
  | _ => s.rd off

/-- Counters of the context that NET_CTX_SEL names (R306). -/
def State.ctxRead32 (s : State) (off : Nat) : Word :=
  let n := (s.rd Reg.NET_CTX_SEL).toNat % 1024
  let x := s.netCtx n
  match off with
  | 0x0E044 => s.ctxStat n
  | 0x0E048 => wN (min x.pktCnt (2 ^ 32 - 1))
  | 0x0E04C => wN (min x.late (2 ^ 32 - 1))
  | 0x0E050 => wN (min x.early (2 ^ 32 - 1))
  | 0x0E054 => wN (min x.missC (2 ^ 32 - 1))
  | 0x0E058 => wN (min x.discC (2 ^ 32 - 1))
  | 0x0E05C => wN (min x.slip (2 ^ 32 - 1))
  | 0x0E060 => wN (s.netRunning false)
  | 0x0E064 => wN (s.netRunning true)
  | _ => s.rd off

/-- THK_LANE: the source in force, and the old source while a dual feed runs (R184). -/
def State.laneWord (s : State) (l : Nat) : Word :=
  let old : Nat := match smGet? s.thk.dual l with
    | some d => d.old.toNat
    | none => 65535
  wN (old * 65536 + (s.laneSrc l).toNat)

/-- The state that a register reports; `none` for a register whose word is stored. -/
def State.live (s : State) (off : Nat) : Option Word :=
  if off = Reg.TOP_ID then some 0x4B579320
  else if off = Reg.TOP_STEP then some 0x000100B0
  else if off = Reg.TOP_STATUS then some s.topStatus
  else if off = Reg.TOP_LOCK then some (wN (2 * wB s.signedOnly + wB s.locked))
  else if off = Reg.CLK_STATUS then some s.clkStatus
  else if off = Reg.CLK_LEADER then some (wN (s.clk.bw * 2 ^ 24 + s.clk.kind * 65536 + s.clk.index))
  else if off = Reg.CLK_DCO then some (wN (bitsOf (wI s.clk.dco) 0 24))
  else if off = Reg.CLK_HOLD then some (wN (bitsOf (wI s.clk.hold) 0 24))
  else if off = Reg.CLK_LERR then some (wI s.clk.lerr)
  else if off = Reg.CLK_SETPT then some (wI s.clk.setpt)
  else if off = Reg.TIME_DT_LO then some (s.time.dt.extractLsb' 0 32)
  else if off = Reg.TIME_TS32 then some s.tsNow
  else if off = Reg.TIME_STATUS then some s.timeStatus
  else if off = Reg.TIME_TICK_TS32 then some s.time.ts
  else if off = Reg.TIME_TICK_PER then some s.tickPer
  else if off = Reg.TIME_HIST_HEAD then some s.histHead
  else if 0x2050 ≤ off ∧ off < 0x2064 then some (mapWord (mapNow s.time.net s.time.dt) ((off - 0x2050) / 4))
  else if 0x2064 ≤ off ∧ off < 0x2078 then some (mapWord (mapNow s.time.wall s.time.dt) ((off - 0x2064) / 4))
  else if 0x2400 ≤ off ∧ off < 0x2800 then some (s.histWord ((off - 0x2400) / 32) (off % 32 / 4))
  else if off = Reg.PWR_STATUS then some s.pwrStatus
  else if off = Reg.PWR_BUD_CAP then some s.budCap
  else if off = Reg.PWR_BUD_PEND then some s.budPend
  else if off = Reg.PWR_BUD_DRAM_CAP then some (wN (s.dramCap s.clk.rate))
  else if off = Reg.AIN_STATUS then some s.ainStatus
  else if off = Reg.AOUT_STATUS then some s.aoutStatus
  else if off = Reg.SPK_STATUS then some s.spkStatus
  else if off = Reg.SPK_BST then some s.spkBst
  else if off = Reg.THK_STATUS then some s.thkStatus
  else if 0x7200 ≤ off ∧ off < 0x7800 then some (s.laneWord ((off - 0x7200) / 4))
  else if off = Reg.THK_NODES_ACT then some (wN s.nodesAct)
  else if off = Reg.THK_NODES_SHD then some (wN s.nodesShd)
  else if off = Reg.THK_NODES_UNION then some (wN s.nodesUnion)
  else if off = Reg.TRL_STATUS then some s.trlStatus
  else if off = Reg.TRL_OWN then some s.trlOwn
  else if off = Reg.TRL_MERGE then some (wN s.mergeCount)
  else if 0x8040 ≤ off ∧ off < 0x8080 then some (s.trlLimgr ((off - 0x8040) / 4))
  else if off = Reg.FX_STATUS then some s.fxStatus
  else if 0x9400 ≤ off ∧ off < 0x9800 then some (s.fxGrWord ((off - 0x9400) / 4))
  else if off = Reg.CLP_STATUS then some s.clpStatus
  else if 0xA100 ≤ off ∧ off < 0xA200 then
    let r := (off - 0xA100) / 8
    some (if off % 8 = 0 then s.recStat r else wN (s.ringHeld (s.recOf r)))
  else if 0xA400 ≤ off ∧ off < 0xA800 then some (s.voiceReg ((off - 0xA400) / 4))
  else if off = Reg.MEM_USABLE then some (wN (s.dramSize / 2 ^ 20))
  else if 0xC000 ≤ off ∧ off < 0xE000 then some (s.sapRead32 off)
  else if 0xE044 ≤ off ∧ off < 0xE068 then some (s.ctxRead32 off)
  else if off = Reg.HST_STATUS then some s.hstStatus
  else if 0x10400 ≤ off ∧ off < 0x10C00 ∧ off % 32 = 20 then some (s.ringStat ((off - 0x10400) / 32))
  else if off = Reg.TWB_STATUS then some s.twbStatus
  else if off = Reg.WAK_LSN_STATUS then some s.lsnStatus
  else if off = Reg.WAK_LSN_PR_SEQ then some s.lsnSeq
  else if off = Reg.BLZ_STATUS then some s.blzStatus
  else if off = Reg.BLZ_SEQ_NEXT then some s.blz.seqNext
  else if off = Reg.BLZ_SEQ_OLDEST then some s.blzOldest
  else if off = Reg.BLZ_DRAIN_SEQ then some s.blz.pos
  else if off = Reg.BLZ_WIN_STAT then some s.blzWinStat
  else if 0x130A0 ≤ off ∧ off < 0x130C0 then some (s.blzWinWord ((off - 0x130A0) / 4))
  else if off = Reg.FLT_STATUS then some s.fltStatus
  else if off = Reg.FLT_AV_GOOD_LO then some (avWord s.flt.good 0)
  else if off = Reg.FLT_AV_BAD_LO then some (avWord s.flt.bad 0)
  else if off = Reg.FLT_AV_EXT_LO then some (avWord s.flt.ext 0)
  else if off = Reg.FLT_AV_HOST_LO then some (avWord s.flt.host 0)
  else if off = Reg.HWD_STATUS then some s.hwdStatus
  else if 0x15060 ≤ off ∧ off < 0x15070 then some (s.hwd.fuses.devId.extractLsb' (8 * (off - 0x15060)) 32)
  else if off = Reg.HWD_ARB then some (wN (s.hwd.fuses.arb % 128))
  else if off = Reg.HWD_POLICY then some (wN s.hwd.fuses.policy.toNat)
  else if off = Reg.HWD_ROOT_SET then some (wN (maskBy 4 (fun n => s.hwd.fuses.roots.getD n 0 != 0)))
  else if off = Reg.HWD_DBG_NONCE_LO then some (s.hwd.nonce.extractLsb' 0 32)
  else if off = Reg.HWD_DBG_NONCE_HI then some (s.hwd.nonce.extractLsb' 32 32)
  else if off = Reg.PIN_GPIO_IN then some s.gpioIn
  else if off = Reg.PIN_SAPX_IN then some s.sapxIn
  else if off = Reg.PIN_STATUS then some s.pinStatus
  else if off = 0x3F000 then some s.host.pba
  else none

/-- Bits of WO and W1S fields read as zero, but for those whose rule says what they read (R11, R513, R515). -/
def woMask (off : Nat) : Word :=
  if off = Reg.BLZ_RELEASE ∨ off = Reg.HST_NUDGE ∨ off = Reg.PIN_GPIO_SET ∨ off = Reg.PIN_GPIO_CLR then 0
  else if off = Reg.FLT_CTRL then 0
  else 0xFFFFFFFF

/-- What a read of the register at an offset returns; a read has no effect here (R510). -/
def State.readReg (s : State) (off : Nat) : Word := match s.live off with
  | some v => v
  | none => s.rd off &&& woMask off

end Sys2Proof.Machine
end

