-- ==== Sys2Proof/Machine/Faults.lean ====
section
/-! DEFINITION. Memory errors, the control cores and Ranger, firmware update, Firebreak, the Deadfall dump
(chapter 16). -/
namespace Sys2Proof.Machine

/-! ## Deadfall (R477, R478) -/

/-- Longest dump, bytes (R478). -/
abbrev dumpMax : Nat := 262144

/-- Who writes a dump: the active core, the other one, or Ranger when neither runs. -/
def State.dumpWriter (s : State) : Option Nat :=
  let a := s.activeCore
  if coreRuns (s.core a) then some a
  else if coreRuns (s.core (1 - a)) then some (1 - a)
  else if !s.flt.lost then some 2 else none

/-- The sequence number of the newest record in the store, else the last one assigned. -/
def State.tailNewest (s : State) : Word := match s.blz.store.getLast? with
  | some r => r.seq
  | none => s.blz.seqNext - 1

/-- The register snapshot: BAR0 0x00000 to 0x16FFF, the HWD block as zero; words of zero are left out. -/
def State.snapshot (s : State) : SMap Word :=
  (List.range 23552).filterMap (fun i =>
    let off := 4 * i
    let w := if 0x15000 ≤ off ∧ off < 0x16000 then 0 else s.readReg off
    if w = 0 then none else some (off, w))

/-- A cause of Table FT-4. -/
def State.deadfall (s : State) (cause : Nat) (dt : DT) : State :=
  if s.flt.dump.isSome then s.bump Reg.FLT_DUMP_SKIP
  else match s.dumpWriter with
    | none => s
    | some w =>
      let host := (s.rd64 Reg.FLT_DUMP_HOST_LO Reg.FLT_DUMP_HOST_HI)
      let inWin := s.dmaAllowed host dumpMax true
      let s := if s.dmaOn ∧ !inWin then s.winViol 0xFF host else s
      let dram : Bool := s.flag Fl.FLT_DUMP_DRAM_LO.VALID && s.flag Fl.MEM_CFG.EN
      let hostOk : Bool := s.dmaOn && inWin
      let d : Dump := {
        cause := cause, writer := w, dt := dt, epoch := s.time.epoch, ts := s.tsNow, fwVer := s.rd Reg.FLT_FW_VER,
        fault := s.rd Reg.FLT_FAULT, newest := s.tailNewest, tail := s.blz.store.drop (s.blz.store.length - 256), regs := s.snapshot,
        pend := s.host.pend.take 1024,
        rings := (List.range 64).map (fun n => (n, s.rd (Reg.HST_RING_CFG n), (s.ring n).hidx, (s.ring n).didx, s.ringStat n)),
        dram := dram, host := hostOk, unsigned := !s.hwd.running }
      let s := { s with free := s.free + 1, flt := { s.flt with dump := some d } }
      (s.alertSet Fl.TWB_ALERT.DUMP).logAt Src.FLT 0xE007 6 dt (wN cause) (wN w) (wN (wB dram + 2 * wB hostOk))

/-! ## Firebreak -/

/-- The commands that Firebreak does not hold (R470). -/
def fireExempt (c : Cmd) : Bool := match c with
  | .nop => true
  | .blzMark _ => true
  | .firebreakCtrl _ => true
  | _ => false

/-- Does Firebreak hold a command: its own, or a member of its group (R19, R470)? -/
def groupHeld (l : List Picked) (p : Picked) : Bool := l.any (fun q => q.grp == p.grp && !fireExempt q.cmd)

/-- FIREBREAK_ENGAGE at the first boundary after a cause (R470, R473). -/
def State.fireEngage (s : State) : State := match s.flt.fireRq with
  | none => s
  | some cause =>
    let s := { s with flt := { s.flt with fireRq := none } }
    if s.flt.fire then s
    else
      let keep (p : Picked) : Bool := !groupHeld s.host.commit p
      let held := s.host.commit.filter (fun p => !keep p)
      let n := ((s.host.commit ++ s.host.pend).filter (fun p => !fireExempt p.cmd)).length
      let s := { s with
        host := { s.host with commit := s.host.commit.filter keep },
        flt := { s.flt with fire := true, fireAt := s.time.ts, held := held } }
      s.logAt Src.FLT 0xE004 5 s.time.bdt 0 (wN cause) (wN n)

/-- The commands that a release at the tick in force frees: those of the commit set, and those of the pending store
whose targets have come (R473). -/
def State.fireDue (s : State) : List (Picked × Bool) :=
  s.flt.held.map (fun p => (p, true))
    ++ (s.host.pend.filter (fun p => groupHeld s.host.pend p && decide (tsDiff p.hdr.target s.time.ts ≤ 0))).map (fun p => (p, false))

def firebreakRefusal (s : State) (op : Nat) : Status :=
  if op = 1 ∧ s.flt.fire ∧ (s.flt.lost ∨ !s.coreUp) then .denied else .ok

/-- FIREBREAK_CTRL at its commit boundary (R470, R472, R473). What a release frees commits at that boundary. -/
def firebreakEffect (op : Nat) (s : State) : Done :=
  if op = 0 then okDone (if s.flt.fire then s else { s with flt := { s.flt with fireRq := some 0 } })
  else if s.flt.fire then
    let due := s.fireDue
    let n := (due.filter (fun p => !fireExempt p.1.cmd)).length
    let s := { s with
      host := { s.host with pend := s.host.pend.filter (fun p => !groupHeld s.host.pend p || decide (0 < tsDiff p.hdr.target s.time.ts)) },
      flt := { s.flt with fire := false, fireRq := none, held := [], freed := due } }
    let s := s.logAt Src.FLT 0xE004 5 s.time.bdt 1 0 (wN n)
    ⟨s, .ok, wN n, 0, 0, false, false⟩
  else okDone s

/-! ## Core failures and Coppice -/

/-- Failures of a core within 10 s. -/
def recentFails (l : List DT) (dt : DT) : List DT := l.filter (fun d => decide (dt.toNat ≤ d.toNat + 10 * oneSecond))

/-- A failed Coppice (R467). -/
def State.coppiceFail (s : State) (c tries : Nat) (dt : DT) : State :=
  let s := s.setCore c { s.core c with run := .failed }
  let s := { s with flt := { s.flt with coppice := none, fireRq := some (s.flt.fireRq.getD 2) } }
  let s := (s.fltSet Fl.FLT_FAULT.COPPICE_FAIL).deadfall 3 dt
  s.logAt Src.FLT 0xE003 5 dt (wN c) (wN tries) 0

/-- A failure on probation falls back to the previous image (R469). -/
def State.fwFallback (s : State) (c : Nat) (dt : DT) : State := match s.flt.prob with
  | some p =>
    if (s.core c).slot = p.slot then
      let bad := (s.fwOf p.slot).version
      let good := (s.fwOf p.prev).version
      let s := s.setCore 0 { s.core 0 with slot := p.prev }
      let s := s.setCore 1 { s.core 1 with slot := p.prev }
      let s := { s with flt := { s.flt with prob := none } }
      (s.wr Reg.FLT_FW_VER good).logAt Src.FLT 0xE009 4 dt bad good 0
    else s
  | none => s

/-- Ranger restarts the active role (R465): the standby is promoted, or the core itself starts again. -/
def State.coppiceStart (s : State) (c : Nat) (dt : DT) : State :=
  let o := 1 - c
  if (s.core o).run = .standby then
    let s := s.setCore c { s.core c with run := .reloading }
    let s := s.setCore o { s.core o with run := .resuming, miss := 0 }
    { s with flt := { s.flt with activeB := o == 1, coppice := some ⟨dt, dt, 1, o, false⟩ } }
  else
    let s := s.setCore c { s.core c with run := .resuming, miss := 0, beat := false }
    { s with flt := { s.flt with coppice := some ⟨dt, dt, 1, c, true⟩ } }

/-- A core is declared failed (R464, R465): reason 0 missed heartbeats, 1 tick lag, 2 exception, 3 memory; `cause` is the
dump that its failure leaves by itself. While Ranger is lost it stays failed (R475). -/
def State.coreFail (s : State) (c reason : Nat) (cause : Option Nat) (dt : DT) : State :=
  let x := s.core c
  if !coreRuns x && x.run != .staging then s
  else if s.flt.lost then (s.setCore c { x with run := .failed }).deadfall 4 dt
  else
    let fails := dt :: recentFails x.fails dt
    let other := (s.core (1 - c)).fails.head?
    let both : Bool := match other with
      | some d => d.toNat / 1000000 == dt.toNat / 1000000
      | none => false
    let s := s.bump Reg.FLT_COPPICE_CNT
    let s := s.logAt Src.RANGER 0xE001 4 dt (wN c) (wN reason) x.last
    let s := s.setCore c { x with fails := fails }
    let s := s.fwFallback c dt
    let again := fails.length
    let x := s.core c
    let s := if 3 ≤ again then s.coppiceFail c again dt
      else if x.run = .active then s.coppiceStart c dt
      else if x.run = .resuming then
        (match s.flt.coppice with
         | some k => if 2 ≤ k.tries then s.coppiceFail c k.tries dt
             else
               let s := s.setCore c { x with beat := false }
               { s with flt := { s.flt with coppice := some { k with tries := k.tries + 1, start := dt, alone := true } } }
         | none => s.coppiceStart c dt)
      else s.setCore c { x with run := .reloading }
    match cause with
    | some k => s.deadfall k dt
    | none => if both then s.deadfall 2 dt else s

/-- One core's part of a heartbeat window (R464). -/
def State.heartbeat (s : State) (c : Nat) (hb : Option TS) (dt : DT) : State :=
  let x := s.core c
  if !coreRuns x then s
  else match hb with
    | some t =>
      let s := s.setCore c { x with miss := 0, last := t, beat := true }
      if s.time.running ∧ 64 < tsDiff s.tsNow t ∧ x.run ≠ .resuming then s.coreFail c 1 none dt else s
    | none =>
      if x.run = .resuming then s
      else
        let s := s.setCore c { x with miss := x.miss + 1 }
        if max 2 (min 8 (s.fld Fl.FLT_RANGER_CFG.HB_MISS)) ≤ x.miss + 1 then s.coreFail c 0 none dt else s

/-- A heartbeat window ends, at a DT that is a multiple of 10^6 ns (R464, R474, R475). A Ranger whose counter stands
decides nothing. -/
def execHeartbeatWindow (hbA hbB : Option TS) (rangerMoved : Bool) (dt : DT) (s : State) : Host.Outcome State Fault Refusal :=
  if dt.toNat % 1000000 = 0 ∧ !s.coreDown then
    let s := s.advance dt
    let f := s.flt
    let moved := rangerMoved && !f.reload
    let s : State := { s with flt := if moved then { f with alive := true, stuck := 0, counter := f.counter + 1, lost := false }
                             else { f with alive := if 4 ≤ f.stuck + 1 then false else f.alive, stuck := f.stuck + 1 } }
    let s := if moved ∧ f.lost then s.setFld Fl.FLT_FAULT.RANGER_LOSS 0 else s
    .next (if moved then (s.heartbeat 0 hbA dt).heartbeat 1 hbB dt else s)
  else .next s

/-- A core takes a fatal exception, or an uncorrectable error in its own memory (R464). -/
def execCoreException (core : Nat) (memory : Bool) (dt : DT) (s : State) : Host.Outcome State Fault Refusal :=
  let s := s.advance dt
  .next (if core < 2 then s.coreFail core (if memory then 3 else 2) (if memory then none else some 1) dt else s)

/-- The late policy of a group that a new core takes up in tick k (R23, R62). -/
def takeUp (s : State) (k : TS) (p : Picked) : Option Picked :=
  if !p.hdr.timed then some { p with k := k }
  else
    let l := tsDiff (k + 2) p.hdr.target
    if l ≤ 0 then some { p with k := k, late := false }
    else match p.hdr.late with
      | 0 => some { p with k := k, late := true }
      | 1 => none
      | _ => if l ≤ s.lateWin (ringOf p.hdr) then some { p with k := k, late := true } else none

/-- A bulk transfer that has not started is staged anew by the core that takes it up in tick k: it starts at k+2 (R23,
R340). -/
def blkAgain (k : TS) (b : BlkXfer) : BlkXfer := if b.running || b.dead then b else { b with startAt := k + 2 }

/-- The journal entries that are neither committed nor rejected are taken up again (R23, R466). -/
def State.journalTake (s : State) : State :=
  let k := s.time.ts
  let out := s.host.picked.filter (fun p => (takeUp s k p).isNone)
  let s := out.foldl (fun s p => s.rejectNext p.hdr (opcodeOf p.cmd) .expired) s
  { s with host := { s.host with
    picked := s.host.picked.filterMap (takeUp s k),
    rings := smMap s.host.rings (fun (r : Ring) => { r with blk := r.blk.map (blkAgain k) }) } }

/-- CMD and BLK descriptors that the journal holds (R466). -/
def State.journalLen (s : State) : Nat :=
  s.host.picked.length + (s.host.commit.filter (fun p => !p.hdr.timed || p.late)).length
    + (s.host.dueWb.filter (fun d => s.ringType (ringOf d.1) == 0 || s.ringType (ringOf d.1) == 7)).length
    + s.host.rings.foldl (fun a r => a + (r.2.blk.filter (fun b => !b.dead)).length) 0

/-- RECOVER's action has ended (R380). -/
def State.recoverEnd (s : State) (action : Nat) : State :=
  let t : State := { s with twb := { s.twb with recover := none } }
  if s.twb.recover = some action then t.alertSet Fl.TWB_ALERT.RECOVER_DONE else s

/-- The restarted or promoted core makes its first pickup (R465, R466). -/
def execCoppiceFirstPickup (dt : DT) (s : State) : Host.Outcome State Fault Refusal :=
  let s := s.advance dt
  match s.flt.coppice with
  | some k =>
    if (s.core k.core).run = .resuming then
      let n := s.host.picked.length + s.host.rings.foldl (fun a r => a + (r.2.blk.filter (fun b => !b.dead && !b.running)).length) 0
      let s := s.setCore k.core { s.core k.core with run := .active, miss := 0 }
      let s := { s with flt := { s.flt with activeB := k.core == 1, coppice := none, hung := false } }
      let s := s.journalTake
      let s := s.logAt (Src.CCA + k.core) 0xE002 2 dt (wN k.core) (wN ((dt.toNat - k.since.toNat) / 1000000)) (wN n)
      .next (s.recoverEnd 1)
    else .next s
  | none => .next s

/-- A restart has given no heartbeat within 40 ms of its start (R467). -/
def execCoppiceRetry (dt : DT) (s : State) : Host.Outcome State Fault Refusal :=
  let s := s.advance dt
  match s.flt.coppice with
  | some k =>
    if k.alone ∧ !(s.core k.core).beat ∧ k.start.toNat + 40000000 ≤ dt.toNat ∧ !s.flt.lost then
      if k.tries < 2 then .next { s with flt := { s.flt with coppice := some { k with tries := k.tries + 1, start := dt } } }
      else .next ((s.coppiceFail k.core k.tries dt).recoverEnd 1)
    else .next s
  | none => .next s

/-- A reloaded core becomes standby (R465); while FW_ACTIVATE runs, it takes up the loading of the image again (R468). -/
def execStandbyReady (s : State) : Host.Outcome State Fault Refusal :=
  let up (c : Nat) : State := match s.flt.load with
    | some l => s.setCore c { s.core c with run := .staging, miss := 0, beat := false, slot := l.slot }
    | none => s.setCore c { s.core c with run := .standby, miss := 0, beat := false, slot := (s.core (1 - c)).slot }
  if (s.core 0).run = .reloading then .next (up 0)
  else if (s.core 1).run = .reloading then .next (up 1)
  else .next s

/-! ## Ranger -/

/-- Four windows without movement: Ranger is lost (R474). -/
def execRangerLoss (dt : DT) (s : State) : Host.Outcome State Fault Refusal :=
  let s := s.advance dt
  if 4 ≤ s.flt.stuck ∧ !s.flt.lost then
    let s := { s with flt := { s.flt with lost := true, alive := false, coppice := none,
                                          fireRq := if s.flt.fire then s.flt.fireRq else some (s.flt.fireRq.getD 1) } }
    let s := s.fltSet Fl.FLT_FAULT.RANGER_LOSS
    let s := s.logAt Src.FLT 0xE005 6 dt s.flt.counter 0 0
    .next (s.deadfall 4 dt)
  else .next s

/-- A reset of Ranger starts its reload (R475): 0 from a core, 1 by RECOVER. -/
def State.rangerReset (s : State) (who : Nat) : State :=
  let s : State := { s with flt := { s.flt with reload := true } }
  s.log Src.FLT 0xE006 3 (wN who) 0 0

/-- Ranger has reloaded from its ROM. -/
def execRangerReloadDone (s : State) : Host.Outcome State Fault Refusal :=
  if s.flt.reload then .next { s with flt := { s.flt with reload := false, stuck := 0 } } else .next s

/-! ## Firmware images (R468, R469, R492, R493) -/

/-- The checks of R492 against a root hash. -/
def State.imageCheck (s : State) (i : ImageFacts) (root : Nat) : Status :=
  let h := s.hwd.fuses.roots.getD root 0
  if !i.magicOk || decide (2 ^ 22 < i.len) then .invalid
  else if h = 0 ∨ i.keyHash ≠ h ∨ !i.sigOk then .denied
  else if i.arb < s.hwd.fuses.arb then .denied
  else .ok

def fwActivateValid (p : FwActivateP) : Bool := p.len % 64 == 0 && decide (64 ≤ p.len) && decide (p.len ≤ 2 ^ 22)

/-- Check 5 of FW_ACTIVATE (R468). -/
def fwActivateRefusal (s : State) (p : FwActivateP) : Status :=
  if !s.regionOk p.addr.toNat p.len 64 then .invalid
  else if s.noStandby || s.flt.coppice.isSome || s.flt.fire || s.flt.load.isSome then .busy
  else s.imageCheck p.image 0

/-- A rejected image is logged (R508). -/
def fwActivateRefused (p : FwActivateP) (st : Status) (s : State) : State :=
  if s.regionOk p.addr.toNat p.len 64 ∧ st ≠ .busy ∧ s.imageCheck p.image 0 = st then
    s.log Src.HWD 0xF002 4 (wN (statusCode st)) p.image.version 1 else s

/-- FW_ACTIVATE at its commit boundary: the standby loads the image into the slot that is not in use (R468). -/
def fwActivateEffect (h : Hdr) (p : FwActivateP) (s : State) : Done :=
  let a := s.activeCore
  let slot := 1 - (s.core a).slot
  let s := s.setCore (1 - a) { s.core (1 - a) with run := .staging, slot := slot }
  laterDone { s with flt := { s.flt with load := some ⟨h, p.image, slot⟩, fw := smSet s.flt.fw slot ⟨p.image.version, p.image.arb⟩ } }

def execFwActivate (h : Hdr) (p : FwActivateP) (s : State) : Host.Outcome State Fault Refusal :=
  .next (s.runCmd h (.fwActivate p) 0x0E01 (fwActivateValid p) true (fwActivateRefusal s p) (fwActivateEffect h p) (fwActivateRefused p))

/-- The handover at boundary H, the tick in force (R468). -/
def execFwHandover (s : State) : Host.Outcome State Fault Refusal :=
  match s.flt.load with
  | some l =>
    let a := s.activeCore
    let n := 1 - a
    if (s.core n).run = .staging ∧ (s.core a).run = .active ∧ !s.flt.lost then
      let prev := (s.core a).slot
      let s := s.setCore n { s.core n with run := .active, miss := 0 }
      let s := s.setCore a { s.core a with run := .reloading, slot := l.slot }
      let s := { s with flt := { s.flt with activeB := n == 1, load := none, prob := some ⟨s.time.bdt, l.slot, prev⟩ } }
      let s := s.wr Reg.FLT_FW_VER l.image.version
      .next (s.complete l.hdr 0x0E01 .ok s.time.ts s.time.bdt l.image.version s.time.ts (wN s.hwd.fuses.arb) false)
    else .next s
  | none => .next s

/-- Probation ends 10 s after H without a failure (R469, R493). -/
def execFwProbationEnd (dt : DT) (s : State) : Host.Outcome State Fault Refusal :=
  let s := s.advance dt
  match s.flt.prob with
  | some p =>
    if p.since.toNat + 10 * oneSecond ≤ dt.toNat then
      let new := s.fwOf p.slot
      let old := s.fwOf p.prev
      let s := { s with flt := { s.flt with prob := none } }
      let arb := s.hwd.fuses.arb
      let burnt : State := { s with hwd := { s.hwd with fuses := { s.hwd.fuses with arb := new.arb } } }
      let s := if arb < new.arb then burnt.logAt Src.HWD 0xF009 2 dt (wN arb) (wN new.arb) 0 else s
      .next (s.logAt Src.FLT 0xE008 2 dt new.version old.version (wN s.hwd.fuses.arb))
    else .next s
  | none => .next s

/-! ## Memory errors (R462, Table FT-1) -/

/-- The row of Table FT-1. -/
def memRow (u : MemUser) : Nat := match u with
  | .delayLine _ | .clipData _ | .loopRing _ | .takePlay _ => 0
  | .listener _ => 1
  | .blkUnload _ _ => 2
  | .saveCopy => 3
  | .scrub => 4

/-- A 64-byte line of DRAM whose content is lost reads as zero (R241). -/
def State.lineZero (s : State) (a : Addr) : State := { s with dram := memWrite s.dram (a.toNat / 64 * 64) 0 64 }

/-- A data error in a ring copy or a take playback (R241, R249). -/
def State.loopErr (s : State) (r : Nat) (a : Addr) (dt : DT) : State :=
  (s.lineZero a).logAt Src.CLP 0x6103 4 dt (wN (256 + r)) (a.extractLsb' 0 32) (a.extractLsb' 32 32)

/-- An uncorrectable DRAM codeword is read. -/
def execDramUe (user : MemUser) (addr : Addr) (dt : DT) (s : State) : Host.Outcome State Fault Refusal :=
  let s := (s.advance dt).bump Reg.MEM_UE_CNT
  let s := (s.wr Reg.MEM_ERR_ADDR_LO (addr.extractLsb' 0 32)).wr Reg.MEM_ERR_ADDR_HI (wN ((addr.extractLsb' 32 32).toNat % 2 ^ 31))
  let s := s.logAt Src.MEM 0x7002 4 dt (addr.extractLsb' 0 32) (addr.extractLsb' 32 32) (wN (memRow user))
  .next (match user with
    | .delayLine n => if n < 256 then (s.lineZero addr).fxLineErr n addr dt else s
    | .clipData v => (s.voiceErr v).logAt Src.CLP 0x6103 4 dt (wN v) (addr.extractLsb' 0 32) (addr.extractLsb' 32 32)
    | .loopRing r => (s.loopErr r addr dt).ringCopyErr r (addr.toNat / 64 * 64)
    | .takePlay r => s.loopErr r addr dt
    | .listener n => s.updCtx n (fun x => { x with queue := x.queue.drop (max 1 (16 / cxChans (s.ctxWord n))) })
    | .blkUnload n moved => s.blkLost n moved []
    | .saveCopy => { s with pwr := { s.pwr with lost := s.pwr.lost ||| 0x1000 } }
    | .scrub => s)

/-- The SRAM that MEM_SRAM_UE names. -/
def sramKind (w : SramWord) : Nat := match w with
  | .node _ _ | .busGain _ | .shadow _ => 0
  | .interchange _ => 1
  | .fxState _ | .trailState _ | .clipState _ => 2
  | .delayLine _ => 3
  | .pendingEntry _ _ => 4
  | .coreMem _ | .coreCode _ => 5
  | .blazeSlot _ => 6

/-- An active node: its target is 0, and from the next boundary its in-use value ramps there over 64 tk. -/
def State.nodeLost (s : State) (k : Nat) : State :=
  let use := s.nodeUse k
  { s with thk := { s.thk with act := bankSet s.thk.act k 0 (withBits (s.actNode k) 0 24 0), ramps := smSet s.thk.ramps k (grNext use 0 64) } }
def State.busLost (s : State) (b : Nat) : State :=
  let use := s.busUse b
  { s with thk := { s.thk with actBus := bankSet s.thk.actBus b busReset (withBits (s.actBusW b) 0 24 0),
                               busRamps := smSet s.thk.busRamps b (grNext use 0 64) } }

/-- A shadow word of the aperture gets its reset value. -/
def State.shadowLost (s : State) (off : Nat) : State :=
  if off < 0x90000 then { s with thk := { s.thk with shd := smDel s.thk.shd (off / 4) } }
  else if off < 0xB0000 then { s with thk := { s.thk with shdBus := smDel s.thk.shdBus ((off - 0x90000) / 4) } }
  else if off < 0x100000 then { s with trl := { s.trl with shd := smDel s.trl.shd ((off - 0xB0000) / 4) } }
  else if off < 0x120000 then { s with fx := { s.fx with shd := smDel s.fx.shd ((off - 0x100000) / 4) } }
  else if off < 0x160000 then { s with clip := { s.clip with shd := smDel s.clip.shd ((off - 0x120000) / 4) } }
  else if off < 0x180000 then { s with clip := { s.clip with eshd := smDel s.clip.eshd ((off - 0x160000) / 4) } }
  else if off < 0x1C0000 then { s with net := { s.net with shd := smDel s.net.shd ((off - 0x180000) / 4) } }
  else if off < 0x1D0000 then { s with lsn := { s.lsn with shd := smDel s.lsn.shd ((off - 0x1C0000) / 4) } }
  else s

/-- A pending-store entry is lost, and its group with it. -/
def State.pendLost (s : State) (ring tag : Nat) : State :=
  match s.host.pend.find? (fun p => p.hdr.ring == ring && p.hdr.tag.toNat == tag) with
  | none => s
  | some p =>
    let grp := s.host.pend.filter (fun q => q.grp == p.grp)
    let s := { s with host := { s.host with pend := s.host.pend.filter (fun q => q.grp != p.grp) } }
    grp.foldl (fun s q => s.reject q.hdr (opcodeOf q.cmd) (if q = p then .lost else .aborted)) s

/-- An uncorrectable SRAM codeword is read. -/
def execSramUe (word : SramWord) (addr : Nat) (dt : DT) (s : State) : Host.Outcome State Fault Refusal :=
  let s := (s.advance dt).bump Reg.MEM_SRAM_UE_CNT
  let s := (s.wr Reg.MEM_ERR_ADDR_LO (wN addr)).wr Reg.MEM_ERR_ADDR_HI 0x80000000
  let s := s.logAt Src.MEM 0x7003 4 dt (wN addr) (wN (sramKind word)) 0
  .next (match word with
    | .node l b => if l < 384 ∧ b < 288 then s.nodeLost (nodeKey l b) else s
    | .busGain b => if b < 288 then s.busLost b else s
    | .shadow off => s.shadowLost off
    | .interchange a => { s with flt := { s.flt with ixUe := a :: s.flt.ixUe } }
    | .fxState n => if n < 256 then s.fxStateErr n else s
    | .trailState c => if c < 16 then s.trlErr c else s
    | .clipState v => s.voiceDip v
    | .delayLine n => if n < 256 then s.fxLineErr n (BitVec.ofNat 64 addr) dt else s
    | .pendingEntry r t => s.pendLost r t
    | .coreMem c => if c < 2 then s.coreFail c 3 none dt else s
    | .coreCode c => if c < 2 then (s.fltSet Fl.FLT_FAULT.FW_MEM_UE).coreFail c 3 (some 5) dt else s
    | .blazeSlot n => { s with blz := { s.blz with store := s.blz.store.filter (fun r => r.slot != n) } })

/-- Does the DRAM scrub run (R463)? -/
def State.scrubRuns (s : State) : Bool := s.flag Fl.MEM_SCRUB.EN && s.flag Fl.MEM_CFG.EN

/-- Nanoseconds of a scrub period: MEM_SCRUB.HOURS hours. -/
def State.scrubNs (s : State) : Nat := s.fld Fl.MEM_SCRUB.HOURS * 3600 * oneSecond

/-- A scrub period of HOURS hours ends (R463). A late pass has finished before the next one starts, and counts there. -/
def execMemScrubPeriodEnd (linesLeft : Nat) (dt : DT) (s : State) : Host.Outcome State Fault Refusal :=
  let s := s.advance dt
  if s.scrubRuns && decide (s.flt.scrubDt.toNat + s.scrubNs ≤ dt.toNat) then
    let s := if s.flt.scrubLate then s.bump Reg.MEM_SCRUB_PASS else s
    let s := { s with flt := { s.flt with scrubDt := dt, scrubLate := linesLeft != 0 } }
    if linesLeft = 0 then .next (s.bump Reg.MEM_SCRUB_PASS)
    else .next (s.logAt Src.MEM 0x7004 3 dt (s.rd Reg.MEM_SCRUB_PASS) (wN linesLeft) 0)
  else .next s

end Sys2Proof.Machine
end

