-- ==== Sys2Proof/Machine/Retain.lean ====
section
/-! DEFINITION. Understory and the retained set (R404 to R407, R517 to R519): which registers a bank holds, which Canopy
holds, what a lost bank, lost tables and lost DRAM leave. -/
namespace Sys2Proof.Machine

/-! ## The registers of Table RG-3, as (offset, count, stride) -/

def bank0 : List (Nat × Nat × Nat) :=
  [(0x00020, 4, 4), (0x01000, 1, 4), (0x02044, 1, 4), (0x02048, 1, 4), (0x0204C, 1, 4), (0x02400, 256, 4), (0x02078, 1,
   4)]

def bank1 : List (Nat × Nat × Nat) :=
  [(0x03000, 1, 4), (0x03008, 1, 4), (0x0300C, 1, 4), (0x03010, 1, 4), (0x03100, 1, 4), (0x12000, 1, 4), (0x12004, 1,
   4), (0x12008, 1, 4), (0x12100, 1, 4), (0x12104, 1, 4), (0x12108, 1, 4), (0x1210C, 1, 4), (0x1212C, 1, 4)]

def bank2 : List (Nat × Nat × Nat) :=
  [(0x04000, 1, 4), (0x04010, 1, 4), (0x04040, 8, 4), (0x04060, 2, 4), (0x040C0, 8, 4)]

def bank3 : List (Nat × Nat × Nat) :=
  [(0x05004, 1, 4), (0x05010, 1, 4), (0x05014, 1, 4), (0x05040, 8, 4), (0x05060, 4, 4)]

def bank4 : List (Nat × Nat × Nat) :=
  [(0x06000, 1, 4), (0x06010, 1, 4), (0x06014, 1, 4), (0x06018, 1, 4), (0x06040, 2, 4), (0x06098, 2, 4)]

def bank5 : List (Nat × Nat × Nat) :=
  [(0x07000, 1, 4), (0x07020, 1, 4), (0x07024, 1, 4), (0x07028, 1, 4), (0x07200, 384, 4), (0x08000, 1, 4)]

def bank6 : List (Nat × Nat × Nat) :=
  [(0x09000, 1, 4), (0x0A000, 1, 4)]

def bank7 : List (Nat × Nat × Nat) :=
  [(0x0B000, 1, 4), (0x0B00C, 1, 4)]

def bank8 : List (Nat × Nat × Nat) :=
  [(0x0C000, 8, 1024), (0x0C004, 8, 1024), (0x0C008, 8, 1024), (0x0C00C, 8, 1024), (0x0C010, 8, 1024), (0x0C014, 8,
   1024), (0x0C018, 8, 1024), (0x0C01C, 8, 1024), (0x0C030, 8, 1024)]

def bank9 : List (Nat × Nat × Nat) :=
  [(0x0E000, 1, 4), (0x0E008, 1, 4), (0x0E010, 1, 4), (0x0E014, 1, 4), (0x0E018, 1, 4), (0x0E01C, 1, 4), (0x0E020, 1,
   4), (0x0E028, 1, 4), (0x0E02C, 1, 4), (0x0E030, 1, 4), (0x0E034, 1, 4), (0x0E038, 1, 4), (0x0E03C, 1, 4), (0x0E040,
   1, 4)]

def bank10 : List (Nat × Nat × Nat) :=
  [(0x10000, 1, 4), (0x10010, 1, 4), (0x10014, 1, 4), (0x10018, 1, 4), (0x1001C, 1, 4), (0x10100, 16, 16), (0x10104, 16,
   16), (0x10108, 16, 16), (0x1010C, 16, 16), (0x10400, 64, 32), (0x10404, 64, 32), (0x10408, 64, 32), (0x1040C, 64,
   32), (0x10410, 64, 32)]

def bank11 : List (Nat × Nat × Nat) :=
  [(0x11000, 1, 4), (0x1100C, 1, 4), (0x13000, 1, 4), (0x1400C, 1, 4), (0x14018, 1, 4), (0x1401C, 1, 4), (0x14020, 1,
   4), (0x14024, 1, 4), (0x16000, 16, 4), (0x16040, 1, 4), (0x16050, 1, 4), (0x16054, 1, 4), (0x1605C, 1, 4)]

def bankCanopy : List (Nat × Nat × Nat) :=
  [(0x00018, 1, 4), (0x03014, 1, 4), (0x03018, 1, 4), (0x0301C, 1, 4), (0x03020, 1, 4), (0x03024, 1, 4), (0x03028, 6,
   4), (0x03040, 4, 4), (0x03050, 4, 4), (0x03060, 1, 4), (0x03064, 1, 4), (0x03068, 1, 4), (0x0306C, 1, 4), (0x03070,
   1, 4), (0x03074, 1, 4), (0x1200C, 1, 4), (0x12110, 1, 4), (0x12114, 1, 4), (0x12118, 1, 4), (0x1211C, 1, 4),
   (0x12120, 1, 4), (0x12124, 1, 4), (0x12128, 1, 4), (0x0500C, 1, 4), (0x05018, 2, 4), (0x05020, 2, 4), (0x11004, 1,
   4), (0x11008, 1, 4), (0x11010, 1, 4), (0x11014, 1, 4), (0x11018, 1, 4), (0x1101C, 1, 4), (0x14004, 1, 4), (0x14008,
   1, 4)]


def bankRows : List (List (Nat × Nat × Nat)) :=
  [bank0, bank1, bank2, bank3, bank4, bank5, bank6, bank7, bank8, bank9, bank10, bank11]

def inRow (off : Nat) (r : Nat × Nat × Nat) : Bool :=
  decide (r.1 ≤ off) && (off - r.1) % r.2.2 == 0 && decide ((off - r.1) / r.2.2 < r.2.1)

/-- The bank that retains a register; the MSI-X table lies in bank 10. -/
def bankOf (off : Nat) : Option Nat :=
  if 0x3E000 ≤ off ∧ off < 0x3F000 then some 10
  else (List.range 12).find? (fun b => (bankRows.getD b []).any (inRow off))

/-- The registers held outside the banks: Canopy's, and the HWD block, which keeps its own state. -/
def keptAside (off : Nat) : Bool := bankCanopy.any (inRow off) || off == Reg.TOP_LOCK || off / 4096 == 0x15

/-- The registers after a wake from Glade, Clearing or Moss: those of the banks that have not failed, and those held
aside; all others return to their reset values (R406, R517). -/
def regsRestored (m : SMap Word) (bad : Nat) : SMap Word :=
  m.filter (fun p => keptAside p.1 || (match bankOf p.1 with
    | some b => !bitN bad b
    | none => false))

/-- The committed state that a failed bank loses (R406, Table RG-3). -/
def State.bankLose (s : State) (b : Nat) : State := match b with
  | 0 => { s with
      time := { s.time with net := Mapping.invalid, wall := Mapping.invalid, hist := [], histCnt := 0 },
      clk := { s.clk with kind := 0, index := 0, bw := 0, lstate := .noLeader, adopt := false, dco := 0, integ := 0, hold := 0,
                          setpt := 0, decay := none } }
  | 1 => { s with
      pwr := { s.pwr with level := 1, target := 1, raiseAt := none },
      adm := ⟨[], none⟩, lsn := { s.lsn with mode := .off, run := none } }
  | 2 => { s with ain := { s.ain with ch := [], pdm := [] } }
  | 3 => { s with aout := { s.aout with ch := [], cpStop := false } }
  | 4 => { s with spk := { s.spk with ch0 := SpkCh.reset, ch1 := SpkCh.reset } }
  | 5 => { s with
      sel := [], thk := { s.thk with tones := [] },
      trl := { s.trl with ch := [], owner := [], claim := [], rel := [], due := [] } }
  | 6 => { s with loop := [] }
  | 7 => { s with flt := { s.flt with scrubDt := s.time.dt, scrubLate := false } }
  | 8 => { s with sap := [], grove := [] }
  | 9 => { s with net := { s.net with ctx := [] } }
  | 10 => { s with host := { s.host with rings := [] } }
  | 11 => { s with blz := { s.blz with pos := 0, run := false, win := none } }
  | _ => s

/-- Every region of the table aperture returns to its reset contents in both copies (R407). -/
def State.tablesLose (s : State) : State := { s with
  thk := { s.thk with act := [], shd := [], actBus := [], shdBus := [], ramps := [], busRamps := [] },
  trl := { s.trl with shd := [], act := [], ch := [], due := [] },
  fx := ⟨[], [], []⟩,
  clip := { s.clip with shd := [], act := [], eshd := [], eact := [] },
  net := { s.net with shd := [], act := [] },
  lsn := { s.lsn with shd := [], act := [], valid := false } }

/-- DRAM contents are lost, a Deadfall dump's copy among them; what nothing has written since reads as the blank byte. -/
def State.dramLose (s : State) : State :=
  { s with dram := [], flt := { s.flt with dump := s.flt.dump.map (fun (d : Dump) => { d with dram := false }) } }

/-- The losses of a wake, by its lost mask (R406, R407). -/
def State.applyLost (s : State) (lost : Nat) : State :=
  let s : State := { s with
    regs := regsRestored s.regs lost, host := { s.host with rings := smMap s.host.rings (fun (r : Ring) => { r with code := .ok }) } }
  let s := (List.range 12).foldl (fun s b => if bitN lost b then
      (let (stored, s) := s.freeNat
       let (got, s) := s.freeNat
       (s.bankLose b).log Src.PWR 0x2005 4 (wN b) (wN stored) (wN got)) else s) s
  let s := if bitN lost 12 then s.tablesLose else s
  if bitN lost 13 then s.dramLose else s

end Sys2Proof.Machine
end

