-- ==== Sys2Proof/Machine/Power.lean ====
section
/-! DEFINITION. Performance levels, the sleep states, the entry vote, rollback, wake (chapter 13). -/
namespace Sys2Proof.Machine

/-! ## PERF_LEVEL (R383 to R385, R410) -/

/-- Core supply in mV, body bias in mV and SRAM assist of a level (Table PW-1). -/
def levelVcore (level : Nat) : Nat := match level with
  | 0 => 800 | 1 => 720 | 2 => 620 | _ => 550
def levelBias (level : Nat) (shade : Bool) : Int := match level with
  | 0 => 300 | 1 | 2 => 0 | _ => if shade then -300 else 0
def levelAssist (level : Nat) : Bool := decide (2 ≤ level)

/-- What the core's regulator is set to in the tick in force: VCORE of the level that is coming, and the assist of the level in
force (R384). -/
def State.vcoreSet (s : State) : Nat := levelVcore s.pwr.target
def State.biasSet (s : State) : Int := levelBias s.pwr.target (s.pwr.state == .shade)
def State.assistOn (s : State) : Bool := levelAssist s.pwr.level

/-- n of Table PW-2. -/
def raiseTk (rate : Nat) : Nat := match rate with
  | 0 | 1 => 5 | 2 => 9 | 3 => 10 | 4 => 18 | _ => 20

def perfLevelValid (level : Nat) : Bool := decide (level ≤ 3)

/-- R360, R385. A lower level has a higher code. -/
def perfLevelRefusal (s : State) (level : Nat) : Status :=
  if s.pwr.raiseAt.isSome || s.clk.rc.isSome || s.pwr.sleep.isSome then .busy
  else if s.pwr.level < level ∧ !s.fitsAt s.clk.rate level then .budget else .ok

/-- A refusal for budget names the first engine over the lower level's budget (R362). -/
def perfLevelRefused (h : Hdr) (level : Nat) (st : Status) (s : State) : State :=
  if st = .budget then
    let c := s.costs s.clk.rate s.thkNodes.length
    let e := (overLimit c (budgetB s.clk.rate level) (s.dramCap s.clk.rate)).getD 0
    s.budNote h 0x0201 e (c.getD e 0)
  else s

def perfLevelEffect (level : Nat) (s : State) : Done :=
  let old := s.pwr.level
  let t := s.time.ts
  if level = old then ⟨s, .ok, t, wN old, 0, false, false⟩
  else if old < level then
    let s := { s with pwr := { s.pwr with level := level, target := level, settle := true } }
    ⟨s.log Src.PWR 0x2001 1 (wN old) (wN level) t, .ok, t, wN old, 0, false, false⟩
  else
    let p := t + BitVec.ofNat 32 (raiseTk s.clk.rate)
    let s := { s with pwr := { s.pwr with target := level, raiseAt := some p, settle := true } }
    ⟨s.log Src.PWR 0x2001 1 (wN old) (wN level) p, .ok, p, wN old, 0, false, false⟩

def execPerfLevel (h : Hdr) (level : Nat) (s : State) : Host.Outcome State Fault Refusal :=
  .next (s.runCmd h (.perfLevel level) 0x0201 (perfLevelValid level) true (perfLevelRefusal s level) (perfLevelEffect level)
    (perfLevelRefused h level))

/-- Boundary P of a raise (R384). -/
def State.levelSwitch (s : State) : State := match s.pwr.raiseAt with
  | some p => if 0 ≤ tsDiff s.time.ts p then { s with pwr := { s.pwr with level := s.pwr.target, raiseAt := none } } else s
  | none => s

def execLevelRaiseSwitch (s : State) : Host.Outcome State Fault Refusal := .next s.levelSwitch

/-- VCORE and body bias have settled. -/
def execVsettleEnd (s : State) : Host.Outcome State Fault Refusal := .next { s with pwr := { s.pwr with settle := false } }

/-! ## Choosing a state (R389 to R391) -/

/-- Entry, exit and break-even time of a state, in µs (Table PW-3). -/
def entryUs (c : Nat) : Nat := match c with
  | 1 => 2 | 2 => 150 | 3 => 1200 | _ => 500
def exitUs (c : Nat) : Nat := match c with
  | 1 => 12 | 2 => 350 | 3 => 1600 | _ => 4000
def breakUs (c : Nat) : Nat := match c with
  | 1 => 50 | 2 => 2000 | 3 => 20000 | _ => 500000

/-- The DT of a tick, estimated from boundary t at DT b by TIME_TICK_PER (R389). -/
def State.estDt (s : State) (t : TS) (b : DT) (x : TS) : DT :=
  b + BitVec.ofNat 64 ((tsDiff x t).toNat * s.tickPer.toNat / 65536)

/-- The next attempt of a loudspeaker's retry schedule. -/
def State.retryDt (s : State) (n : Nat) : Option DT :=
  let c := s.spkCh n
  match c.retry with
  | .sched since =>
    if !c.giveup ∧ !c.capTrip ∧ s.triesLeft c then some (since + BitVec.ofNat 64 (attemptMs (c.tries + 1) * 1000000)) else none
  | _ => none

def minDt (a b : Option DT) : Option DT := match a, b with
  | some x, some y => some (if x.toNat ≤ y.toNat then x else y)
  | some x, none => some x
  | none, y => y

/-- The next known event, and whether it is the until time (1) (R389, R391). -/
def State.nextKnown (s : State) (t : TS) (b : DT) (until_ : Option DT) : Option DT × Nat :=
  let e := s.host.pend.foldl (fun a p => minDt a (some (s.estDt t b p.hdr.target))) none
  let e := s.host.waits.foldl (fun a w => minDt a (some (s.estDt t b w.timeout))) e
  let e := minDt (minDt e (s.retryDt 0)) (s.retryDt 1)
  match e, until_ with
  | some x, some u => if u.toNat < x.toNat then (some u, 1) else (some x, 0)
  | some x, none => (some x, 0)
  | none, some u => (some u, 1)
  | none, none => (none, 0)

/-- Does a state fit (R389)? `te` is the projected start of hardware entry. -/
def State.stateFits (s : State) (c : Nat) (te : DT) (next : Option DT) : Bool := match next with
  | none => true
  | some e => decide (te.toNat + 1000 * (breakUs c + exitUs c + s.fld Fl.PWR_SLEEP_CFG.GUARD) ≤ e.toNat)

/-- Is a state eligible (R390)? -/
def State.stateEligible (s : State) (c maxState : Nat) : Bool :=
  decide (c ≤ maxState) && (decide (c < 3) || !s.flag Fl.WAK_ARM.LISTEN) && (c != 3 || s.flag Fl.PWR_SAVE_BASE_LO.VALID)

/-- Ticks left of the running ramps of converters and serial ports, and with `all` of their state factors (R29). -/
def State.convRamps (s : State) (all : Bool) : List Nat :=
  let st (f : Factor) : List Factor := if all then [f] else []
  let f := s.ain.ch.flatMap (fun p => [p.2.mute, p.2.jack, p.2.fault, p.2.filt])
    ++ s.ain.pdm.flatMap (fun p => [p.2.mute, p.2.fault, p.2.en, p.2.filt])
    ++ s.aout.ch.flatMap (fun p => [p.2.mute, p.2.jack, p.2.fault, p.2.rfault] ++ st p.2.state)
    ++ [s.spk.ch0, s.spk.ch1].flatMap (fun c => [c.mute, c.fault, c.coil, c.die] ++ st c.state)
  let g := s.sap.flatMap (fun p => [p.2.run, p.2.port] ++ p.2.slotR.map (·.2))
  f.filterMap facLeft ++ g.filterMap grLeft

/-- Ticks left of the running ramps of the engines; 64 or fewer steps of the Trail are one tick or more. -/
def State.engineRamps (s : State) : List Nat :=
  let g := s.thk.ramps.map (·.2) ++ s.thk.busRamps.map (·.2) ++ s.thk.tones.map (·.2.level)
    ++ s.sel.flatMap (fun p => p.2.up :: p.2.fades.map (·.2))
    ++ s.fx.ch.flatMap (fun p => [p.2.fade, p.2.byp, p.2.gin, p.2.gout, p.2.mkup, p.2.dry, p.2.wet, p.2.xf, p.2.dfac])
    ++ s.clip.voices.flatMap (fun p => [p.2.gain, p.2.stop]) ++ s.clip.tails.map (·.2.fade)
  let t := s.trl.ch.flatMap (fun p => [p.2.fade, p.2.go, p.2.g0, p.2.g1, p.2.g2, p.2.g3])
  g.filterMap grLeft ++ (t.filterMap grLeft).map (fun n => ceilDiv n (stepsPerTk s.clk.rate))
    ++ s.thk.dual.map (fun p => p.2.n - p.2.i)

/-- Does one of the ramps end too early for a state deeper than Shade (R29)? -/
def State.rampBars (s : State) (c : Nat) (te : DT) (t : TS) (b : DT) (l : List Nat) : Bool :=
  decide (2 ≤ c) && l.any (fun n => !s.stateFits c te (some (s.estDt t b (s.time.ts + BitVec.ofNat 32 n))))

/-- The deepest state that fits and is eligible, and that no running ramp bars (R29, R390); 0 for none. -/
def State.chooseState (s : State) (maxState : Nat) (te : DT) (next : Option DT) : Nat :=
  let l := s.convRamps true ++ s.engineRamps
  ([4, 3, 2, 1].find? (fun c => s.stateEligible c maxState && s.stateFits c te next
    && !s.rampBars c te s.time.ts s.time.bdt l)).getD 0

/-- t_e for boundary t with a hold of h ticks. -/
def State.entryDt (s : State) (t : TS) (b : DT) (hold : Nat) : DT := s.estDt t b (t + BitVec.ofNat 32 (38 + hold))

/-! ## SLEEP (R399, R411, R531) -/

/-- Every armed port is a receive direction with ROLE 2 or 3, a pattern port has 32-bit slots, no port has both bits (R399). -/
def State.wakePortsOk (s : State) : Bool :=
  (List.range 8).all (fun p =>
    let act : Bool := bitN (s.fld Fl.WAK_SAP.ACT) p
    let pat : Bool := bitN (s.fld Fl.WAK_SAP.PAT) p
    let cfg := s.sapCfg p
    (!act && !pat) || (decide (2 ≤ scRole cfg) && !(act && pat) && (!pat || scSlotw cfg == 32)))

/-- Every armed GPIO is an input of function 0 (R531). -/
def State.wakeGpiosOk (s : State) : Bool :=
  (List.range 16).all (fun n => !bitN (s.fld Fl.WAK_GPIO.EN) n
    || (s.fld (Fl.PIN_GPIO_CFG.FUNC n) == 0 && s.fld (Fl.PIN_GPIO_CFG.DIR n) == 0))

def sleepValid (s : State) (p : SleepP) : Bool := decide (1 ≤ p.maxState) && decide (p.maxState ≤ 4) && s.wakePortsOk
def sleepRefusal (s : State) : Status :=
  if !s.wakeGpiosOk then .conflict
  else if s.pwr.raiseAt.isSome || s.clk.rc.isSome || s.pwr.sleep.isSome then .busy else .ok

/-- Bytes 16 to 19 and 20 to 23 of the result of a SLEEP (Table PW-9). -/
def sleepR0 (state source lost : Nat) : Word := wN (state + 256 * source + 65536 * lost)
def sleepR1 (block reason : Nat) : Word := wN (block + 256 * reason)

/-- SLEEP at its commit boundary T: the choice, and the start of the vote (R389, R390, R393, R396, R413). -/
def sleepEffect (h : Hdr) (p : SleepP) (s : State) : Done :=
  let t := s.time.ts
  let b := s.time.bdt
  let until_ := if p.hasUntil then some p.untilDt else none
  let (next, src) := s.nextKnown t b until_
  let c := s.chooseState p.maxState (s.entryDt t b 0) next
  let s := s.wr64 Reg.PWR_NEXT_LO Reg.PWR_NEXT_HI (next.getD (BitVec.ofNat 64 (2 ^ 64 - 1)))
  if c = 0 then ⟨s, .ok, sleepR0 0 0xFF 0, sleepR1 0xFF 0, 0, true, false⟩
  else
    let deep : Bool := decide (3 ≤ c)
    let z : SleepSt := {
      hdr := h, t := t, tdt := b, chosen := c, untilDt := until_, hold := 0, holding := deep, turn := 1, convOn := false,
      early := deep, next := next, nextSrc := src, arm := s.rd Reg.WAK_ARM, armSap := s.rd Reg.WAK_SAP,
      armGpio := s.rd Reg.WAK_GPIO, entry := b, ready := false, inNs := 0, back := none }
    let s := if deep then s.complete h 0x0202 .ok t b (sleepR0 c 0xFF 0) (sleepR1 0xFF 0) 0 true else s
    let s := { s with pwr := { s.pwr with state := .entering, sleep := some z, wake := none, lost := 0 } }
    laterDone s.lsnSleep

def execSleep (h : Hdr) (p : SleepP) (s : State) : Host.Outcome State Fault Refusal :=
  .next (s.runCmd h (.sleep p) 0x0202 (sleepValid s p) true (sleepRefusal s) (sleepEffect h p))

/-! ## The vote (R392 to R397) -/

/-- Is a ramp, fader, dual feed, crossfade or tone running, a voice, tail or take playing, a Trail channel enabled, a
LOOP_COMMIT running (turn 4)? -/
def State.enginesBusy (s : State) : Bool :=
  !s.thk.ramps.isEmpty || !s.thk.busRamps.isEmpty || !s.thk.dual.isEmpty
    || s.sel.any (fun p => grRuns p.2.up || !p.2.fades.isEmpty || p.2.follow.isSome)
    || s.thk.tones.any (fun p => p.2.wave != 0)
    || s.trl.ch.any (fun p => p.2.en || grRuns p.2.fade || p.2.xf.isSome || grRuns p.2.go || grRuns p.2.g0 || grRuns p.2.g1
        || grRuns p.2.g2 || grRuns p.2.g3)
    || s.fx.ch.any (fun p => let x := p.2
        grRuns x.fade || grRuns x.byp || grRuns x.gin || grRuns x.gout || grRuns x.mkup || grRuns x.dry || grRuns x.wet
          || x.old.isSome || grRuns x.dfac)
    || !s.clip.voices.isEmpty || !s.clip.tails.isEmpty
    || s.loop.any (fun p => p.2.run.isSome || p.2.play.isSome)

/-- Is a sequence or gain move, a jack insertion or removal, or a loudspeaker probe running (turn 5)? -/
def State.convertersBusy (s : State) : Bool :=
  let jack (x : HpJack) : Bool := x.rem.isSome || x.remReq || x.phase == .debounce || x.phase == .identified
    || x.phase == .measured || x.phase == .present || x.phase == .afterWake
  s.ain.ch.any (fun p => p.2.seq.isSome || p.2.gain != ainGainTarget p.2)
    || s.ain.pdm.any (fun p => p.2.seq.isSome)
    || s.aout.ch.any (fun p => p.2.seq.isSome || p.2.rng.isSome)
    || jack s.aout.hp0 || jack s.aout.hp1
    || [s.spk.ch0, s.spk.ch1].any (fun c => c.seq.isSome || isProbe c.retry)

/-- Does a block refuse at its turn (Table PW-4)? The reason, 0 for yes. -/
def State.voteReason (s : State) (z : SleepSt) : Nat := match z.turn with
  | 1 =>
    if !s.host.picked.isEmpty || !s.host.commit.isEmpty
        || s.host.rings.any (fun p => p.2.blk.any (fun b => b.running && !b.dead) || p.2.queue.any (fun d => !d.ended)) then 1
    else if 3 ≤ z.chosen ∧ s.host.speed ≠ 0 then 2 else 0
  | 2 => if s.net.ctx.any (fun p => ctxUp p.2) || s.host.rings.any (fun p => p.2.ntx.any (fun b => !b.dead)) then 3 else 0
  | 3 => if s.sap.any (fun p => p.2.runOn) || s.grove.any (fun p => p.2.state == .running) then 4 else 0
  | 4 => if s.enginesBusy then 5 else 0
  | 5 => if s.convertersBusy then 6 else 0
  | _ => if s.host.rings.any (fun p => p.2.blk.any (fun b => b.running && !b.dead)) || s.loop.any (fun p => p.2.run.isSome) then 7 else 0

def State.setSleep (s : State) (z : SleepSt) : State := { s with pwr := { s.pwr with sleep := some z } }

/-- SLEEP_ROLLBACK (R395): the refusal of the block of the turn, in the tick in force. -/
def State.sleepRefuse (s : State) (z : SleepSt) (reason : Nat) : State :=
  let b := z.turn - 1
  let s := (s.bump Reg.PWR_ABORTCNT).bump (Reg.PWR_REFUSE b)
  let s := s.wr Reg.PWR_LAST_REFUSE (wN (b + 256 * z.chosen + 65536 * reason))
  let s := (s.wr Reg.PWR_LAST_REFUSE_TS32 s.time.ts).log Src.PWR 0x2004 2 (wN b) (wN reason) (wN z.chosen)
  let s := s.setSleep { z with back := some ⟨s.time.ts + 1, b, reason, b⟩ }
  { s with pwr := { s.pwr with state := .rolling } }

/-- What a block does when it votes yes (Table PW-4). -/
def State.voteYes (s : State) (z : SleepSt) : State :=
  let s := s.setSleep { z with turn := z.turn + 1 }
  match z.turn with
  | 4 => { s with inter := [], interOld := [], inter2 := [] }
  | 6 => if 2 ≤ z.chosen ∧ z.chosen ≤ 3 ∧ bitN (s.rd Reg.MEM_STATUS).toNat 0 then
      s.wr Reg.MEM_STATUS (withBits (s.rd Reg.MEM_STATUS) 1 1 1) else s
  | _ => s

/-- Ticks from T + H to a turn. -/
def turnTk (turn : Nat) : Nat := match turn with
  | 1 => 0 | 2 => 1 | 3 => 2 | 4 => 3 | 5 => 4 | 6 => 37 | _ => 38

/-- The vote of the turn that is due, in the tick in force: first whether the chosen state still fits (R394), then the
block's own condition. The converters vote yes 32 ticks after their turn began (R115). -/
def State.voteTurn (s : State) : State := match s.pwr.sleep with
  | none => s
  | some z =>
    let d := tsDiff s.time.ts (z.t + BitVec.ofNat 32 z.hold)
    if s.pwr.state ≠ .entering ∨ z.holding ∨ 7 ≤ z.turn ∨ d < turnTk z.turn then s
    else if z.turn = 5 ∧ z.convOn then (if d < 36 then s else s.voteYes z)
    else
      let (next, src) := s.nextKnown z.t z.tdt z.untilDt
      let z := { z with next := next, nextSrc := src }
      let s := s.setSleep z
      let te := s.entryDt z.t z.tdt z.hold
      if !s.stateFits z.chosen te next || s.rampBars z.chosen te z.t z.tdt (s.convRamps false) then s.sleepRefuse z 9
      else
        let r := s.voteReason z
        if r ≠ 0 then s.sleepRefuse z r
        else if z.turn = 5 then (s.stateFactors 0 32).setSleep { z with convOn := true }
        else s.voteYes z

def execSleepVoteTurn (s : State) : Host.Outcome State Fault Refusal := .next s.voteTurn

/-- The hold of the host-rings turn ends: the link is in L2 or down, or LINK_WAIT has passed (R393). -/
def execSleepLinkHoldEnd (linkAway : Bool) (s : State) : Host.Outcome State Fault Refusal :=
  match s.pwr.sleep with
  | some z =>
    let ended : Bool := decide (z.tdt.toNat + s.fld Fl.PWR_SLEEP_CFG.LINK_WAIT * 1000000 ≤ s.time.dt.toNat)
    if z.holding ∧ (if linkAway then s.host.speed = 0 else ended = true) then
      .next (s.setSleep { z with holding := false, hold := (tsDiff s.time.ts z.t).toNat })
    else .next s
  | none => .next s

/-- A block resumes in a rollback: the converters' state factors ramp up from there (Table AO-6). -/
def State.blockResume (s : State) (i : Nat) : State := if i = 4 then s.stateFactors 1 32 else s

/-- The rollback at a boundary: one block a tick, the last to vote first; the SLEEP ends when the host rings resume, and an
event latched before is one that came while awake (R395, R396). -/
def State.rollTick (s : State) : State := match s.pwr.sleep with
  | none => s
  | some z => match z.back with
    | none => s
    | some r =>
      if tsDiff s.time.ts r.b < 0 then s
      else
        let s := if s.time.ts = r.b then ({ s with pwr := { s.pwr with wake := none } }).lsnAwake s.time.bdt else s
        let s := if r.left = 0 then s else s.blockResume (r.left - 1)
        let s := s.setSleep { z with back := some { r with left := r.left - 1 } }
        if 1 < r.left then s
        else
          let s := { s with pwr := { s.pwr with state := .awake, sleep := none } }
          if z.early then s
          else s.complete z.hdr 0x0202 .aborted s.time.ts s.time.bdt (sleepR0 0 0xFF 0) (sleepR1 r.block r.reason) 0 true

/-! ## Hardware entry (R386, R392, R396, R405, R406) -/

/-- Every loaded key slot is erased (R499): 0 sleep, 1 reset, 2 debug unlock. -/
def State.keysErase (s : State) (why : Nat) (dt : DT) : State :=
  let n := s.hwd.keys.length
  if n = 0 then s
  else
    let s := { s with hwd := { s.hwd with keys := [], keysLost := true } }
    s.logAt Src.HWD 0xF005 3 dt (wN n) (wN why) 0

/-- Heartwood is not powered in Clearing and Moss (DEDUCED, log entry 175). -/
def State.hwdStop (s : State) : State := { s with hwd := { s.hwd with running := false, devKeys := none } }

/-- Milliseconds from one DT to another, saturated; none: all ones. -/
def msWord (a : DT) (b : Option DT) : Word := match b with
  | none => 0xFFFFFFFF
  | some d => wN (min ((d.toNat - a.toNat) / 1000000) (2 ^ 32 - 1))

/-- HARDWARE_ENTRY: boundary T+38, the last real one for the states deeper than Shade. -/
def execHardwareEntry (dt : DT) (s : State) : Host.Outcome State Fault Refusal :=
  let s := s.advance dt
  match s.pwr.sleep with
  | some z =>
    if s.pwr.state = .entering ∧ z.turn = 7 ∧ 38 ≤ tsDiff s.time.ts (z.t + BitVec.ofNat 32 z.hold) then
      let s := s.setSleep { z with turn := 8, entry := dt }
      let s := (s.bump (Reg.PWR_ENTERCNT1 (z.chosen - 1))).logAt Src.PWR 0x2002 1 dt (wN z.chosen) s.time.ts (msWord dt z.next)
      let s := if 3 ≤ z.chosen then ((s.lsnSuspend z.chosen dt).keysErase 0 dt).hwdStop else s
      let s := s.boostSleep z.chosen
      if z.chosen = 1 then .next s
      else
        let s := { s with
          time := { s.time with
            running := false, vrate := s.clk.rate, lastTs := s.time.ts, lastDt := s.time.bdt, keeper := decide (3 ≤ z.chosen),
            handDt := s.time.dt },
          host := { s.host with fresh := false, issued := false },
          clk := { s.clk with lock := false }, pwr := { s.pwr with saved := true } }
        .next (if z.chosen = 4 then s.dramLose else s)
    else .next s
  | none => .next s

/-- The state of a code. -/
def stateOf (c : Nat) : PState := match c with
  | 1 => .shade | 2 => .glade | 3 => .clearing | _ => .moss

/-- HARDWARE_ENTRY_END: an event latched during entry starts the exit at once (R396). -/
def execHardwareEntryEnd (dt : DT) (s : State) : Host.Outcome State Fault Refusal :=
  let s := s.advance dt
  match s.pwr.sleep with
  | some z =>
    if s.pwr.state = .entering ∧ z.turn = 8 ∧ z.entry.toNat + 1000 * entryUs z.chosen ≤ dt.toNat then
      let s := s.setSleep { z with ready := true }
      let p := { s.pwr with state := stateOf z.chosen, stepDt := dt }
      .next (if s.pwr.wake.isSome ∧ z.chosen ≠ 1 then
          { s with pwr := { p with state := .waking, left := z.chosen, step := 1, run := 1 } }
        else { s with pwr := p })
    else .next s
  | none => .next s

/-! ## Wake sources of their own (R391, R399, R400) -/

/-- CANOPY_TIMER: the next known event, less GUARD, less the exit time. -/
def execCanopyTimer (dt : DT) (s : State) : Host.Outcome State Fault Refusal :=
  let s := s.advance dt
  match s.pwr.sleep with
  | some z => match z.next with
    | some e =>
      if 7 ≤ z.turn ∧ e.toNat ≤ dt.toNat + 1000 * (s.fld Fl.PWR_SLEEP_CFG.GUARD + exitUs z.chosen) then
        .next (s.wakeFire z.nextSrc 0 dt)
      else .next s
    | none => .next s
  | none => .next s

/-- GPIO_WAKE_LEVEL: an armed pin has held the level of POL for 1 ms. -/
def execGpioWakeLevel (pin : Nat) (dt : DT) (s : State) : Host.Outcome State Fault Refusal :=
  .next ((s.advance dt).wakeFire 9 pin dt)

/-- SAP_WAKE_ACTIVITY: 16 consistent leading edges on an armed port. -/
def execSapWakeActivity (port : Nat) (dt : DT) (s : State) : Host.Outcome State Fault Refusal :=
  .next ((s.advance dt).wakeFire 4 port dt)

/-- SAP_WAKE_PATTERN: the wake pattern in four consecutive frames. -/
def execSapWakePattern (port : Nat) (dt : DT) (s : State) : Host.Outcome State Fault Refusal :=
  .next ((s.advance dt).wakeFire 5 port dt)

/-! ## Exit (R401 to R403) -/

/-- Limits of the exit steps in µs (Table PW-6); code 0 is a start after reset, which runs the Moss exit (R409). -/
def stepUs (code step : Nat) : Nat := match code, step with
  | 2, 1 => 120 | 2, 2 => 150 | 2, 3 => 20 | 2, _ => 60
  | 3, 1 => 120 | 3, 2 => 1050 | 3, 3 => 250 | 3, _ => 180
  | _, 1 => 300 | _, 2 => 1050 | _, 3 => 2200 | _, _ => 450

/-- The events that Canopy held are staged ahead of any new event (R445). -/
def State.canopyStage (s : State) : State :=
  let l := s.blz.canopy
  l.foldl (fun s e => s.stage e) { s with blz := { s.blz with canopy := [] } }

/-- A start of Heartwood: the device keys are derived again (R490). -/
def State.hwdStart (s : State) : State :=
  { s with hwd := { s.hwd with running := true, devKeys := some (deviceKeys s.hwd.fuses.seed) } }

/-- Step 4 of a wake (R401, R406, R407, R445): the banks are restored and checked, tables and DRAM that are lost return to
their reset contents, the house PLL is locked, and the first real boundary is placed (R53). -/
def State.wakeStep4 (s : State) (badBanks : BitVec 12) (dt : DT) : State :=
  let lost := Nat.lor (Nat.lor s.pwr.lost.toNat badBanks.toNat) (if s.pwr.left = 4 then 0x3000 else 0)
  let s := { s with pwr := { s.pwr with step := 5, lost := BitVec.ofNat 16 lost, saved := false } }
  let s := (s.canopyStage).applyLost lost
  let s := if 3 ≤ s.pwr.left then s.enginesClear.hwdStart else s
  let s := s.wr Reg.MEM_STATUS (wN (if s.flag Fl.MEM_CFG.EN && s.sup.vdd2 && s.sup.vddq then 1 else 0))
  let w : TS := s.time.ts + BitVec.ofNat 32 (virtCeil s dt)
  { s with time := { s.time with placed := some w, keeper := false }, clk := { s.clk with lock := true } }

/-- Step 4 of a start after reset (R409, R491): Heartwood runs; the device waits for set-up. A RECOVER that asked for the
reset has ended (R380). -/
def State.startStep4 (s : State) : State :=
  let (nonce, s) := s.freeNat
  let s := { s with
    pwr := { s.pwr with state := .awake, step := 0, run := 0 },
    hwd := { s.hwd with nonce := BitVec.ofNat 64 nonce } }.hwdStart
  s.canopyStage.recoverEnd 3

/-- EXIT_STEP_READY. -/
def execExitStepReady (badBanks : BitVec 12) (saveUe : Bool) (dt : DT) (s : State) : Host.Outcome State Fault Refusal :=
  let s := s.advance dt
  let p := s.pwr
  if p.state = .waking ∧ 1 ≤ p.step ∧ p.step ≤ 4 then
    let s := if p.step = 3 ∧ p.left = 3 ∧ saveUe then { s with pwr := { s.pwr with lost := s.pwr.lost ||| 0x1000 } } else s
    if p.step < 4 then .next { s with pwr := { s.pwr with step := p.step + 1, stepDt := dt } }
    else if p.left = 0 then .next s.startStep4
    else .next (s.wakeStep4 badBanks dt)
  else .next s

/-- EXIT_STEP_TIMEOUT (R402). -/
def execExitStepTimeout (dt : DT) (s : State) : Host.Outcome State Fault Refusal :=
  let s := s.advance dt
  let p := s.pwr
  if p.state = .waking ∧ 1 ≤ p.step ∧ p.step ≤ 4 ∧ p.stepDt.toNat + 4000 * stepUs p.left p.step ≤ dt.toNat then
    if p.run = 1 then .next { s with pwr := { p with step := 1, run := 2, stepDt := dt } }
    else
      let s := { s with pwr := { p with state := if p.left = 0 then .moss else stateOf p.left, step := 0, failed := true } }
      let s := (s.fltSet Fl.FLT_FAULT.WAKE_FAIL).logAt Src.PWR 0x2006 5 dt (wN p.left) (wN p.step) (wN p.run)
      .next (s.deadfall 6 dt)
  else .next s

/-- What the first awake boundary does (R403): W is its tick and `dt` its DT. -/
def State.awake (s : State) (w : TS) (dt : DT) : State := match s.pwr.sleep with
  | none => s
  | some z =>
    let p := s.pwr
    let e : WakeEv := p.wake.getD ⟨0, 0, dt, false⟩
    let code := z.chosen
    let lost := p.lost.toNat
    let s := { s with time := { s.time with ts := w, bdt := dt, running := true, hadTick := true, placed := some w, exact := dt.toNat, bdts := [dt] } }
    let hold (c : SpkCh) : SpkCh := { c with state := Factor.zero, wake := some dt }
    let s := (s.updSpk 0 hold).updSpk 1 hold
    let ns := z.inNs
    let tot := smGet p.resNs code 0 + ns
    let s := s.wr (Reg.PWR_RESIDENT1 (code - 1)) (wN (min (tot / 1000000) (2 ^ 32 - 1)))
    let wakeN : Bool := decide (3 ≤ code) && s.host.speed == 0 && bitN z.arm.toNat 0 && e.bit != 2
    let s := { s with pwr := { s.pwr with
      state := .awake, sleep := none, wake := none, step := 0, run := 0, lost := 0, resNs := smSet p.resNs code tot,
      wakeN := p.wakeN || wakeN, woke := true } }
    let s := s.wr Reg.PWR_WAKE_STAT (wN (code + 8 * wB e.early + 16 * wB (p.run == 2) + 256 * e.bit + 65536 * lost))
    let s := ((s.wr Reg.PWR_WAKE_TS32 w).wr64 Reg.PWR_WAKE_DT_LO Reg.PWR_WAKE_DT_HI dt).wr64 Reg.PWR_WAKE_SRC_DT_LO Reg.PWR_WAKE_SRC_DT_HI e.dt
    let s := s.alertSet Fl.TWB_ALERT.WAKE
    let s := s.logAt Src.PWR 0x2003 1 dt (wN code) (wN e.bit) (wN lost)
    let s := s.logAt Src.WAK 0xC001 1 e.dt (wN e.bit) (wN (wakeNum e.bit e.num)) (wN (wB e.early))
    let s := (s.lsnResume code dt).lsnAwake dt
    if z.early then s
    else s.completeOpen z.hdr 0x0202 .ok w dt (sleepR0 code e.bit lost) (sleepR1 0xFF 0) (wN (min (ns / 1000000) (2 ^ 32 - 1))) true

def State.setWoke (s : State) (b : Bool) : State := { s with pwr := { s.pwr with woke := b } }

/-- WAKE_BOUNDARY: the first real boundary W after Glade, Clearing or Moss, at the DT of its virtual boundary (R53, R403). -/
def execWakeBoundary (dt : DT) (s : State) : Host.Outcome State Fault Refusal :=
  match s.time.placed with
  | some w =>
    if s.pwr.state = .waking ∧ s.pwr.step = 5 ∧ !s.time.running then
      let d := virtDt s (w - s.time.ts).toNat
      .next ((s.advance d).awake w d)
    else .next (s.advance dt)
  | none => .next (s.advance dt)

/-- SHADE_EXIT: the first boundary at least 12 µs after the event that ended Shade (R387, R403). -/
def execShadeExit (source : Nat) (dt : DT) (s : State) : Host.Outcome State Fault Refusal :=
  let s := s.advance dt
  match s.pwr.wake with
  | some e =>
    let d := s.boundaryDt dt
    if s.pwr.state = .shade ∧ e.bit = source ∧ s.pwr.stepDt.toNat + 12000 ≤ d.toNat then
      let t := (s.advance d).awake (s.time.ts + 1) d
      .next { t with time := { t.time with
        bdts := (d :: s.time.bdts).take 1025, exact := s.tickDue, pers := s.periodsWith d } }
    else .next s
  | none => .next s

/-! ## Registers -/

end Sys2Proof.Machine
end

