-- ==== Sys2Proof/Machine/Resets.lean ====
section
/-! DEFINITION. The supplies and the resets (R409, R480, R481, R517, R543, R544), the timed pin outputs (R528). -/
namespace Sys2Proof.Machine

/-! ## Output channels (R483) -/

/-- Channels of a mask of n. -/
def bitsOn (w : Word) (n : Nat) : List Nat := (List.range n).filter (bitN w.toNat)

/-- The sinks of the output channels: enabled line, hp and spk channels, enabled slots of running transmit directions,
channels of running talkers, channels of enabled capture rings. -/
def State.outputs (s : State) : List Nat :=
  let conv := (List.range 12).filterMap (fun n =>
    if cfgEn (s.rd (Reg.AOUT_CFG n)) then some (if n < 8 then addrOf 0x20 n else addrOf 0x21 (n - 8)) else none)
  let spk := (List.range 2).filterMap (fun n => if cfgEn (s.rd (Reg.SPK_CFG n)) then some (addrOf 0x22 n) else none)
  let sap := (s.sap.filter (fun p => decide (8 ≤ p.1) && p.2.state == .running)).flatMap (fun p =>
    (bitsOn (s.rd (sapSlotsReg p.1)) (scNslots (s.sapCfg p.1))).map (fun i => addrOf 0x23 (32 * (p.1 - 8) + i)))
  let net := (s.net.ctx.filter (fun p => p.2.state == .running && cxTalker (s.ctxWord p.1))).flatMap (fun p =>
    (List.range (cxChans (s.ctxWord p.1))).map (fun i => addrOf 0x24 (cxFirst (s.ctxWord p.1) + i)))
  let cap := ((s.ringsOf 3).filter (fun n => (s.ring n).state == .running)).flatMap (fun n =>
    (List.range (s.rsCount n)).map (fun i => addrOf 0x25 (s.rsFirst n + i)))
  conv ++ spk ++ sap ++ net ++ cap

/-! ## Resets of code 1 to 3 (R480, R481, R517) -/

/-- BLZ_BOOT (Table BZ-3): the reset kind, firmware version 0 since no core runs, the last sequence number before. -/
def State.bootEv (s : State) (code : Nat) (dt : DT) : Ev :=
  ⟨Src.BLZ, 0xD004, 2, dt, s.time.epoch, wN code, 0, s.blz.seqNext - 1, false, 1⟩

/-- A reset of code 1, 2 or 3: what Tables FT-6 and RG-2 keep, everything else at its reset value. -/
def State.resetTo (s : State) (code : Nat) (dt : DT) : State :=
  let s := (s.advance dt).keysErase 1 s.time.dt
  let d := s.time.dt
  let z := State.reset
  let cnt := min (s.fld Fl.TOP_RESET.COUNT + 1) 0xFFFF
  let dram : Bool := (s.rd Reg.MEM_STATUS).toNat != 0
  let outs := if s.flt.rstOuts = 0 then s.outputs.length else s.flt.rstOuts
  let outTs := if s.flt.rstOuts = 0 then s.tsNow else s.flt.rstTs
  let t : State := { z with
    time := { z.time with
      dt := d, hadTick := s.time.hadTick, ts := s.time.ts, bdt := s.time.bdt, lastTs := s.time.ts, lastDt := s.time.bdt,
      vrate := if s.time.running then s.clk.rate else s.time.vrate, epoch := s.time.epoch, past := s.time.past },
    aout := { z.aout with vcm := s.aout.vcm },
    spk := { z.spk with bst := s.spk.bst, pvdd := s.spk.pvdd, pvddBad := s.spk.pvddBad },
    dram := s.dram,
    hwd := { z.hwd with fuses := s.hwd.fuses },
    flt := { z.flt with good := s.flt.good, bad := s.flt.bad, ext := s.flt.ext, host := s.flt.host, rstOuts := outs, rstTs := outTs },
    twb := { z.twb with sel := s.twb.sel, recover := if code = 2 then s.twb.recover else none },
    host := { z.host with perst := s.host.perst },
    lsn := { z.lsn with blocks := s.lsn.blocks, seq := s.lsn.seq },
    blz := { z.blz with
      queues := s.blz.queues, canopy := s.blz.canopy, store := s.blz.store, seqNext := s.blz.seqNext, drop := s.blz.drop,
      seals := s.blz.seals, sealFirst := !s.blz.seals.isEmpty, boot := some (s.bootEv code d), span := s.blz.span,
      prevSeal := s.blz.prevSeal, sealSeq := s.blz.sealSeq, evt := s.blz.evt },
    sup := s.sup, free := s.free, pending := s.pending }
  let t := (t.setFld Fl.TOP_RESET.COUNT cnt).setFld Fl.TOP_RESET.KIND code
  let t := t.wr Reg.TIME_DT_HI (s.rd Reg.TIME_DT_HI)
  if dram && decide (code ≤ 2) then t.wr Reg.MEM_STATUS 2 else t

/-- The device leaves reset when VSYS, the digital-die supply and VIO2 are valid and RESET_N is released: it runs the
steps of the Moss exit at L1 (R409, R544). -/
def State.startIf (s : State) (dt : DT) : State :=
  if s.sup.canopy && s.sup.core && s.sup.vsys && s.sup.vio2 && !s.sup.resetN && !s.hwd.running && s.pwr.state == .awake then
    { s with pwr := { s.pwr with state := .waking, left := 0, step := 1, run := 1, stepDt := dt } }
  else s

/-! ## The reset pin and the supplies -/

/-- VSYS has become valid after being below its range: the cold reset. The queue of commands, the fuses and the model's
counter of free values are not the device's volatile state; RESET_N is as the board drives it, and every other rail is
judged anew. -/
def execColdStart (sel : BitVec 3) (s : State) : Host.Outcome State Fault Refusal :=
  .next (if !s.sup.canopy then
    { State.reset with
      free := s.free, pending := s.pending, hwd := { HwdSt.reset with fuses := s.hwd.fuses }, twb := { TwbSt.reset with sel := sel },
      sup := { SupSt.reset with resetN := s.sup.resetN } }
  else s)

/-- VSYS falls below its core threshold, or below its Canopy threshold as well (R543). -/
def execVsysLoss (canopy : Bool) (s : State) : Host.Outcome State Fault Refusal :=
  let t := if s.sup.core then s.resetTo 3 s.time.dt else s
  .next { t with sup := { t.sup with vsys := false, core := false, canopy := t.sup.canopy && !canopy } }

/-- RESET_N asserts for at least 10 us (R481, R555). -/
def execResetNAssert (dt : DT) (s : State) : Host.Outcome State Fault Refusal :=
  let t := s.resetTo 1 dt
  .next { t with sup := { t.sup with resetN := true } }

/-- RESET_N is released; the select pins are sampled (R364). -/
def execResetNRelease (sel : BitVec 3) (dt : DT) (s : State) : Host.Outcome State Fault Refusal :=
  let s := s.advance dt
  if s.sup.resetN then
    .next (({ s with sup := { s.sup with resetN := false }, twb := { s.twb with sel := sel } }).startIf s.time.dt)
  else .next s

/-- The digital-die supply is lost while VSYS holds. -/
def execCoreSupplyLoss (dt : DT) (s : State) : Host.Outcome State Fault Refusal :=
  if s.sup.core then
    let t := s.resetTo 3 dt
    .next { t with sup := { t.sup with core := false } }
  else .next (s.advance dt)

/-- VSYS or the digital-die supply returns while Canopy held. -/
def execCoreSupplyReturn (dt : DT) (s : State) : Host.Outcome State Fault Refusal :=
  let s := s.advance dt
  if s.sup.canopy then .next (({ s with sup := { s.sup with core := true, vsys := true } }).startIf s.time.dt) else .next s

/-- VIO2 falls below valid: its pins are released, the link is lost, audio goes on (R543). -/
def execVio2Loss (s : State) : Host.Outcome State Fault Refusal :=
  let s : State := { s with sup := { s.sup with vio2 := false, vio2Hi := false } }
  if s.host.speed = 0 then .next s
  else .next (({ s with host := { s.host with speed := 0, width := 0 } }).linkLost 0 s.time.dt)

/-- VIO2 becomes valid; `high` when it is at or above 2.7 V. -/
def execVio2Valid (high : Bool) (s : State) : Host.Outcome State Fault Refusal :=
  .next (({ s with sup := { s.sup with vio2 := true, vio2Hi := high } }).startIf s.time.dt)

/-- Does the DRAM controller run: enabled, with both rails valid (R544)? -/
def State.memReady (s : State) : State :=
  if s.flag Fl.MEM_CFG.EN && s.sup.vdd2 && s.sup.vddq then s.wr Reg.MEM_STATUS 1 else s

/-- VDD2 or VDDQ falls below valid: READY clears; reads that then find no codeword are DRAM_UE (R543, Table FT-1). -/
def execDramSupplyLoss (vddq : Bool) (s : State) : Host.Outcome State Fault Refusal :=
  let s : State := { s with sup := if vddq then { s.sup with vddq := false } else { s.sup with vdd2 := false } }
  .next (s.wr Reg.MEM_STATUS (withBits (s.rd Reg.MEM_STATUS) 0 1 0))

/-- VDD2 or VDDQ becomes valid: an enabled controller starts (R544). -/
def execDramSupplyValid (vddq : Bool) (s : State) : Host.Outcome State Fault Refusal :=
  .next ({ s with sup := if vddq then { s.sup with vddq := true } else { s.sup with vdd2 := true } } : State).memReady

/-- A write of 1 to FLT_CTRL.DEV_RESET, or RECOVER action 3: a reset of code 2, released at once (R480). -/
def State.devReset (s : State) (dt : DT) : State :=
  let t := s.resetTo 2 dt
  t.startIf t.time.dt



/-- The first real boundary after a release ends the output ticks that the reset counts (R483). -/
def State.resetTicks (s : State) : State :=
  if s.flt.rstOuts = 0 then s
  else { s with flt := { s.flt with
    bad := min (s.flt.bad + s.flt.rstOuts * (s.time.ts - s.flt.rstTs).toNat) (2 ^ 64 - 1), rstOuts := 0 } }

/-! ## Timed pin outputs (R528) -/

/-- NET_PPS: a DT within one reference cycle at which a valid network mapping reaches a whole second. -/
def execNetPps (dt : DT) (s : State) : Host.Outcome State Fault Refusal :=
  let s := s.advance dt
  let v := mapRead s.time.net dt
  let off := v % (oneSecond : Int)
  if s.time.net.valid ∧ (off ≤ 41 ∨ (oneSecond : Int) - 41 ≤ off) then
    .next (s.pinPulse 3 0 (dt + BitVec.ofNat 64 10000000))
  else .next s

/-- The high period of a pin ends. -/
def execGpioPulseEnd (pin : Nat) (dt : DT) (s : State) : Host.Outcome State Fault Refusal :=
  let s := s.advance dt
  match smGet? s.pin.high pin with
  | some d => if d.toNat ≤ dt.toNat then .next { s with pin := { s.pin with high := smDel s.pin.high pin } } else .next s
  | none => .next s

end Sys2Proof.Machine
end

