-- ==== Sys2Proof/Machine/Access.lean ====
section
/-! DEFINITION. Accesses to BAR0 and to the table aperture (R11, R12, R175, R310, R388, R510 to R516, R520, R529,
R530): what a write of the host, of the two-wire target or of a signed configuration does to a register, and what a read
returns. -/
namespace Sys2Proof.Machine

/-! ## Writing fields (R11, R12, R516) -/

/-- Who writes a register. -/
inductive Writer where
  | host | target | config
  deriving DecidableEq, BEq, Repr

/-- A state and whether the write was a bad one (R12). -/
structure Wrote where
  st  : State
  bad : Bool

/-- Are the RWL fields closed to a writer (R495, R516)? -/
def State.rwlClosed (s : State) (who : Writer) : Bool := s.locked || (s.signedOnly && who != .config)

/-- What a field holds after a write of v, none for a value that R12 refuses. -/
def rangeNew (r : Range) (v : Nat) : Option Nat := match r with
  | .any => some v
  | .max hi => if v ≤ hi then some v else none
  | .range lo hi => if lo ≤ v ∧ v ≤ hi then some v else none
  | .clamp lo hi => some (clampN lo hi v)
  | .source => if srcOk (BitVec.ofNat 16 v) then some v else none

/-- The word that a write leaves, whether a field refused its value, and whether the write carries an RWL bit that
differs and that is closed (R12, R516). W1S fields are left to their own rules. -/
def fieldsNew (fs : List FldDef) (closed : Bool) (old v : Word) : Word × Bool × Bool :=
  fs.foldl (fun (a : Word × Bool × Bool) f =>
    let x := bitsOf v f.lo f.w
    let cur := bitsOf old f.lo f.w
    let put : Word × Bool × Bool := match rangeNew f.rng x with
      | some n => (withBits a.1 f.lo f.w n, a.2)
      | none => (a.1, true, a.2.2)
    match f.acc with
    | .rw => put
    | .rwl => if closed then (a.1, a.2.1, a.2.2 || x != cur) else put
    | .w1c => (withBits a.1 f.lo f.w (Nat.land cur (Nat.xor x (2 ^ f.w - 1))), a.2)
    | .w1s => a) (old, false, false)

/-- A write ignored or refused for the lock (R516, R523). -/
def State.lockedWrite (s : State) (off : Nat) (who : Writer) : State :=
  let s := s.bump Reg.TOP_LOCKED_WRCNT
  s.logLim Src.TOP 0x0002 3 0 3 1 s.time.dt (wN off) (wN (wB (who == .target))) (s.rd Reg.TOP_LOCKED_WRCNT)

/-! ## Registers with rules of their own -/

/-- Registers that only commands change while RUN is set (R105, R128, R164, R180, R268, R438). -/
def runFixed (off : Nat) : Bool :=
  (decide (0x4040 ≤ off) && decide (off < 0x4068)) || (decide (0x40C0 ≤ off) && decide (off < 0x40E0))
    || (decide (0x5040 ≤ off) && decide (off < 0x5070)) || (decide (0x6040 ≤ off) && decide (off < 0x6048))
    || (decide (0x7200 ≤ off) && decide (off < 0x7800))
    || (decide (0xC000 ≤ off) && decide (off < 0xE000) && decide (off % 0x400 < 0x20))
    || off == Reg.WAK_LSN_CTRL || off == Reg.WAK_LSN_MASK

/-- BASE and STREAM of an enabled ring (R317). -/
def State.ringFixed (s : State) (off : Nat) : Bool :=
  decide (0x10400 ≤ off) && decide (off < 0x10C00) && s.ringEn ((off - 0x10400) / 32)
    && (off % 32 == 0 || off % 32 == 4 || off % 32 == 12)

/-- The doorbell and consumer page addresses, while DB_EN is set (R346). -/
def State.pageFixed (s : State) (off : Nat) : Bool :=
  s.flag Fl.HST_CTRL.DB_EN && (off == Reg.HST_DB_BASE_LO || off == Reg.HST_DB_BASE_HI
    || off == Reg.HST_CP_BASE_LO || off == Reg.HST_CP_BASE_HI)

/-- Is a configuration of an input or PDM channel refused as a whole (R105)? -/
def wholeBad (off : Nat) (v : Word) : Bool :=
  if 0x4040 ≤ off ∧ off < 0x4068 then !ainCfgOk ((off - 0x4040) / 4) v
  else if 0x40C0 ≤ off ∧ off < 0x40E0 then !pdmCfgOk v
  else false

/-- The set-up lock is set (R515, R521, R523). -/
def State.setLock (s : State) (who : Writer) : State :=
  if s.locked then s
  else
    let ts := s.tsNow
    let p1 : Word := match who with
      | .host => 0 | .target => 1 | .config => 2
    ((s.setFld Fl.TOP_LOCK.LOCK 1).wr Reg.TOP_LOCK_TS32 ts).log Src.TOP 0x0001 2 ts p1 0

/-- CLK_CTRL.RUN (R30, R33): the house clock starts, or CFG_ERR. -/
def State.runGo (s : State) : State :=
  if s.runSet then s
  else if s.rateOnCrystal (s.fld Fl.CLK_CTRL.FD_INIT) then
    { (s.setFld Fl.CLK_CTRL.RUN 1) with clk := { s.clk with cfgErr := false } }
  else { s with clk := { s.clk with cfgErr := true } }

/-- After a write of CLK_CTRL's fields: the nominal ratio of the crystal named (R74), the MCLK_IO input (R34). -/
def State.clkCtrlDone (s : State) (old : Word) : State :=
  let x := s.fld Fl.CLK_CTRL.XTAL_SEL
  let s := if bitsOf old 1 1 = x then s else s.wr Reg.TIME_XO_RATIO (if x = 0 then 0x1D4C0000 else 0x1AEAA000)
  if s.clk.lock then
    { s with clk := { s.clk with mclkExt := s.fld Fl.CLK_CTRL.MCLK_IO_MODE == 4 && !s.clk.mclkLost } }
  else s

/-- MCLK_IO as an input is the second claim while a leader is in force: the field keeps its mode (R28, R34, Table BL-9). -/
def State.mclkClaim (s : State) (old new : Word) : Word :=
  if s.clk.kind ≠ 0 ∧ bitsOf new 12 4 = 4 then withBits new 12 4 (bitsOf old 12 4) else new

/-- SEL ranges of the GPIO functions (Table BL-8). -/
def gpioSelOk (func sel : Nat) : Bool := match func with
  | 0 | 2 | 3 | 4 => sel == 0
  | 1 => decide (sel ≤ 15)
  | 5 => decide (1 ≤ sel) && decide (sel ≤ 3)
  | 6 => decide (sel ≤ 9)
  | _ => false

/-- The judgement of a PIN_GPIOn_CFG (R529). -/
def State.gpioCheck (s : State) (n : Nat) (v : Word) : Status :=
  let func := bitsOf v 0 4
  let sel := bitsOf v 16 8
  if !gpioSelOk func sel || bitsOf v 6 2 == 3 then .invalid
  else if func != 0 && (List.range 16).any (fun m => m != n && s.fld (Fl.PIN_GPIO_CFG.FUNC m) == func
      && (func != 6 || s.fld (Fl.PIN_GPIO_CFG.SEL m) == sel)) then .conflict
  else .ok

/-- The judgement of PIN_SAPX_CFG (R530). -/
def State.sapxCheck (s : State) (v : Word) : Status :=
  if (List.range 8).any (fun p => bitsOf v (4 * p) 4 != 0 && !scShare (s.rd (Reg.SAP_TX_CFG p))) then .conflict else .ok

/-- A refused pin claim (R529, R538). -/
def State.claimRefused (s : State) (off : Nat) (st : Status) : State :=
  let rel := off % 4096
  let s := (s.wr Reg.PIN_CLAIM (wN (statusCode st * 2 ^ 24 + rel))).bump Reg.PIN_CLAIMCNT
  s.logLim Src.PIN 0x0101 3 0 3 1 s.time.dt (wN rel) (wN (statusCode st)) (s.rd Reg.PIN_CLAIMCNT)

/-- The bits of FLT_CTRL (R475, R477, R484). RANGER_RST from the host is ignored while a core is not running. -/
def State.fltCtrl (s : State) (who : Writer) (v : Word) : State :=
  let b := v.toNat
  let s : State := if bitN b 4 then { s with flt := { s.flt with avClr := true } } else s
  let s : State := if bitN b 2 then { s with flt := { s.flt with dump := none } } else s
  let s := if bitN b 3 then s.deadfall 7 s.time.dt else s
  let s := if bitN b 1 && (who != .host || (coreRuns s.flt.coreA && coreRuns s.flt.coreB)) then s.rangerReset 0 else s
  if bitN b 0 then s.devReset s.time.dt else s

/-- THK_AP_STATUS: COUNT and THK_AP_FIRST clear once BAD and DISCARD are both clear (Table TH-13). -/
def State.apStatusDone (s : State) : State :=
  if s.flag Fl.THK_AP_STATUS.BAD || s.flag Fl.THK_AP_STATUS.DISCARD then s
  else (s.setFld Fl.THK_AP_STATUS.COUNT 0).wr Reg.THK_AP_FIRST 0

/-- THK_CTRL.CLIP_CLR clears every THK_CLIPCNTb. -/
def State.clipCntClear (s : State) : State :=
  { s with regs := s.regs.filter (fun p => !(decide (0x7800 ≤ p.1) && decide (p.1 < 0x7C80))) }

/-- NET_MDIO.GO (R535): ignored while the access runs (R513). -/
def State.mdioStart (s : State) : State :=
  if s.net.mdio then s else { (s.setFld Fl.NET_MDIO.GO 1) with net := { s.net with mdio := true } }

/-- NET_GPTP.MODE 0 drops the network mapping (R288). -/
def State.gptpDone (s : State) (old : Nat) : State :=
  if s.fld Fl.NET_GPTP.MODE = 0 ∧ old ≠ 0 then
    { s with time := { s.time with net := Mapping.invalid, netHold := false } } else s

/-- A boot order (R491): taken while no image has passed; one that comes early waits for Heartwood (R555). -/
def State.bootGo (s : State) : State := if s.hwd.booted then s else { s with hwd := { s.hwd with order := true } }

/-- A scrub period starts (R463). -/
def State.scrubStart (s : State) : State := { s with flt := { s.flt with scrubDt := s.time.dt, scrubLate := false } }

/-- MEM_CFG (R481, R485, R544): EN starts the controller once both rails are valid, and stops it when it is cleared. -/
def State.memCfgDone (s : State) : State := if s.flag Fl.MEM_CFG.EN then s.memReady else s.wr Reg.MEM_STATUS 0

/-- TWB_ALERT_N after a write of TWB_ALERT or of its mask: asserted only while a source drives it, and asserted by a
source that the mask has let through (R381). -/
def State.alertDone (s : State) (oldMask : Word) : State :=
  let newly : Bool := (s.rd Reg.TWB_ALERT &&& s.rd Reg.TWB_ALERT_MASK &&& ~~~oldMask) != 0
  { s with twb := { s.twb with alertN := (s.twb.alertN && s.alertPend) || newly } }

/-- PWR_CTRL before RUN: the core runs at LEVEL_INIT (R385). -/
def State.pwrCtrlDone (s : State) : State :=
  if s.runSet then s
  else
    let l := s.fld Fl.PWR_CTRL.LEVEL_INIT
    { s with pwr := { s.pwr with level := l, target := l } }

/-- What the writing of a register's fields brings with it: its old word, the value written, the writer. -/
def State.regDone (s : State) (who : Writer) (off : Nat) (old v : Word) : State :=
  let bit (i : Nat) : Bool := bitN v.toNat i
  if off = Reg.CLK_CTRL then
    let s := s.clkCtrlDone old
    if bit 0 then s.runGo else s
  else if off = Reg.TIME_SNAP then
    (if bit 0 then (match execTimeSnap s with
      | .next t => t
      | _ => s) else s)
  else if off = Reg.TOP_LOCK then (if bit 0 && (!s.signedOnly || who == .config) then s.setLock who else s)
  else if off = Reg.THK_CTRL then (if bit 2 then s.clipCntClear else s)
  else if off = Reg.THK_AP_STATUS then s.apStatusDone
  else if off = Reg.THK_METER_CFG then s.meterEn (bit 31)
  else if off = Reg.AOUT_JACK_CFG then s.rangeChange old
  else if off = Reg.PWR_CTRL then s.pwrCtrlDone
  else if off = Reg.PWR_BUD_CTRL then (if bit 0 then s.peakClear else s)
  else if off = Reg.MEM_CFG then (if bitN old.toNat 31 then s else s.scrubStart).memCfgDone
  else if off = Reg.MEM_SCRUB then (if bitN old.toNat 31 then s else s.scrubStart)
  else if off = Reg.NET_GPTP then s.gptpDone (bitsOf old Fl.NET_GPTP.MODE.lo Fl.NET_GPTP.MODE.w)
  else if off = Reg.NET_MDIO then (if bit 31 then s.mdioStart else s)
  else if off = Reg.HST_NUDGE then (if bit 0 then s.nudge s.time.dt else s)
  else if off = Reg.TWB_ALERT then s.alertDone (s.rd Reg.TWB_ALERT_MASK)
  else if off = Reg.TWB_ALERT_MASK then s.alertDone old
  else if off = Reg.WAK_LSN_CTRL then s.lsnApply old
  else if off = Reg.BLZ_RELEASE then s.blzFree v
  else if off = Reg.BLZ_WIN_SEQ then s.blzSelect v
  else if off = Reg.FLT_CTRL then s.fltCtrl who v
  else if off = Reg.HWD_BOOT_CTRL then (if bit 0 then s.bootGo else s)
  else if off = Reg.PIN_GPIO_SET then s.wr Reg.PIN_GPIO_OUT (s.rd Reg.PIN_GPIO_OUT ||| (v &&& 0xFFFF))
  else if off = Reg.PIN_GPIO_CLR then s.wr Reg.PIN_GPIO_OUT (s.rd Reg.PIN_GPIO_OUT &&& ~~~v)
  else if 0x16000 ≤ off ∧ off < 0x16040 then
    let n := (off - 0x16000) / 4
    if bitsOf old 0 4 = s.fld (Fl.PIN_GPIO_CFG.FUNC n) then s
    else { s with pin := { s.pin with high := smDel s.pin.high n } }
  else if 0x3E000 ≤ off ∧ off < 0x3F000 then s.msixFlush
  else s

/-- Bits of a W1C register that a write may not clear: conditions of FLT_FAULT that still hold (R476). -/
def State.w1cHold (s : State) (off : Nat) : Word := if off = Reg.FLT_FAULT then s.fltHolds else 0

/-- A lane's source before RUN (R180). -/
def State.laneWrite (s : State) (off : Nat) (v : Word) : Wrote :=
  let a := BitVec.ofNat 16 (bitsOf v 0 16)
  if srcOk a then ⟨s.setLaneSrc ((off - 0x7200) / 4) a, false⟩ else ⟨s, true⟩

/-- A write of v to the register at an offset, its fields under their access types, then its own rule. -/
def State.regWrite (s : State) (who : Writer) (off : Nat) (v : Word) : Wrote :=
  match regDef? off with
  | none => ⟨s, false⟩
  | some d =>
    let old := s.rd off
    let closed := s.rwlClosed who
    let (new, bad, ign) := fieldsNew d.flds closed old v
    let hit (t : State) : State := if ign && s.locked && who != .target then t.lockedWrite off who else t
    if (runFixed off && s.runSet) || s.ringFixed off || s.pageFixed off then ⟨s, false⟩
    else if (off == Reg.TWB_CTRL || off == Reg.TWB_ALERT_MASK) && s.locked && who != .target then ⟨s, false⟩
    else if 0x7200 ≤ off ∧ off < 0x7800 then s.laneWrite off v
    else if wholeBad off (fieldsNew (d.flds.map (fun f => { f with rng := .any })) closed old v).1 then ⟨s, true⟩
    else if off = Reg.BLZ_CTRL then ⟨s.drainSet v, false⟩
    else if 0x10400 ≤ off ∧ off < 0x10C00 ∧ off % 32 = 8 then
      let n := (off - 0x10400) / 32
      if s.ringEn n then ⟨s.ringCfgWrite n v, false⟩ else ⟨s.ringCfgWrite n new, bad⟩
    else if 0x16000 ≤ off ∧ off < 0x16040 then
      let cand := (fieldsNew (d.flds.map (fun f => { f with rng := .any })) closed old v).1
      match s.gpioCheck ((off - 0x16000) / 4) cand with
      | .ok => ⟨(hit (s.wr off cand)).regDone who off old v, false⟩
      | st => ⟨hit (s.claimRefused off st), st == .invalid⟩
    else if off = Reg.PIN_SAPX_CFG then
      match s.sapxCheck new with
      | .ok => ⟨hit (s.wr off new), false⟩
      | st => ⟨hit (s.claimRefused off st), false⟩
    else
      let new := if off = Reg.CLK_CTRL then s.mclkClaim old new else new
      let t := if new = old then s else s.wr off (new ||| (old &&& s.w1cHold off))
      ⟨(hit t).regDone who off old v, bad⟩

/-! ## Host writes -/

/-- Can a BAR access reach the device now: 0 no, 1 yes, 2 it only wakes the device from Glade (R388, R409)? -/
def State.barGate (s : State) : Nat :=
  if s.pwr.state = .glade then 2
  else if s.coreDown || !s.hwd.running then 0 else 1

/-- A 32-bit aligned host write that reaches a register (R12, R388). -/
def State.hostWrite (s : State) (off : Nat) (v : Word) : State := match s.barGate with
  | 1 =>
    let w := s.regWrite .host off v
    if w.bad then w.st.mmioBad off else w.st
  | 2 => if off = Reg.HST_NUDGE then s.nudge s.time.dt else s.wakeFire 2 0 s.time.dt
  | _ => s

/-- REGISTER_WRITE: an access of another size or alignment is discarded (R310). -/
def execRegisterWrite (off : Nat) (value : Word) (aligned32 : Bool) (s : State) : Host.Outcome State Fault Refusal :=
  if aligned32 && off % 4 == 0 then .next (s.hostWrite off value)
  else match s.barGate with
    | 1 => .next (s.mmioBad off)
    | 2 => .next (s.wakeFire 2 0 s.time.dt)
    | _ => .next s

def execRingEnable (n : Nat) (cfg : Word) (s : State) : Host.Outcome State Fault Refusal :=
  .next (if n < 64 ∧ bitN cfg.toNat 31 then s.hostWrite (Reg.HST_RING_CFG n) cfg else s)

def execRingDisable (n : Nat) (cfg : Word) (s : State) : Host.Outcome State Fault Refusal :=
  .next (if n < 64 ∧ !bitN cfg.toNat 31 then s.hostWrite (Reg.HST_RING_CFG n) cfg else s)

/-- RUN: a write of CLK_CTRL with RUN set. -/
def execRun (value : Word) (s : State) : Host.Outcome State Fault Refusal := .next (s.hostWrite Reg.CLK_CTRL (value ||| 1))

/-- RANGE_WRITE: a write of AOUT_JACK_CFG. -/
def execRangeWrite (value : Word) (s : State) : Host.Outcome State Fault Refusal := .next (s.hostWrite Reg.AOUT_JACK_CFG value)

/-- METER_ENABLE: a write of THK_METER_CFG. -/
def execMeterEnable (value : Word) (s : State) : Host.Outcome State Fault Refusal := .next (s.hostWrite Reg.THK_METER_CFG value)

/-- MDIO_GO: a write of NET_MDIO with GO set. -/
def execMdioGo (value : Word) (s : State) : Host.Outcome State Fault Refusal := .next (s.hostWrite Reg.NET_MDIO (value ||| 0x80000000))

def execNetCtxSel (ctx : Word) (s : State) : Host.Outcome State Fault Refusal := .next (s.hostWrite Reg.NET_CTX_SEL ctx)

/-- CLIP_CLR: a write of THK_CTRL with CLIP_CLR set. -/
def execClipClr (value : Word) (s : State) : Host.Outcome State Fault Refusal := .next (s.hostWrite Reg.THK_CTRL (value ||| 4))

/-- PEAK_CLR: a write of PWR_BUD_CTRL with PEAK_CLR set. -/
def execPeakClr (value : Word) (s : State) : Host.Outcome State Fault Refusal := .next (s.hostWrite Reg.PWR_BUD_CTRL (value ||| 1))

def execBlzRelease (seq : Word) (s : State) : Host.Outcome State Fault Refusal := .next (s.hostWrite Reg.BLZ_RELEASE seq)
def execBlzWinSeq (seq : Word) (s : State) : Host.Outcome State Fault Refusal := .next (s.hostWrite Reg.BLZ_WIN_SEQ seq)

/-- DRAIN_ENABLE: a write of BLZ_CTRL. -/
def execDrainEnable (value : Word) (s : State) : Host.Outcome State Fault Refusal := .next (s.hostWrite Reg.BLZ_CTRL value)

def execAvClr (s : State) : Host.Outcome State Fault Refusal := .next (s.hostWrite Reg.FLT_CTRL 0x10)
def execDumpNow (s : State) : Host.Outcome State Fault Refusal := .next (s.hostWrite Reg.FLT_CTRL 8)
def execDumpClr (s : State) : Host.Outcome State Fault Refusal := .next (s.hostWrite Reg.FLT_CTRL 4)
def execRangerRst (s : State) : Host.Outcome State Fault Refusal := .next (s.hostWrite Reg.FLT_CTRL 2)

/-- DEV_RESET: a write of FLT_CTRL with DEV_RESET set. -/
def execDevReset (dt : DT) (s : State) : Host.Outcome State Fault Refusal := .next ((s.advance dt).hostWrite Reg.FLT_CTRL 1)

def execLock (s : State) : Host.Outcome State Fault Refusal := .next (s.hostWrite Reg.TOP_LOCK 1)
def execBootOrder (s : State) : Host.Outcome State Fault Refusal := .next (s.hostWrite Reg.HWD_BOOT_CTRL 1)

def execGpioCfgWrite (pin : Nat) (value : Word) (s : State) : Host.Outcome State Fault Refusal :=
  .next (if pin < 16 then s.hostWrite (Reg.PIN_GPIO_CFG pin) value else s)
def execSapxCfgWrite (value : Word) (s : State) : Host.Outcome State Fault Refusal := .next (s.hostWrite Reg.PIN_SAPX_CFG value)
def execGpioSet (value : Word) (s : State) : Host.Outcome State Fault Refusal := .next (s.hostWrite Reg.PIN_GPIO_SET value)
def execGpioClr (value : Word) (s : State) : Host.Outcome State Fault Refusal := .next (s.hostWrite Reg.PIN_GPIO_CLR value)

/-! ## The table aperture (R175, R520) -/

/-- One 32-bit write. -/
def State.apWrite (s : State) (off : Nat) (w : Word) : State :=
  if off < 0x90480 then s.apThk off w
  else if 0xB0000 ≤ off ∧ off < 0xB0800 then s.apTrl off w
  else if 0x100000 ≤ off ∧ off < 0x120000 then s.apFx off w
  else if 0x120000 ≤ off ∧ off < 0x160000 then s.apClip off w
  else if 0x160000 ≤ off ∧ off < 0x180000 then s.apEnv off w
  else if 0x180000 ≤ off ∧ off < 0x1C0000 then s.apCtx off w
  else if 0x1C0000 ≤ off ∧ off < 0x1D0000 then s.apLsn off w
  else s.apBad off false

/-- APERTURE_WRITE: 32 or 64 bits, the lower address first. -/
def execApertureWrite (off : Nat) (lo : Word) (hi : Option Word) (aligned : Bool) (s : State) : Host.Outcome State Fault Refusal :=
  match s.barGate with
  | 1 =>
    let wide : Bool := hi.isSome && off % 8 != 0
    if !aligned || off % 4 != 0 || wide then .next (s.apBad off false)
    else
      let s := s.apWrite off lo
      match hi with
      | some h => .next (s.apWrite (off + 4) h)
      | none => .next s
  | 2 => .next (s.wakeFire 2 0 s.time.dt)
  | _ => .next s

/-- One 32-bit read. -/
def State.apRead (s : State) (off : Nat) : Word :=
  if off < 0x90480 then s.apThkRead off
  else if 0xB0000 ≤ off ∧ off < 0xB0800 then s.apTrlRead off
  else if 0x100000 ≤ off ∧ off < 0x120000 then s.apFxRead off
  else if 0x120000 ≤ off ∧ off < 0x180000 then s.apClipRead off
  else if 0x180000 ≤ off ∧ off < 0x1C0000 then s.apCtxRead off
  else if 0x1C0000 ≤ off ∧ off < 0x1D0000 then s.apLsnRead off
  else 0

/-! ## Reads that have effects (R48, R50, R484, R510) -/

/-- TIME_DT_READ: a read of TIME_DT_LO latches TIME_DT_HI; the target latches into a latch of its own (R374). -/
def execTimeDtRead (target : Bool) (s : State) : Host.Outcome State Fault Refusal :=
  let hi : Word := s.time.dt.extractLsb' 32 32
  .next (if target then { s with twb := { s.twb with dtHi := hi } }
    else if s.barGate = 1 then s.wr Reg.TIME_DT_HI hi
    else if s.barGate = 2 then s.wakeFire 2 0 s.time.dt else s)

/-- TIME_TICK_READ: a read of TIME_TICK_TS32 latches the DT of that boundary. -/
def execTimeTickRead (target : Bool) (s : State) : Host.Outcome State Fault Refusal :=
  let d := s.tickDt
  .next (if target then { s with twb := { s.twb with tickLo := d.extractLsb' 0 32, tickHi := d.extractLsb' 32 32 } }
    else if s.barGate = 1 then s.wr64 Reg.TIME_TICK_DT_LO Reg.TIME_TICK_DT_HI d
    else if s.barGate = 2 then s.wakeFire 2 0 s.time.dt else s)

/-- The counter that a _LO register of the FLT block shows: 0 good, 1 bad, 2 external, 3 host. -/
def State.avOf (s : State) (c : Nat) : Nat := match c with
  | 0 => s.flt.good | 1 => s.flt.bad | 2 => s.flt.ext | _ => s.flt.host

/-- The HI register that a read of an FLT _LO register latches (R484). -/
def State.fltLatch (s : State) (c : Nat) : State := s.wr (Reg.FLT_AV_GOOD_HI + 8 * c) (avWord (s.avOf c) 1)

/-- FLT_LO_READ. -/
def execFltLoRead (counter : Nat) (s : State) : Host.Outcome State Fault Refusal :=
  .next (if counter < 4 then (if s.barGate = 1 then s.fltLatch counter else if s.barGate = 2 then s.wakeFire 2 0 s.time.dt else s) else s)

end Sys2Proof.Machine
end

