-- ==== Sys2Proof/Machine/Heartwood.lean ====
section
/-! DEFINITION. Heartwood (chapter 17): boot, signed configuration, key slots, attestation and the debug port. What the
cryptographic checks of an image, a blob or a token find comes with the command. -/
namespace Sys2Proof.Machine

/-! ## Secure boot (R491, R492) -/

/-- The image has passed: it lies in slot A, and both cores start on it. -/
def State.bootOk (s : State) (i : ImageFacts) : State :=
  let core (r : CoreRun) : CoreSt := ⟨r, 0, s.tsNow, false, 0, []⟩
  let s : State := { s with
    hwd := { s.hwd with booted := true, order := false },
    flt := { s.flt with coreA := core .active, coreB := core .standby, activeB := false, fw := smSet s.flt.fw 0 ⟨i.version, i.arb⟩,
                        alive := true } }
  let s := (s.wr Reg.HWD_BOOT_STAT 0).wr Reg.FLT_FW_VER i.version
  s.log Src.HWD 0xF001 2 i.version (wN i.arb) 0

/-- The image has failed: the status, the record, and Heartwood waits for a new order. -/
def State.bootFail (s : State) (i : ImageFacts) (st : Status) : State :=
  let s : State := { s with hwd := { s.hwd with order := false } }
  (s.wr Reg.HWD_BOOT_STAT (wN (statusCode st))).log Src.HWD 0xF002 4 (wN (statusCode st)) i.version 0

/-- What the boot ROM finds: the buffer under R312, then the checks of R492 against root hash 0. -/
def State.bootCheck (s : State) (i : ImageFacts) : Status :=
  if !s.dmaAllowed (s.rd64 Reg.HWD_BOOT_ADDR_LO Reg.HWD_BOOT_ADDR_HI) (s.rd Reg.HWD_BOOT_LEN).toNat false then .denied
  else s.imageCheck i 0

/-- HWD_BOOT_DONE. -/
def execHwdBootDone (image : ImageFacts) (s : State) : Host.Outcome State Fault Refusal :=
  if s.hwd.order && s.hwd.running && !s.hwd.booted then
    match s.bootCheck image with
    | .ok => .next (s.bootOk image)
    | st => .next (s.bootFail image st)
  else .next s

/-! ## Signed configuration (R494, R495) -/

/-- Offsets that an entry may name. -/
def cfgOffOk (off : Nat) : Bool :=
  off % 4 == 0 && (decide (off < 0x15000) || (decide (0x16000 ≤ off) && decide (off < 0x17000)))

/-- The checks of a configuration. -/
def State.cfgCheck (s : State) (i : ImageFacts) : Status := match s.imageCheck i 1 with
  | .ok => if i.entries.all (fun e => cfgOffOk e.1) then .ok else .invalid
  | st => st

/-- One write of a configuration, with the effect of a host write. -/
def State.cfgWrite (s : State) (e : Nat × Word) : State :=
  let w := s.regWrite .config e.1 e.2
  if w.bad then w.st.mmioBad e.1 else w.st

/-- HWD_CFG_HASH0 to HWD_CFG_HASH7: the hash's bytes, the first in the low byte of the first register. -/
def State.cfgHash (s : State) (h : BitVec 256) : State :=
  (List.range 8).foldl (fun s n => s.wr (Reg.HWD_CFG_HASH n) (h.extractLsb' (32 * n) 32)) s

/-- A configuration that has passed: its writes in order, the lock, the hash, the record. -/
def State.cfgApply (s : State) (i : ImageFacts) : State :=
  let s := i.entries.foldl State.cfgWrite s
  let s := if i.lock then s.setLock .config else s
  let s := s.cfgHash i.hash
  s.log Src.HWD 0xF006 2 (wN i.entries.length) (wN (wB i.lock)) (s.rd (Reg.HWD_CFG_HASH 0))

/-- CFG_ORDER: HWD_CFG_CTRL.GO, before RUN only. -/
def execCfgOrder (image : ImageFacts) (s : State) : Host.Outcome State Fault Refusal :=
  if s.barGate = 1 ∧ !s.runSet ∧ s.dmaAllowed (s.rd64 Reg.HWD_CFG_ADDR_LO Reg.HWD_CFG_ADDR_HI) (s.rd Reg.HWD_CFG_LEN).toNat false
      ∧ s.cfgCheck image = .ok then .next (s.cfgApply image)
  else .next s

def configLoadHost (s : State) (p : ConfigLoadP) : Bool := s.dmaAllowed p.addr p.len false

/-- CONFIG_LOAD at its commit boundary. -/
def configLoadEffect (p : ConfigLoadP) (s : State) : Done :=
  ⟨s.cfgApply p.image, .ok, wN p.image.entries.length, wN (wB p.image.lock), 0, false, false⟩

def execConfigLoad (h : Hdr) (p : ConfigLoadP) (s : State) : Host.Outcome State Fault Refusal :=
  .next (s.runCmd h (.configLoad p) 0x0F04 true (configLoadHost s p) (s.cfgCheck p.image) (configLoadEffect p))

/-! ## Library keys (R496 to R498) -/

/-- Does a voice play from a key slot? -/
def State.slotPlays (s : State) (k : Nat) : Bool :=
  s.clip.voices.any (fun v => ceEnc v.2.w && ceKey v.2.w == k)

def keyLoadValid (s : State) (p : KeyLoadP) : Bool :=
  decide (p.slot < 4096) && decide (1 ≤ p.blocks) && s.regionOk p.base.toNat (4096 * p.blocks) 4096

def keyLoadHost (s : State) (p : KeyLoadP) : Bool :=
  s.dmaAllowed p.blob 256 false && !s.hitsReserved p.base.toNat (4096 * p.blocks)

def keyLoadRefusal (s : State) (p : KeyLoadP) : Status :=
  if s.hwd.unlocked.isSome || !p.opens then .denied else if s.slotPlays p.slot then .busy else .ok

/-- A blob that fails to open is logged (R498). -/
def keyLoadRefused (p : KeyLoadP) (_ : Status) (s : State) : State :=
  if s.hwd.unlocked.isNone && !p.opens then s.log Src.HWD 0xF004 4 (wN p.slot) (p.lib.extractLsb' 0 32) 0 else s

def keyLoadEffect (p : KeyLoadP) (s : State) : Done :=
  let s : State := { s with hwd := { s.hwd with keys := smSet s.hwd.keys p.slot ⟨p.key, p.nonce, p.lib, p.base, p.blocks⟩ } }
  let lo : Word := p.lib.extractLsb' 0 32
  let hi : Word := p.lib.extractLsb' 32 32
  ⟨s.log Src.HWD 0xF003 1 (wN p.slot) lo hi, .ok, lo, hi, 0, false, false⟩

def execKeyLoad (h : Hdr) (p : KeyLoadP) (s : State) : Host.Outcome State Fault Refusal :=
  .next (s.runCmd h (.keyLoad p) 0x0F01 (keyLoadValid s p) (keyLoadHost s p) (keyLoadRefusal s p) (keyLoadEffect p) (keyLoadRefused p))

/-- The loaded slots that a KEY_CLEAR names. -/
def State.slotsNamed (s : State) (slot : Nat) : SMap KeySlot :=
  if slot = 0xFFFF then s.hwd.keys else s.hwd.keys.filter (fun (k : Nat × KeySlot) => k.1 == slot)

def keyClearValid (slot : Nat) : Bool := decide (slot < 4096) || slot == 0xFFFF

def keyClearRefusal (s : State) (slot : Nat) : Status :=
  if (s.slotsNamed slot).any (fun k => s.slotPlays k.1) then .busy else .ok

def keyClearEffect (slot : Nat) (s : State) : Done :=
  let n := (s.slotsNamed slot).length
  let keys := if slot = 0xFFFF then [] else smDel s.hwd.keys slot
  ⟨{ s with hwd := { s.hwd with keys := keys } }, .ok, wN n, 0, 0, false, false⟩

def execKeyClear (h : Hdr) (slot : Nat) (s : State) : Host.Outcome State Fault Refusal :=
  .next (s.runCmd h (.keyClear slot) 0x0F02 (keyClearValid slot) true (keyClearRefusal s slot) (keyClearEffect slot))

/-! ## Attestation (R501, R502) -/

def attestHost (s : State) (p : AttestP) : Bool := s.dmaAllowed p.addr 1024 false && s.dmaAllowed p.addr 1024 true

def attestRefusal (s : State) (p : AttestP) : Status :=
  let root := s.hwd.fuses.roots.getD 3 0
  if p.op = 1 ∧ (root = 0 ∨ p.keyHash ≠ root) then .denied else .ok

/-- The identity key, while Heartwood runs. -/
def State.identityKey (s : State) : BitVec 384 := match s.hwd.devKeys with
  | some k => k.identity
  | none => 0

/-- Bytes 0 to 415 of a statement (Table HW-5), over which it is signed. -/
def Statement.bytes (x : Statement) : List Byte :=
  leBytes 16 x.devId.toNat ++ leBytes 97 x.pub.toNat ++ leBytes 96 x.cert.toNat ++ leBytes 4 x.fwVer.toNat ++ leBytes 1 x.arb
    ++ leBytes 1 x.policy.toNat ++ leBytes 1 (wB x.unlocked) ++ wordBytes x.cfgHash ++ leBytes 4 x.ts.toNat ++ leBytes 8 x.dt.toNat
    ++ leBytes 1 x.epoch.toNat ++ leBytes 3 0 ++ leBytes 4 x.sealSeq.toNat ++ leBytes 32 x.chain.toNat ++ leBytes 48 x.challenge.toNat
    ++ leBytes 68 0

/-- The statement of a commit boundary, unsigned. -/
def State.statementBody (s : State) (p : AttestP) : Statement := {
  devId := s.hwd.fuses.devId, fwVer := s.rd Reg.FLT_FW_VER, arb := s.hwd.fuses.arb, policy := s.hwd.fuses.policy,
  unlocked := s.hwd.unlocked.isSome, cfgHash := (List.range 8).map (fun n => s.rd (Reg.HWD_CFG_HASH n)), ts := s.time.ts,
  dt := s.time.bdt, epoch := s.time.epoch, sealSeq := s.blz.sealSeq, chain := s.blz.prevSeal,
  pub := Config.p384Public s.identityKey, cert := s.hwd.fuses.cert, challenge := p.challenge, sig := 0, buffer := p.addr }

/-- The statement of a commit boundary, closed by the identity key's signature (R501). -/
def State.statement (s : State) (p : AttestP) : Statement :=
  { s.statementBody p with sig := Config.p384Sign s.identityKey (s.statementBody p).bytes s.free }

/-- The sealing key, while Heartwood runs. -/
def State.sealingKey (s : State) : BitVec 256 := match s.hwd.devKeys with
  | some k => k.sealing
  | none => 0

def attestEffect (p : AttestP) (s : State) : Done :=
  if p.op = 0 then
    ⟨{ s with free := s.free + 1, hwd := { s.hwd with stmt := some (s.statement p) } }, .ok, 512, 0, 0, false, false⟩
  else ⟨{ s with hwd := { s.hwd with exported := some (p.addr, p.keyHash, s.sealingKey) } }, .ok, 256, 0, 0, false, false⟩

def execAttest (h : Hdr) (p : AttestP) (s : State) : Host.Outcome State Fault Refusal :=
  .next (s.runCmd h (.attest p) 0x0F03 (decide (p.op < 2)) (attestHost s p) (attestRefusal s p) (attestEffect p))

/-! ## The debug port (R504, R505) -/

/-- The first check of R504 that a token fails, by the number that HWD_DEBUG_REFUSED carries. -/
def State.tokenFails (s : State) (p : DebugUnlockP) : Option Nat :=
  let root := s.hwd.fuses.roots.getD 2 0
  if bitN s.hwd.fuses.policy.toNat 1 then some 0
  else if root = 0 ∨ p.keyHash ≠ root then some 1
  else if p.devId ≠ s.hwd.fuses.devId then some 2
  else if p.nonce ≠ s.hwd.nonce then some 3
  else if p.expiry.toNat ≤ s.time.bdt.toNat then some 4
  else if !p.sigOk then some 5
  else none

/-- Every attempt gives a new nonce. -/
def State.newNonce (s : State) : State :=
  let (n, s) := s.freeNat
  { s with hwd := { s.hwd with nonce := BitVec.ofNat 64 n } }

def debugUnlockRefusal (s : State) (p : DebugUnlockP) : Status := if (s.tokenFails p).isSome then .denied else .ok

def debugUnlockRefused (p : DebugUnlockP) (_ : Status) (s : State) : State := match s.tokenFails p with
  | some n => s.newNonce.log Src.HWD 0xF008 4 (wN n) 0 0
  | none => s

def debugUnlockEffect (p : DebugUnlockP) (s : State) : Done :=
  let s := (s.newNonce).keysErase 2 s.time.dt
  let s : State := { s with hwd := { s.hwd with unlocked := some (p.expiry, p.scope) } }
  let lo : Word := p.expiry.extractLsb' 0 32
  let hi : Word := p.expiry.extractLsb' 32 32
  ⟨s.log Src.HWD 0xF007 5 (wN p.scope.toNat) lo hi, .ok, lo, hi, 0, false, false⟩

def execDebugUnlock (h : Hdr) (p : DebugUnlockP) (s : State) : Host.Outcome State Fault Refusal :=
  .next (s.runCmd h (.debugUnlock p) 0x0F05 true (s.dmaAllowed p.addr 256 false) (debugUnlockRefusal s p) (debugUnlockEffect p)
    (debugUnlockRefused p))

/-- DEBUG_EXPIRE: the expiry DT is reached. -/
def execDebugExpire (dt : DT) (s : State) : Host.Outcome State Fault Refusal :=
  let s := s.advance dt
  match s.hwd.unlocked with
  | some (e, _) => if e.toNat ≤ dt.toNat then .next { s with hwd := { s.hwd with unlocked := none } } else .next s
  | none => .next s

end Sys2Proof.Machine
end

