-- ==== Sys2Proof/Machine/Commit.lean ====
section
/-! DEFINITION. Commands as the control core and the tick sequencer handle them: what each command asks of the checks of
R328, staging (R18, R328, R358), the commit set at its boundary (R19, R54, R182, R202, R331) and the release of Firebreak
(R472). -/
namespace Sys2Proof.Machine

/-! ## What a command asks -/

/-- A command against a state: checks 2, 3 and 5 of R328, its effect, and what a refusal by check 5 leaves beside its
write-back. -/
structure CmdSpec where
  valid    : Bool
  host     : Bool
  refusal  : Status
  eff      : State → Done
  onRefuse : Status → State → State

/-- A command with no host address, whose refusal leaves nothing. -/
def cmdPlain (valid : Bool) (refusal : Status) (eff : State → Done) : CmdSpec := ⟨valid, true, refusal, eff, fun _ s => s⟩

/-- A payload that no CMD ring accepts. -/
def cmdNone : CmdSpec := cmdPlain false .ok okDone

/-- The checks and the effect of a command picked up in tick k. -/
def cmdSpec (s : State) (h : Hdr) (k : TS) (c : Cmd) : CmdSpec := match c with
  | .clockLeader p => cmdPlain (clockLeaderValid p) (clockLeaderRefusal s p) (clockLeaderEffect p)
  | .houseRate r => ⟨houseRateValid s r, true, houseRateRefusal s r, houseRateEffect h r, houseRateRefused h r⟩
  | .timeWallSet p => cmdPlain (timeWallSetValid p) (timeWallSetRefusal s p) (timeWallSetEffect p)
  | .perfLevel l => ⟨perfLevelValid l, true, perfLevelRefusal s l, perfLevelEffect l, perfLevelRefused h l⟩
  | .sleep p => cmdPlain (sleepValid s p) (sleepRefusal s) (sleepEffect h p)
  | .ainSet p => cmdPlain (ainSetValid s p) (ainSetRefusal s p) (ainSetEffect p)
  | .pdmSet p => cmdPlain (pdmSetValid s p) (pdmSetRefusal s p) (pdmSetEffect p)
  | .aoutSet p => cmdPlain (aoutSetValid s p) (aoutSetRefusal s p) (aoutSetEffect p)
  | .spkSet p => cmdPlain (spkSetValid s p) (spkSetRefusal s p) (spkSetEffect p)
  | .spkMeas p => cmdPlain (spkMeasValid p) (spkMeasRefusal s p) (spkMeasEffect h p)
  | .spkWatch p => cmdPlain (spkWatchValid p) .ok (spkWatchEffect h p)
  | .routeSet p => ⟨routeSetValid p, true, routeSetRefusal s p, routeSetEffect p, routeSetRefused h p s⟩
  | .thkSwap m => cmdPlain (thkSwapValid m) (thkSwapRefusal s) (thkSwapEffect m)
  | .thkFader p => ⟨thkFaderValid p, true, thkFaderRefusal s p, thkFaderEffect p, thkFaderRefused h⟩
  | .toneSet p => cmdPlain (toneSetValid s p) .ok (toneSetEffect p)
  | .trailCommit p => cmdPlain (trailCommitValid s p) (trailCommitRefusal s p) (trailCommitEffect p)
  | .fxCommit p => cmdPlain (fxCommitValid p) (fxCommitRefusal s p) (fxCommitEffect p)
  | .clipCommit p => cmdPlain (clipCommitValid p) (clipCommitRefusal s p) (clipCommitEffect p)
  | .clipStart p => cmdPlain (clipStartValid p) (clipStartRefusal s p) (clipStartEffect p)
  | .clipCtrl p => cmdPlain (clipCtrlValid p) .ok (clipCtrlEffect h p)
  | .loopSet p => cmdPlain (loopSetValid p) (loopSetRefusal s p) (loopSetEffect p)
  | .loopCommit p => cmdPlain (loopCommitValid p) (loopCommitRefusal s p) (loopCommitEffect h p)
  | .sapSet p => cmdPlain (sapSetValid s p) (sapSetRefusal s p) (sapSetEffect p)
  | .groveSet p => cmdPlain (groveSetValid p) (groveSetRefusal s p) (groveSetEffect p)
  | .groveStart g => ⟨decide (g < 8), true, groveStartRefusal s g, groveStartEffect g, groveStartRefused h g⟩
  | .groveStop g => cmdPlain (decide (g < 8)) (groveStopRefusal s g) (groveStopEffect g)
  | .streamCtrl p => ⟨streamCtrlValid p, true, streamCtrlRefusal s p, streamCtrlEffect h p, streamCtrlRefused h p⟩
  | .netSync p => ⟨true, netSyncHost s, netSyncRefusal s p, netSyncEffect p, fun _ s => s⟩
  | .nop => cmdPlain true .ok (nopEffect k)
  | .listenSet p => cmdPlain (listenSetValid p) (listenSetRefusal s p) (listenSetEffect p)
  | .listenWait p => cmdPlain (listenWaitValid p) .ok (listenWaitEffect h p)
  | .prerollRead p => ⟨prerollReadValid p, s.dmaAllowed p.addr (144 * p.n) true, .ok, prerollReadEffect p, fun _ s => s⟩
  | .blzMark p => cmdPlain (decide (p.sev ≤ 4)) .ok (blzMarkEffect p)
  | .fwActivate p => ⟨fwActivateValid p, true, fwActivateRefusal s p, fwActivateEffect h p, fwActivateRefused p⟩
  | .firebreakCtrl op => cmdPlain (decide (op < 2)) (firebreakRefusal s op) (firebreakEffect op)
  | .keyLoad p => ⟨keyLoadValid s p, keyLoadHost s p, keyLoadRefusal s p, keyLoadEffect p, keyLoadRefused p⟩
  | .keyClear n => cmdPlain (keyClearValid n) (keyClearRefusal s n) (keyClearEffect n)
  | .attest p => ⟨decide (p.op < 2), attestHost s p, attestRefusal s p, attestEffect p, fun _ s => s⟩
  | .configLoad p => ⟨true, configLoadHost s p, s.cfgCheck p.image, configLoadEffect p, fun _ s => s⟩
  | .debugUnlock p => ⟨true, s.dmaAllowed p.addr 256 false, debugUnlockRefusal s p, debugUnlockEffect p, debugUnlockRefused p⟩
  | .blkLoad _ => cmdNone
  | .blkUnload _ => cmdNone
  | .blkFill _ => cmdNone
  | .ntxFrame _ => cmdNone
  | .nrxBuf _ => cmdNone
  | .hpbData _ => cmdNone
  | .hcpData _ => cmdNone
  | .undefined _ => cmdNone

/-- The commands that lock a shadow: their write-back is written in every case (R176, R327). -/
def cmdLocks (c : Cmd) : Bool := match c with
  | .thkSwap _ => true
  | .trailCommit _ => true
  | .fxCommit _ => true
  | .clipCommit _ => true
  | .streamCtrl p => p.op == 0
  | .listenSet p => p.op == 1
  | _ => false

def lockHdr (c : Cmd) (h : Hdr) : Hdr := if cmdLocks c then { h with want := true } else h

/-- Is a command refused at its commit boundary: the refusals above, and a claim of an output whose release has not come
about (R202)? -/
def atCommit (c : Cmd) (st : Status) : Bool := atBoundary c st || (match c with
  | .routeSet _ => st == .conflict
  | .trailCommit _ => st == .conflict
  | _ => false)

/-! ## The order of R19 and CHAIN groups -/

/-- A command with its place in the order of R19. -/
abbrev Item : Type := Picked × Nat

/-- Before, in ascending ring number and within a ring in descriptor order. -/
def pickedBefore (a b : Picked) : Bool :=
  decide (ringOf a.hdr < ringOf b.hdr) || (ringOf a.hdr == ringOf b.hdr && decide (a.grp < b.grp))

def pickedInsert (p : Picked) : List Picked → List Picked
  | [] => [p]
  | q :: r => if pickedBefore p q then p :: q :: r else q :: pickedInsert p r

/-- The order of R19; members of a group keep their order. -/
def r19Sort (l : List Picked) : List Picked := l.foldl (fun a p => pickedInsert p a) []

def itemsFrom (n : Nat) : List Picked → List Item
  | [] => []
  | p :: r => (p, n) :: itemsFrom (n + 1) r

/-- The items of a list in the order of R19. -/
def itemsOf (l : List Picked) : List Item := itemsFrom 0 (r19Sort l)

/-- The groups of ordered items; a single command is a group of its own. -/
def groupsOf : List Item → List (List Item)
  | [] => []
  | x :: r => match groupsOf r with
    | (y :: g) :: t => if y.1.grp = x.1.grp then (x :: y :: g) :: t else [x] :: (y :: g) :: t
    | t => [x] :: t

/-! ## Check 5 and admission (R328, R358) -/

/-- A refusal in staging: the item, its status, and what it leaves in the state beside the write-back. -/
structure Refused where
  item : Item
  st   : Status
  note : State → State

/-- Staging so far: the state with the accepted commands' effects, the accepted items, the refused ones. -/
structure Staged where
  sim : State
  ok  : List Item
  no  : List Refused

/-- Check 5 and pricing of one command against a simulated state: its refusal, or the state with its effect. -/
def check5 (sim : State) (x : Item) : Refused ⊕ State :=
  let p := x.1
  let c := cmdSpec sim p.hdr p.k p.cmd
  if atBoundary p.cmd c.refusal then .inr sim
  else if c.refusal ≠ .ok then .inl ⟨x, c.refusal, c.onRefuse c.refusal⟩
  else
    let d := c.eff sim
    match admitCheck sim d.st with
    | none => .inr d.st
    | some e =>
      let cost := (d.st.costs sim.clk.rate (unionKeys sim.thkNodes d.st.thkNodes).length).getD e 0
      .inl ⟨x, .budget, fun s => s.budNote p.hdr (opcodeOf p.cmd) e cost⟩

/-- The members of a group, one after another: the first refusal, or the state with their effects. -/
def checkGroup (sim : State) : List Item → Refused ⊕ State
  | [] => .inr sim
  | x :: r => match check5 sim x with
    | .inl f => .inl f
    | .inr t => checkGroup t r

/-- A group refused in staging is pending no longer: no change that it asked for is (R17). -/
def State.unpick (s : State) (g : List Item) : State :=
  let stays (p : Picked) : Bool := !g.any (fun x => x.1 == p)
  { s with host := { s.host with picked := s.host.picked.filter stays, pend := s.host.pend.filter stays } }

/-- A group in staging: it passes whole, or the member refused keeps its status and the others are ABORTED (R331). -/
def stageGroup (a : Staged) (g : List Item) : Staged := match checkGroup a.sim g with
  | .inr t => { a with sim := t, ok := a.ok ++ g }
  | .inl f => { a with
      sim := a.sim.unpick g
      no := a.no ++ g.map (fun x => if x.2 = f.item.2 then f else ⟨x, .aborted, fun s => s⟩) }

/-- Does a command release an output (R202)? -/
def releasesOut (s : State) (p : Picked) : Bool := match p.cmd with
  | .routeSet q => q.source == noSrc && (outOf q.sink).isSome && (s.selOf q.sink).src != noSrc
  | .trailCommit q => !(s.trlMoves q).1.isEmpty
  | _ => false

/-- The releases and claims of outputs that a commit set brings, all releases before all claims (R202), and the fader slots
that it takes, none yet (R181). -/
def State.claimPrep (s : State) (l : List Item) : State :=
  let sel := l.filterMap (fun x => match x.1.cmd with
    | .routeSet q => if releasesOut s x.1 then outOf q.sink else none
    | _ => none)
  let mv := l.foldl (fun (a : List (Nat × Nat × Nat) × List (Nat × Nat × Nat)) x => match x.1.cmd with
    | .trailCommit q => (a.1 ++ (s.trlMoves q).1, a.2 ++ (s.trlMoves q).2)
    | _ => a) ([], [])
  { s with trl := { s.trl with relSel := sel, relTrl := mv.1, clmTrl := mv.2 }, thk := { s.thk with fresh := [] } }

def State.claimClear (s : State) : State :=
  { s with trl := { s.trl with relSel := [], relTrl := [], clmTrl := [] }, thk := { s.thk with fresh := [] } }

/-- Staging of groups on a simulated state. A group refused takes its releases with it: the others are judged anew. -/
def stageAll (sim : State) : Nat → List (List Item) → Staged
  | 0, gs => gs.foldl stageGroup ⟨sim, [], []⟩
  | n + 1, gs =>
    let base := sim.claimPrep gs.flatten
    let a := gs.foldl stageGroup ⟨base, [], []⟩
    if a.no.any (fun f => releasesOut sim f.item.1) then
      let b := stageAll sim n (groupsOf a.ok)
      { b with no := a.no ++ b.no }
    else { a with sim := a.sim.claimClear }

def stageGroups (sim : State) (gs : List (List Item)) : Staged := stageAll sim gs.length gs

/-- Writes the refusals of staging, in the tick in force (R329). -/
def State.refuseAll (s : State) (l : List Refused) : State :=
  (l.foldl (fun s f => (f.note s).reject f.item.1.hdr (opcodeOf f.item.1.cmd) f.st) s).faderFullLog

/-! ## The commit boundary -/

/-- A committed command's write-back, to be written in the order of R19. -/
structure CmdOut where
  item   : Item
  status : Status
  r0     : Word
  r1     : Word
  r2     : Word
  force  : Bool
  later  : Bool

/-- The commits of a boundary so far: the state, the verdicts on groups (the place and status of the member refused at
the boundary), the write-backs. -/
structure Commits where
  st   : State
  verd : List (Nat × Option (Nat × Status))
  outs : List CmdOut

/-- The refusal of a command at its commit boundary, if there is one. A HOUSE_RATE is priced in staging only (R43). -/
def boundaryRefusal (s : State) (c : Cmd) (st : Status) : Option Status := match c with
  | .houseRate _ => if s.rateBusy then some .busy else none
  | _ => if atCommit c st then some st else none

/-- The first member that is refused at the boundary, the earlier members taken as applied (R331). -/
def groupBusy (s : State) : List Item → Option (Nat × Status)
  | [] => none
  | x :: r =>
    let c := cmdSpec s x.1.hdr x.1.k x.1.cmd
    match boundaryRefusal s x.1.cmd c.refusal with
    | some st => some (x.2, st)
    | none => groupBusy (c.eff s).st r

def itemOut (x : Item) (st : Status) : CmdOut := ⟨x, st, 0, 0, 0, false, false⟩

/-- One command of the commit set. The verdict on its group falls when the first of its members is reached. -/
def commitItem (gs : List (List Item)) (a : Commits) (x : Item) : Commits :=
  let g := x.1.grp
  let a : Commits := match a.verd.find? (fun v => v.1 == g) with
    | some _ => a
    | none => { a with verd := (g, groupBusy a.st ((gs.find? (fun l => l.any (fun y => y.2 == x.2))).getD [x])) :: a.verd }
  let v : Option (Nat × Status) := match a.verd.find? (fun v => v.1 == g) with
    | some w => w.2
    | none => none
  let c := cmdSpec a.st x.1.hdr x.1.k x.1.cmd
  match v with
  | some (n, st) =>
    if n = x.2 then { a with st := c.onRefuse st a.st, outs := itemOut x st :: a.outs }
    else { a with outs := itemOut x .aborted :: a.outs }
  | none =>
    let d := c.eff a.st
    let st := if d.status = .ok ∧ x.1.late then .late else d.status
    { a with st := d.st, outs := ⟨x, st, d.r0, d.r1, d.r2, d.force, d.deferred⟩ :: a.outs }

def outInsert (o : CmdOut) : List CmdOut → List CmdOut
  | [] => [o]
  | q :: r => if o.item.2 < q.item.2 then o :: q :: r else q :: outInsert o r

/-- Writes one committed command's write-back (R326, R327, R329). -/
def State.writeOut (s : State) (o : CmdOut) : State :=
  if o.later then s
  else
    let h := o.item.1.hdr
    let op := opcodeOf o.item.1.cmd
    (s.badDesc h op o.status).complete h op o.status s.time.ts s.time.bdt o.r0 o.r1 o.r2 o.force

def isSwap (x : Item) : Bool := match x.1.cmd with
  | .thkSwap _ => true
  | _ => false

/-- Commits items at the boundary in force: swaps before the others (R182), the others in the order of R19; releases of
outputs count for every claim (R202); the write-backs follow in the order of R19. -/
def State.applyItems (s : State) (l : List Item) : State :=
  let gs := groupsOf l
  let live (t : State) (gs : List (List Item)) : List (List Item) := gs.filter (fun g => (groupBusy t g).isNone)
  let first := live (s.claimPrep l) gs
  let base := s.claimPrep (live (s.claimPrep first.flatten) first).flatten
  let order := l.filter isSwap ++ l.filter (fun x => !isSwap x)
  let a := order.foldl (commitItem gs) ⟨base, [], []⟩
  let outs := a.outs.foldl (fun l o => outInsert o l) []
  outs.foldl State.writeOut a.st.claimClear

/-- The fate of a timed command whose commit boundary is the one in force in place of k+2: late, or expired (R54, R62,
R472). -/
def State.lateFate (s : State) (h : Hdr) : Status :=
  let l := tsDiff s.time.ts h.target
  if !h.timed || decide (l ≤ 0) then .ok
  else match h.late with
    | 0 => .late
    | 1 => .expired
    | _ => if l ≤ s.lateWin (ringOf h) then .late else .expired

/-- Judges groups anew by their late policy: those that have expired are written now, the others go on, marked late. -/
def State.refate (s : State) (gs : List (List Item)) : State × List (List Item) :=
  gs.foldl (fun (a : State × List (List Item)) g => match g with
    | [] => a
    | x :: _ => match a.1.lateFate x.1.hdr with
      | .expired => (g.foldl (fun s y => s.reject y.1.hdr (opcodeOf y.1.cmd) .expired) a.1, a.2)
      | st => (a.1, a.2 ++ [g.map (fun y => ({ y.1 with late := st == .late }, y.2))])) (s, [])

/-- Check 5 now, at the boundary, on groups that have not passed it (R54). -/
def State.checkNow (s : State) (gs : List (List Item)) : State × List Item :=
  if gs.isEmpty then (s, [])
  else
    let a := stageGroups s gs
    (s.refuseAll a.no, a.ok)

/-- What a release of Firebreak frees commits at its boundary R (R472): late by R − T; those that had not passed check 5
take the verdict of tick R − 1, or take the check now. -/
def State.releaseFreed (s : State) : State :=
  if s.flt.freed.isEmpty then s
  else
    let due := s.flt.freed
    let verd := s.flt.verd
    let s := { s with flt := { s.flt with freed := [], verd := [] } }
    let (s, gs) := s.refate (groupsOf (itemsOf (due.map (·.1))))
    let raw (x : Item) : Bool := due.any (fun d => !d.2 && d.1.grp == x.1.grp && d.1.hdr == x.1.hdr)
    let said (x : Item) : Option Status := (verd.find? (fun v => v.1.grp == x.1.grp && v.1.hdr == x.1.hdr)).map (·.2)
    let new := gs.filter (fun g => g.any (fun x => raw x && (said x).isNone))
    let old := gs.filter (fun g => !g.any (fun x => raw x && (said x).isNone))
    let bad (g : List Item) : Bool := g.any (fun x => raw x && (said x).isSome && said x != some .ok)
    let s := (old.filter bad).foldl (fun s g => g.foldl (fun s x =>
      s.reject x.1.hdr (opcodeOf x.1.cmd) ((said x).getD .aborted)) s) s
    let (s, ok) := s.checkNow new
    s.applyItems (itemsOf (((old.filter (fun g => !bad g)).flatten ++ ok).map (·.1)))

/-- Is a command held back at T+32 of a rate change, to be removed there (Table TK-3)? -/
def State.rateGone (s : State) (p : Picked) : Bool := match s.clk.rc with
  | some rc => !rc.stopped && p.hdr.timed && decide (0 ≤ tsDiff p.hdr.target (rc.t + 32))
  | none => false

/-- The commits of the boundary in force (phase 1): the commit set, with the pending commands whose targets fell in
virtual ticks (R54), which take check 5 now. `virt` says that virtual ticks came before this boundary. -/
def State.commitBoundary (s : State) (virt : Bool) : State :=
  let held (p : Picked) : Bool := s.flt.fire && groupHeld s.host.pend p
  let old := s.host.pend.filter (fun p => decide (tsDiff p.hdr.target s.time.ts ≤ 0) && !held p && !s.rateGone p)
  let now := s.host.commit.filter (fun p => !s.rateGone p)
  let s := { s with host := { s.host with
    commit := s.host.commit.filter s.rateGone,
    pend := s.host.pend.filter (fun p => !old.contains p) } }
  let (s, gs) := if virt then s.refate (groupsOf (itemsOf now)) else (s, groupsOf (itemsOf now))
  let (s, raw) := s.refate (groupsOf (itemsOf old))
  let (s, ok) := s.checkNow raw
  let s := s.applyItems (itemsOf ((gs.flatten ++ ok).map (·.1)))
  s.releaseFreed

/-! ## Rows -/

/-- FIREBREAK_CTRL at its commit boundary; what a release frees commits there. -/
def execFirebreakCtrl (h : Hdr) (op : Nat) (s : State) : Host.Outcome State Fault Refusal :=
  .next ((s.runCmd h (.firebreakCtrl op) 0x0E02 (decide (op < 2)) true (firebreakRefusal s op) (firebreakEffect op)).releaseFreed)

/-- TIMED_COMMIT: a pending command whose target has come commits, with its group, at the boundary in force (R65). One that
Firebreak holds stays (R470). -/
def execTimedCommit (ring tag : Nat) (s : State) : Host.Outcome State Fault Refusal :=
  let all := s.host.commit ++ s.host.pend
  match all.find? (fun p => p.hdr.ring == ring && p.hdr.tag.toNat == tag && p.hdr.timed && decide (tsDiff p.hdr.target s.time.ts ≤ 0)) with
  | none => .next s
  | some p =>
    let grp := all.filter (fun q => q.grp == p.grp)
    if (s.flt.fire && groupHeld grp p) || s.rateGone p then .next s
    else
      let checked : Bool := s.host.commit.contains p
      let s := { s with host := { s.host with
        commit := s.host.commit.filter (fun q => q.grp != p.grp), pend := s.host.pend.filter (fun q => q.grp != p.grp) } }
      let (s, gs) := s.refate (groupsOf (itemsOf grp))
      let (s, ok) := if checked then (s, gs.flatten) else s.checkNow gs
      .next ((s.applyItems (itemsOf (ok.map (·.1)))).releaseFreed)

end Sys2Proof.Machine
end

