-- ==== Sys2Proof/Machine/Pickup.lean ====
section
/-! DEFINITION. Phases 7 and 8: pickup of descriptors by the control core, the movers and the stream engine (R315, R316,
R322, R327, R330 to R332), and staging of what was picked up in the tick before (R18, R65, R328, R331). -/
namespace Sys2Proof.Machine

/-! ## Slots of a ring -/

/-- The descriptors that the DMA read from the next slots of a ring, in index order. -/
def fetchedOf (l : List (Nat × Desc)) (n : Nat) : List Desc := (l.filter (fun p => p.1 == n)).map (·.2)

/-- Free entries of the CPL ring of a ring (R327). -/
def State.cplFree (s : State) (n : Nat) : Nat :=
  let c := s.ring (s.cplOf n)
  s.ringSize (s.cplOf n) - ((c.didx + 65536 - c.hidx) % 65536 + c.resv)

/-- Reserves entries of the CPL ring of a ring. -/
def State.reserve (s : State) (n k : Nat) : State := s.updRing (s.cplOf n) (fun r => { r with resv := r.resv + k })

/-- A tick in which pickup stopped on a ring (HST_RINGn_WAIT). -/
def State.ringWait (s : State) (n : Nat) : State := s.bump (Reg.HST_RING_WAIT n)

/-- The slots from an index lie in a readable window (R313). -/
def State.slotsOk (s : State) (n idx k : Nat) : Bool :=
  (List.range k).all (fun i => s.dmaAllowed (s.slotAddr n (idx + i)) 32 false)

/-- A slot outside the windows: a window violation, and the ring goes into error (R313, R318). -/
def State.slotBad (s : State) (n idx : Nat) : State := (s.winViol n (s.slotAddr n idx)).ringErr n 3

/-! ## CMD rings -/

/-- What the next slots of a CMD ring hold (R316, R330): nothing complete, a PHASE mismatch, a command or a whole group,
or a descriptor of an over-long run. -/
inductive Gather where
  | nothing
  | mismatch
  | run (l : List Desc)
  | long (d : Desc)
  deriving DecidableEq, Repr

/-- Gathers a run from an index with so many descriptors announced; `acc` are those of the run so far. -/
def gatherRun (size : Nat) : Nat → Nat → List Desc → List Desc → Gather
  | _, _, _, [] => .nothing
  | idx, avail, acc, d :: r =>
    if avail = 0 then .nothing
    else if d.phase != lapPhase size idx then .mismatch
    else if !d.hdr.chain then .run (acc ++ [d])
    else if 64 ≤ acc.length + 1 then .long ((acc ++ [d]).headD d)
    else gatherRun size (idx + 1) (avail - 1) (acc ++ [d]) r

/-- The next descriptor alone, while an over-long run has not ended. -/
def gatherOne (size idx avail : Nat) : List Desc → Gather
  | [] => .nothing
  | d :: _ => if avail = 0 then .nothing else if d.phase != lapPhase size idx then .mismatch else .long d

/-- Do the members of a group match its first (R330)? -/
def groupMatch (l : List Hdr) : Bool := match l with
  | [] => true
  | h :: r => r.all (fun x => x.timed == h.timed && (!h.timed || (x.late == h.late && x.target == h.target)))

/-- Checks 1 to 3 of one command picked up in the tick in force. -/
def State.check123 (s : State) (h : Hdr) (c : Cmd) : Status :=
  let x := cmdSpec s h s.time.ts c
  if !(headerOk s h [0] && x.valid) then .invalid else if !x.host then .denied else .ok

/-- The checks 1 to 4 of a group: each member's status, and whether the group runs late. -/
def State.groupCheck (s : State) (l : List (Hdr × Cmd)) (ended : Bool) : List Status × Bool :=
  if ended || !groupMatch (l.map (·.1)) then (l.map (fun _ => .invalid), false)
  else
    let st := l.map (fun x => s.check123 x.1 x.2)
    if st.any (fun x => x != .ok) then (st.map (fun x => if x = .ok then .aborted else x), false)
    else
      let k2 : State := { s with time := { s.time with ts := s.time.ts + 2 } }
      match l with
      | [] => ([], false)
      | x :: _ => match whenOf k2 x.1 with
        | .tooFar => (l.map (fun _ => .invalid), false)
        | .expired => (l.map (fun _ => .expired), false)
        | .nowLate => (st, true)
        | _ => (st, false)

/-- Takes a group, for which there is room, off its ring in the tick in force. -/
def State.takeGroup (s : State) (n : Nat) (l : List Desc) (ended : Bool) : State :=
  let m := l.length
  let g := l.map (fun d => (lockHdr d.cmd { d.hdr with ring := n }, d.cmd))
  let (st, late) := s.groupCheck g ended
  let s := (s.reserve n m).ringAdv n m
  if st.all (fun x => x == .ok) then
    let new := g.map (fun (x : Hdr × Cmd) => Picked.mk x.1 x.2 s.time.ts s.host.grp late)
    { s with host := { s.host with picked := s.host.picked ++ new, grp := s.host.grp + 1 } }
  else (g.zip st).foldl (fun s x => s.rejectNext x.1.1 (opcodeOf x.1.2) x.2) s

/-- Pickup from the CMD rings so far (R332): the state, the allowance left, and once the limit has been reached the ring at
which the next tick starts. -/
structure Pick where
  st      : State
  left    : Nat
  limited : Option Nat

/-- What can be taken from a ring next. -/
def State.gather (s : State) (n : Nat) (l : List Desc) : Gather :=
  let r := s.ring n
  let avail := (r.hidx + 65536 - r.didx) % 65536
  if r.longRun then gatherOne (s.ringSize n) r.didx avail l else gatherRun (s.ringSize n) r.didx avail [] l

/-- Takes a run of descriptors from a ring if the allowance, the journal and the CPL ring have room; `none` when pickup on
the ring stops for the tick. -/
def Pick.take (a : Pick) (n : Nat) (l : List Desc) (ended : Bool) : Pick × Bool :=
  let s := a.st
  let m := l.length
  if a.left < m then ({ a with limited := some n }, false)
  else if 1024 < s.journalLen + m ∨ s.cplFree n < m then ({ a with st := s.ringWait n }, false)
  else if !s.slotsOk n (s.ring n).didx m then ({ a with st := s.slotBad n (s.ring n).didx }, false)
  else
    let a : Pick := { a with st := s.takeGroup n l ended, left := a.left - m }
    if a.left = 0 then ({ a with limited := some (n + 1) }, false) else (a, true)

/-- Pickup from one CMD ring, at most so many times. -/
def Pick.ring (a : Pick) (n : Nat) : Nat → List Desc → Pick
  | 0, _ => a
  | f + 1, l =>
    if a.st.ringType n ≠ 0 ∨ (a.st.ring n).state ≠ .running then a
    else match a.st.gather n l with
      | .nothing => a
      | .mismatch => { a with st := a.st.ringWait n }
      | .run g =>
        let (b, go) := a.take n g false
        if go then Pick.ring b n f (l.drop g.length) else b
      | .long d =>
        let (b, go) := a.take n [d] true
        let took : Bool := decide (b.left < a.left)
        let b : Pick := if took then { b with st := b.st.updRing n (fun r => { r with longRun := d.hdr.chain }) } else b
        if go then Pick.ring b n f (l.drop 1) else b

/-- The CMD rings in the tick that closes (R332). -/
def State.pickCmd (s : State) (fetched : List (Nat × Desc)) : State :=
  let start := s.host.limited.getD 0
  let all := List.range 64
  let order := all.filter (fun n => decide (start ≤ n)) ++ all.filter (fun n => decide (n < start))
  let a := order.foldl (fun (a : Pick) n =>
    if a.limited.isSome then a else let l := fetchedOf fetched n; a.ring n l.length l)
    ⟨s, s.fld Fl.HST_CTRL.PICKUP_MAX, none⟩
  { a.st with host := { a.st.host with limited := a.limited } }

/-! ## The other rings -/

/-- How many slots of a ring have been picked up and not been passed by the consumer index. -/
def Ring.ahead (r : Ring) (ty : Nat) : Nat := match ty with
  | 2 | 3 => (r.queue.filter (fun d => !d.counted)).length
  | 5 => r.nrx.length
  | 7 => r.blk.length
  | _ => 0

/-- Is it time to pick a descriptor up, and has the journal room for it? -/
def State.dataDue (s : State) (n : Nat) (d : Desc) : Bool := match s.ringType n with
  | 2 => streamDue (s.ring n) d.hdr s.time.ts 3
  | 3 => streamDue (s.ring n) d.hdr s.time.ts 2
  | _ => true
def State.dataRoom (s : State) (n : Nat) : Bool :=
  decide (1 ≤ s.cplFree n) && (s.ringType n != 7 || decide (s.journalLen < 1024))

/-- A descriptor with an opcode that its ring does not accept, as INVALID by check 1. -/
def badHdr (h : Hdr) : Hdr := { h with rsv := true }

/-- Picks up one descriptor of a data ring in the tick in force. -/
def State.dataTake (s : State) (n : Nat) (d : Desc) : State :=
  let h : Hdr := { d.hdr with ring := n }
  let op := opcodeOf d.cmd
  match s.ringType n with
  | 2 => (match d.cmd with
    | .hpbData p => s.streamTake h p op 2 3 false
    | _ => s.streamTake (badHdr h) ⟨0, 1⟩ op 2 3 false)
  | 3 => (match d.cmd with
    | .hcpData p => s.streamTake h p op 3 2 true
    | _ => s.streamTake (badHdr h) ⟨0, 1⟩ op 3 2 true)
  | 4 => (match d.cmd with
    | .ntxFrame p => s.ntxTake h p
    | _ => (s.rejectNext h op .invalid).ringAdv n 1)
  | 5 => (match d.cmd with
    | .nrxBuf p => s.nrxTake h p
    | _ => ((s.rejectNext h op .invalid).updRing n (fun r =>
        { r with nrx := r.nrx ++ [NetBuf.mk h 0 0 0 false 0 true] })).nrxPass n)
  | _ => (match d.cmd with
    | .blkLoad p => s.blkTake h p op
    | .blkUnload p => s.blkTake h p op
    | .blkFill p => s.blkTake h p op
    | _ => s.blkTake (badHdr h) ⟨0, 0, 0, 0⟩ op)

/-- Pickup from one data or BLK ring. -/
def State.dataRing (s : State) (n : Nat) : List Desc → State
  | [] => s
  | d :: l =>
    let r := s.ring n
    let idx := (r.didx + r.ahead (s.ringType n)) % 65536
    if r.state ≠ .running ∨ (r.hidx + 65536 - idx) % 65536 = 0 then s
    else if !s.slotsOk n idx 1 then s.slotBad n idx
    else if d.phase != lapPhase (s.ringSize n) idx then s.ringWait n
    else if !s.dataDue n d then s
    else if !s.dataRoom n then s.ringWait n
    else State.dataRing ((s.reserve n 1).dataTake n d) n l

/-- Phase 7 of the tick in force. Nothing is picked up while the device issues no DMA (R341) or the host rings have voted
for sleep; without a control core only the data rings are served (Table AR-4). -/
def State.pickup (s : State) (fetched : List (Nat × Desc)) : State :=
  if !s.dmaOn || s.blockStopped 0 then s
  else
    let core := s.coreUp
    let s := if core then s.pickCmd fetched else { s with host := { s.host with limited := none } }
    (List.range 64).foldl (fun s n =>
      let ty := s.ringType n
      if decide (2 ≤ ty) && decide (ty ≤ 7) && ty != 6 && (ty != 7 || core) then s.dataRing n (fetchedOf fetched n) else s) s

/-! ## Staging -/

/-- The commands that leave the journal in staging: picked up before the tick in force, or all when `all` is set. -/
def State.batch (s : State) (all : Bool) : List Picked :=
  if s.coreUp then s.host.picked.filter (fun p => all || decide (tsDiff p.k s.time.ts < 0)) else []

/-- Groups enter the pending store whole, or the member for which there is no place is BUSY (R65, R331): the store, the
refusals, and the refused commands' rings. -/
structure Enter where
  pend : List Picked
  no   : List Refused
  full : List Nat

def enterGroup (a : Enter) (g : List Item) : Enter :=
  let room := pendMax - a.pend.length
  if g.length ≤ room then { a with pend := a.pend ++ g.map (·.1) }
  else match g[room]? with
    | none => a
    | some b =>
      { a with
        no := a.no ++ g.map (fun (x : Item) => Refused.mk x (if x.2 = b.2 then Status.busy else Status.aborted) (fun s => s)),
        full := a.full ++ g.map (fun (x : Item) => ringOf x.1.hdr) }

/-- CLK_PEND_FULL: one record a tick for each ring with refused commands (R65). -/
def State.pendFull (s : State) (l : List Nat) : State :=
  (List.range 64).foldl (fun s n =>
    let c := (l.filter (fun m => m == n)).length
    if c = 0 then s else s.log Src.CLK 0x1008 3 (wN n) (wN c) 0) s

/-- Firebreak refuses a group in staging (Table FT-3). -/
def fireRefused (g : List Item) : List Refused :=
  g.map (fun (x : Item) => Refused.mk x (if fireExempt x.1.cmd then Status.aborted else Status.denied) (fun s => s))

/-- What a group brings by its own header: does it wait in the pending store for a boundary after the next? -/
def groupWaits (next : TS) (g : List Item) : Bool := match g with
  | [] => false
  | x :: _ => x.1.hdr.timed && !x.1.late && decide (0 < tsDiff x.1.hdr.target next)

/-- Check 5 in tick R − 1 of the commands that a release of Firebreak at the next boundary frees (R472). -/
def State.fireVerdicts (s sim : State) (next : TS) : State :=
  let due := s.host.pend.filter (fun p => groupHeld s.host.pend p && decide (tsDiff p.hdr.target next ≤ 0))
  let live := (groupsOf (itemsOf due)).filter (fun g => match g with
    | [] => false
    | x :: _ => sim.lateFate x.1.hdr != .expired)
  let a := stageGroups sim live
  let s := (a.no.foldl (fun s f => f.note s) s).faderFullLog
  { s with flt := { s.flt with
    verd := a.ok.map (fun x => (x.1, Status.ok)) ++ a.no.map (fun f => (f.item.1, f.st)) } }

/-- In staging a fader ramp in its last tick holds its slot no longer (R181). -/
def slotsNext (m : SMap GRamp) : SMap GRamp := m.map (fun p => (p.1, if grOver p.2 then { p.2 with slot := false } else p.2))

/-- Phase 8 of the tick in force (R18, R65, R328, R331, R358, R362). With `all` the commands picked up in this very tick
are staged too: virtual ticks follow it. -/
def State.stageTick (s : State) (all : Bool) : State :=
  let next : TS := s.time.ts + 1
  let batch := s.batch all
  let gs := groupsOf (itemsOf batch)
  let fire := s.flt.fire
  let stop (g : List Item) : Bool := fire && g.any (fun x => !fireExempt x.1.cmd)
  let denied := (gs.filter stop).flatMap fireRefused
  let gs := gs.filter (fun g => !stop g)
  let waits := gs.filter (groupWaits next)
  let now := gs.filter (fun g => !groupWaits next g)
  let e := waits.foldl enterGroup ⟨s.host.pend, [], []⟩
  let due := s.host.pend.filter (fun p =>
    decide (tsDiff p.hdr.target next ≤ 0) && !(fire && groupHeld s.host.pend p) && !s.rateGone p)
  let items := now.flatten.map (·.1) ++ due
  let sim : State := { s with
    time := { s.time with ts := next },
    thk := { s.thk with ramps := slotsNext s.thk.ramps },
    host := { s.host with
      picked := now.flatten.map (·.1),
      pend := due ++ e.pend.filter (fun p => decide (1 < tsDiff p.hdr.target next)) } }
  let a := stageGroups sim (groupsOf (itemsOf items))
  let s : State := { s with host := { s.host with
    picked := s.host.picked.filter (fun p => !batch.contains p),
    pend := e.pend.filter (fun p => !due.contains p),
    commit := s.host.commit ++ a.ok.map (·.1) } }
  let s := (s.refuseAll (denied ++ e.no ++ a.no)).pendFull e.full
  let frees : Bool := a.ok.any (fun x => x.1.cmd == .firebreakCtrl 1)
  let s := if fire && frees then s.fireVerdicts a.sim next else s
  s.ledger (a.sim.costs a.sim.clk.rate a.sim.thkNodes.length)

end Sys2Proof.Machine
end

