-- ==== Sys2Proof/Machine/Tick.lean ====
section
/-! DEFINITION. The tick boundary, the step boundary and the timeouts (Table AR-3): the phases of a tick, the level
processing of the inputs, the first tick after RUN, what the output converters are given, the counts of R483. -/
namespace Sys2Proof.Machine

/-! ## Level processing of the inputs (R94, R95) -/

/-- The sample of an address in what the plant brings; none brings zero. -/
def sampleOf (l : List (Nat × Word)) (a : Nat) : Int := match l.find? (fun p => p.1 == a) with
  | some p => p.2.toInt
  | none => 0

/-- A free number from 0 to 1. -/
def unitFree (q : Rat) : Rat := if q < 0 then 0 else if 1 < q then 1 else q

/-- The corner of a DC code in Hz (R94). -/
def dcCorner (code : Nat) : Rat := match code with
  | 1 => 1 | 2 => 5 / 2 | 3 => 5 | _ => 10

/-- DC removal at a sample rate in Hz (R94): a first-order high-pass, y = a·y' + g·(x − x'), rounded and held as Q2.30.
With w the corner in radians per sample, its pole a lies from 1 − w to 1 − w + w² and its gain g from 1 − w to 1, where
every first-order high-pass of that corner has them; where in these ranges the manual does not say. While the code is 0
the sample passes, and the filter that is switched on later starts from it. -/
def dcNext (code hz : Nat) (c : DcSt) (raw : Int) : DcSt :=
  if code = 0 then ⟨raw, raw⟩
  else
    let w : Rat := 2 * fpRat fpPi * dcCorner code / (hz : Rat)
    let a := 1 - w + w * w * unitFree (Config.dcPole code hz)
    let g := 1 - w * unitFree (Config.dcGain code hz)
    ⟨raw, satQ31 (roundFree (a * (c.y : Rat) + g * ((raw - c.x : Int) : Rat)))⟩

/-- x of R94 in parts of full scale: the filter's last output. -/
def dcOut (c : DcSt) : Rat := (c.y : Rat) / 2 ^ 30

/-- A PDM sample as Q2.30 (R86): the plant's samples 2p and 2p+1 are the filtered fractions of ones d, as Q2.30, on the
rising and on the falling edge of port p; SWAP exchanges the edges; the sample is 2d − 1. -/
def State.pdmRaw (s : State) (l : List (Nat × Word)) (n : Nat) : Int :=
  let e := (n + wB (bitN (s.fld Fl.AIN_PDM_CFG.SWAP) (n / 2))) % 2
  satQ31 (2 * sampleOf l (addrOf 0x01 (2 * (n / 2) + e)) - 2 ^ 30)

/-- Soft clip (R94). -/
def softClip (code : Nat) (x : Rat) : Int :=
  let a := ratAbs x
  let full : Rat := (2 ^ 31 - 1) / 2 ^ 31
  let t : Rat := match code with
    | 1 => 891 / 1000 | 2 => 707 / 1000 | _ => 1 / 2
  let u := (a - t) / (1 - t)
  let y := if code = 0 then min a full else if a ≤ t then a else if 2 - t ≤ a then full else t + (1 - t) * (u - u * u / 4)
  let q := clampI 0 (2 ^ 31 - 1) (roundAway (y * 2 ^ 31))
  if x < 0 then -q else q

/-- The Thicket tap of an analog input in the tick that opens, with its clip events (R94 to R96). -/
def State.ainPlace (s : State) (x : TickIn) (n : Nat) : State :=
  let c := s.ainCh n
  if !cfgEn c.analog then s
  else
    let w := c.analog
    let d := dcNext (cfgDc w) (fdHz s.clk.rate) c.dcThk (sampleOf x.samples (addrOf 0x00 n))
    let v := dcOut d
    let held := s.clipHeld c
    let s := s.setAin n { c with dcThk := d }
    let s := if !held && x.aclip.contains n then s.ainClip n false else s
    let s := if !held && decide (1 ≤ ratAbs v) then s.ainClip n true else s
    s.place (addrOf 0x00 n) ⟨scaleQ31 (softClip (cfgSoft w) v) (c.mute.cur * c.jack.cur * c.fault.cur * c.filt.cur), 0⟩

/-- The Thicket tap of a PDM channel (R86, R88, R94 to R96, R104). -/
def State.pdmPlace (s : State) (x : TickIn) (n : Nat) : State :=
  let c := s.pdmCh n
  let w := s.rd (Reg.AIN_PDMCH n)
  if !pdmRateOk (s.pdmRate (n / 2)) s.clk.rate || (!cfgEn w && c.en.cur == 0) then s
  else
    let d := dcNext (cfgDc w) (fdHz s.clk.rate) c.dcThk (s.pdmRaw x.samples n)
    let v := dcOut d
    let s := s.setPdm n { c with dcThk := d }
    let s := if 1 ≤ ratAbs v then s.pdmClip n else s
    s.place (addrOf 0x01 n) ⟨scaleQ31 (softClip (cfgSoft w) v) (c.mute.cur * c.fault.cur * c.en.cur * c.filt.cur), 0⟩

/-- The Trail channels' decimated outputs and the loudspeaker sense samples (R14, R15, R482). -/
def State.trailPlace (s : State) (x : TickIn) : State :=
  let s := (List.range 16).foldl (fun s n =>
    let c := s.trlCh n
    if trlActive c then s.place (addrOf 0x08 n) ⟨sampleOf x.samples (addrOf 0x08 n), c.tag⟩ else s) s
  (List.range 4).foldl (fun s n =>
    if cfgEn (s.rd (Reg.SPK_CFG (n / 2))) then s.place (addrOf 0x0B n) ⟨sampleOf x.samples (addrOf 0x0B n), 0⟩ else s) s

/-- The bias currents (AIN_BIASMONn). -/
def State.biasMon (s : State) (l : List (Nat × Nat)) : State :=
  l.foldl (fun s p => if p.1 < 8 then s.wr (Reg.AIN_BIASMON p.1) (wN (min p.2 65535)) else s) s

/-- The samples that come with a boundary (R14). -/
def State.placeInputs (s : State) (x : TickIn) : State :=
  let s := (List.range 10).foldl (fun s n => s.ainPlace x n) s
  let s := (List.range 8).foldl (fun s n => s.pdmPlace x n) s
  (s.trailPlace x).biasMon x.bias

/-! ## The inputs' ramps and sequences -/

/-- An analog input at a boundary: its factors, the ramp up of a filter change at T+64, the ends of sequences
(R95, R99, Table AI-8). -/
def State.ainRamps (s : State) (n : Nat) : State :=
  let c := s.ainCh n
  let c : AinCh := { c with mute := facTick c.mute, jack := facTick c.jack, fault := facTick c.fault, filt := facTick c.filt }
  s.setAin n (match c.seq with
    | some q =>
      if !q.switched then c
      else if q.fe then (if s.reached q.t (64 + settleTk s.clk.rate) then { c with seq := none } else c)
      else if s.reached q.t 96 then { c with seq := none }
      else if s.reached q.t 64 && c.filt.tgt == 0 then { c with filt := facGo c.filt 1 32 }
      else c
    | none => c)

def State.pdmRamps (s : State) (n : Nat) : State :=
  let c := s.pdmCh n
  let c : PdmCh := { c with mute := facTick c.mute, fault := facTick c.fault, en := facTick c.en, filt := facTick c.filt }
  s.setPdm n (match c.seq with
    | some q =>
      if !q.switched then c
      else if s.reached q.t 96 then { c with seq := none }
      else if s.reached q.t 64 && c.filt.tgt == 0 then { c with filt := facGo c.filt 1 32 }
      else c
    | none => c)

/-- Every ramp advances one tick (phase 1). -/
def State.allRamps (s : State) : State :=
  let s := (s.ainJackGo 0).ainJackGo 1
  let s := (s.ain.ch.map (·.1)).foldl State.ainRamps s
  let s := (s.ain.pdm.map (·.1)).foldl State.pdmRamps s
  let s := (s.aout.ch.map (·.1)).foldl (fun s n => s.updAout n aoutRamps) s
  let s := (s.jackTick 0).jackTick 1
  let s := (s.aout.ch.map (·.1)).foldl State.aoutSched s
  let s := s.aoutRequests
  let s := s.spkTick (s.trlOn 12) (s.trlOn 13)
  let s := (((s.thkRamps).fxRamps).clipRamps).loopRamps
  let s := (s.sap.map (·.1)).foldl State.sapRamps s
  s.setClk { s.clk with fade := grTick s.clk.fade }

/-! ## The first tick after RUN -/

/-- Inputs enabled before RUN run the rows of Table AI-8 from T+32 on, T being the first tick (R105): until T+32 the front
end is as a disabled input has it and the taps are at zero. No AIN_FE_CHANGE is logged, as no command starts this sequence
(DESIGN CHOICE, log entry 21). -/
def State.ainFirst (s : State) : State :=
  let one (s : State) (n : Nat) : State :=
    let w := s.rd (Reg.AIN_CFG n)
    let off := withBits w 31 1 0
    let c : AinCh := { s.ainCh n with analog := off, gain := cfgGain w, steps := 0, mute := facAt (if cfgMute w then 0 else 1) }
    s.setAin n (if cfgEn w then { c with fault := facZero, seq := some ⟨true, s.time.ts, off, false⟩ } else c)
  let pdm (s : State) (n : Nat) : State :=
    let w := s.rd (Reg.AIN_PDMCH n)
    let c : PdmCh := { s.pdmCh n with mute := facAt (if cfgMute w then 0 else 1) }
    s.setPdm n (if cfgEn w then { c with en := facGo facZero 1 32 } else c)
  (List.range 8).foldl pdm ((List.range 10).foldl one s)

/-- The outputs' configuration written before RUN: the mute factors stand as MUTE says, and the enabled channels run their
enable sequence from the first tick, or from the first boundary at which they have their supply (R114, R128, R135). -/
def State.outFirst (s : State) : State :=
  let s := (lineChans ++ hpChans).foldl (fun s n =>
    let w := s.rd (Reg.AOUT_CFG n)
    s.updAout n (fun c => { c with mute := facAt (if cfgMute w then 0 else 1), wait := cfgEn w })) s
  [0, 1].foldl (fun s n =>
    let w := s.rd (Reg.SPK_CFG n)
    if cfgEn w && s.spkFree n then
      s.updSpk n (fun c => { c with
        fault := facZero, seq := some ⟨.enable, s.time.ts, w, false, false⟩, settled := false, fsv := spkFsv w, filt := cfgFilt w })
    else s) s

/-- What the first tick after RUN does beside its phases (R180, R205, R268). -/
def State.firstTick (s : State) : State := ((((s.ainFirst).outFirst).trlFirst).thkFirst).sapFirst

/-! ## The output converters -/

/-- The sink address of an output channel is its key in `conv`: 0-7 line, 8-11 headphone, 12-13 loudspeaker. -/
def State.setConv (s : State) (k : Nat) (v : Int) : State := { s with aout := { s.aout with conv := smSet s.aout.conv k v } }

/-- The outputs that no Trail channel drives convert their sink samples at tick rate (R113, R134). -/
def State.convTick (s : State) : State :=
  let s := (List.range 12).foldl (fun s k =>
    if s.trlOn k then s else s.setConv k (s.aoutValue k (s.sinkVal (outAddr k)).val)) s
  [0, 1].foldl (fun s n =>
    if s.trlOn (12 + n) || !cfgEn (s.rd (Reg.SPK_CFG n)) then s
    else
      let v := (s.sinkVal (outAddr (12 + n))).val
      (s.setConv (12 + n) (s.spkValue n v)).spkRead n v) s

/-- The factors of a line or headphone channel at step j of S. -/
def aoutStepFactor (c : AoutCh) (j S : Nat) : Rat :=
  facStep c.mute j S * facStep c.jack j S * min (facStep c.fault j S) (facStep c.rfault j S) * facStep c.state j S

/-- The outputs that the Trail drives convert at step rate (R113, R134, R201). -/
def State.convStep (s : State) (dl : List (Nat × Int)) : State :=
  let j := s.step
  let S := stepsPerTk s.clk.rate
  let s := (List.range 12).foldl (fun s k =>
    if s.trlOn k then
      let c := s.aoutCh k
      s.setConv k (if s.drives k then scaleQ31 (s.modInput k dl) (aoutStepFactor c j S) else 0)
    else s) s
  [0, 1].foldl (fun s n =>
    if s.trlOn (12 + n) then
      let v := s.modInput (12 + n) dl
      let s := s.setConv (12 + n) (s.spkValue n v)
      s.updSpk n (fun c => { c with trailMv := s.need c ((v : Rat) / 2 ^ 31 * spkFactor c) })
    else s) s

/-! ## Output ticks (R483) -/

/-- The quality tag of the value that an output channel reads. -/
def State.outTag (s : State) (a : Nat) : Nat :=
  let sel := (s.sinkVal (BitVec.ofNat 16 a)).tag
  match outOf (BitVec.ofNat 16 a) with
  | some k => match smGet? s.trl.owner k with
    | some c => (s.trlCh c).tag
    | none => sel
  | none => sel

def addSat64 (a n : Nat) : Nat := min (a + n) (2 ^ 64 - 1)

/-- Each output channel adds one output tick to the counter of its tag. -/
def State.countOutputs (s : State) : State :=
  let on : Bool := s.pwr.state == .awake || s.pwr.state == .entering || s.pwr.state == .rolling
  if !on then s
  else
    let tags := s.outputs.map s.outTag
    let n (t : Nat) : Nat := (tags.filter (fun x => x == t)).length
    { s with flt := { s.flt with
      good := addSat64 s.flt.good (n 0), ext := addSat64 s.flt.ext (n 1), host := addSat64 s.flt.host (n 2),
      bad := addSat64 s.flt.bad (n 3) } }

/-- FLT_CTRL.AV_CLR takes effect. -/
def State.avClear (s : State) : State :=
  if s.flt.avClr then { s with flt := { s.flt with avClr := false, good := 0, bad := 0, ext := 0, host := 0 } } else s

/-! ## Timeouts (R67) -/

/-- Phase 5: the waits whose timeout has come. -/
def State.timeouts (s : State) : State :=
  (s.host.waits.filter (fun w => decide (tsDiff w.timeout s.time.ts ≤ 0))).foldl (fun s w => s.endWait w .timeout 0 0 0) s

/-- WAIT_TIMEOUT: phase 5 in the tick in force. -/
def execWaitTimeout (s : State) : Host.Outcome State Fault Refusal := .next (if s.time.running then s.timeouts else s)

/-! ## Phases 7 to 9 of the tick that closes -/

/-- How many ticks on from the last real boundary the next one lies; more than one: virtual ticks lie between. -/
def State.nextGap (s : State) : Int := tsDiff (s.time.placed.getD (s.time.ts + 1)) s.time.lastTs

/-- What ends with a tick before its boundary: late doorbell, meters, transmit values, talkers, capture, buffer reads. -/
def State.closeData (s : State) (x : TickIn) : State :=
  let s := if s.host.issued then s.dbLate else s
  let s := if s.blockStopped 3 then s else s.meterTick
  let s := if s.blockStopped 2 then s else (s.sap.map (·.1)).foldl (fun s k => if 8 ≤ k then s.sapWrite k else s) s
  let s := if s.blockStopped 1 then s else s.netClose
  let s := (s.ringsOf 3).foldl State.hcpTick s
  (s.ringsOf 2).foldl (fun s n => s.hpbRead n ((x.playback.filter (fun p => p.1 == n)).map (·.2))) s

/-- CLK_PEND_FULL of the tick for the rings whose commands found the pending store full (R65). -/
def State.pendFullLog (s : State) : State :=
  let l := s.host.fullCnt
  l.foldl (fun s p => s.log Src.CLK 0x1008 3 (wN p.1) (wN p.2) 0) { s with host := { s.host with fullCnt := [] } }

/-- The codewords that reads corrected in the tick that closes count; MEM_CE reports those of a second once it has passed
(R462, R486). -/
def State.countCe (s : State) (x : Nat × Nat) : State :=
  let s := (s.bumpBy Reg.MEM_CE_CNT x.1).bumpBy Reg.MEM_SRAM_CE_CNT x.2
  let n := (s.flt.ce.1 + x.1, s.flt.ce.2 + x.2)
  let sec := s.time.bdt.toNat / oneSecond
  if sec = s.flt.ceSec then { s with flt := { s.flt with ce := n } }
  else
    let s := if n.1 = 0 then s else s.log Src.MEM 0x7001 1 (wN n.1) 0 0
    let s := if n.2 = 0 then s else s.log Src.MEM 0x7001 1 (wN n.2) 1 0
    { s with flt := { s.flt with ce := (0, 0), ceSec := sec } }

/-- Phases 7 to 9 of the tick in force, in the order of Table AR-3: pickup; staging and the checks of enabled rings (R317);
write-backs, records, the consumer page, messages. -/
def State.closePhases (s : State) (x : TickIn) (gap : Bool) : State :=
  let s := (s.closeData x).pickup x.fetched
  let s := ((s.stageTick gap).pendFullLog).ringChecks
  ((((s.wbFlush).drain).cpWrite).msixTick)

/-- The last tick closes. When the next boundary has been placed already, the machine's clock stands there; the tick that
closes is the one before. -/
def State.closeTick (s : State) (x : TickIn) : State :=
  if !s.time.started then s
  else
    let t := s.time
    let gap : Bool := decide (2 ≤ s.nextGap)
    let old : State := { s with flt := { s.flt with hung := x.hung }, time := { t with
      ts := t.lastTs, bdt := t.lastDt, bdts := if t.placed.isSome then t.bdts.drop 1 else t.bdts } }
    let s := (old.countCe x.ce).closePhases x gap
    { s with time := { s.time with ts := t.ts, bdt := t.bdt, bdts := t.bdts } }

/-! ## Phases 1 to 6 of the tick that opens -/

/-- The count, the DT and the interchange's halves (R14, R49, R51). -/
def State.openTime (s : State) (dt : DT) : State :=
  let b := s.boundaryDt dt
  let q := s.boundaryExact b
  let pers := if s.time.started && s.time.placed.isNone then s.periodsWith b else s.time.pers
  let s := s.advance b
  let t := s.time
  let ts : TS := t.placed.getD (t.ts + 1)
  let d := t.dt
  let oldest := match s.lsn.blocks.head? with
    | some b => b.dt.toNat
    | none => d.toNat - blockNs
  let bdts := if !t.started then [d] else if t.placed.isSome && t.bdts.head? == some d then t.bdts else (d :: t.bdts).take 1025
  { s with
    time := { t with ts := ts, bdt := d, running := true, hadTick := true, started := true, placed := none, lastTs := ts, lastDt := d,
                     bdts := bdts, exact := q, pers := pers,
                     past := boundsFrom oldest (⟨ts, d, t.vrate⟩ :: t.past) },
    step := 0, interOld := s.inter, inter := s.inter2, inter2 := [] }

/-- Do the engines stand still in a change of the house rate (Table TK-3)? -/
def State.rateHalt (s : State) : Bool := match s.clk.rc with
  | some rc => rc.s.isNone && decide (0 ≤ tsDiff s.time.ts (rc.t + 32))
  | none => false

/-- A change of the house rate is over at S+32, before the commits of that boundary (DESIGN CHOICE, log entry 132). -/
def State.rateDone (s : State) : State := match s.clk.rc with
  | some rc => match rc.s with
    | some b => if 32 ≤ tsDiff s.time.ts b then s.setClk { s.clk with rc := none } else s
    | none => s
  | none => s

/-- Rejections of pickup are written in the tick after it (R329). -/
def State.dueWrites (s : State) : State :=
  let l := s.host.dueWb
  l.foldl (fun s d => s.complete d.1 d.2.1 d.2.2 s.time.ts s.time.bdt 0 0 0 false) { s with host := { s.host with dueWb := [] } }

/-- The write-backs of the boundary that opens, where a wake or a rate change placed it. -/
def State.openWrites (s : State) : State :=
  let l := s.host.openWb
  l.foldl (fun s w => s.complete w.hdr w.opcode w.status w.ts w.dt w.r0 w.r1 w.r2 w.force) { s with host := { s.host with openWb := [] } }

/-- The ramps up of the outputs at the first boundary after a sleep and at S of a rate change (Tables AO-6, TK-3). -/
def State.resumeRamps (s : State) : State :=
  let s := if s.pwr.woke then (s.aoutFactors 1 32).setWoke false else s
  match s.clk.rc with
  | some rc => if rc.s = some s.time.ts then s.pilotRateResume else s
  | none => s

/-- Phase 1 after the boundary's own values: requests, ends, ramps, commits. -/
def State.openConfig (s : State) (virt : Bool) : State :=
  let s := ((((s.fireEngage).avClear).resetTicks).ringsOpen).openWrites
  let s := ((s.voicesEnd).takesEnd).groveEnds
  (((((s.allRamps).resumeRamps).rollTick).rateDone).commitBoundary virt).dueWrites

/-- Phase 3: what the boundary brings to the sources. -/
def State.openArrivals (s : State) (x : TickIn) : State :=
  let s := s.placeInputs x
  let s := (s.sapTick).netTick
  (s.ringsOf 2).foldl State.hpbTick s

/-- Interchange words that are found uncorrectable when this tick reads them: each reads what its source returned in the
tick before, and counts as bad data (Table FT-1, R482). -/
def State.interErrors (s : State) : State :=
  let l := s.flt.ixUe
  l.foldl (fun s a => s.place a ⟨(smGet s.interOld a ⟨0, 0⟩).val, 3⟩) { s with flt := { s.flt with ixUe := [] } }

/-- The leader's error sample of the tick (R37, Table TK-2). -/
def State.leaderSample (s : State) (wclk : List DT) : Option Int := match s.clk.kind with
  | 3 => s.wclkErr wclk
  | 4 => s.netErr
  | _ => s.sapErr

/-- A port's frame and a stream's media-clock edge serve one error sample. -/
def State.edgesUsed (s : State) : State :=
  { s with
    sap := s.sap.map (fun (p : Nat × SapDir) => (p.1, { p.2 with fresh := false })),
    net := { s.net with ctx := s.net.ctx.map (fun (p : Nat × NetCtx) => (p.1, { p.2 with edges := p.2.edges.filter (fun d => decide (s.time.bdt.toNat ≤ d.toNat)) })) } }

/-- Phase 6. -/
def State.computeTick (s : State) (absent : List (Nat × List Nat)) : State :=
  let s := s.engineSave
  if s.rateHalt || s.blockStopped 3 then s else (((s.thkRun).fxRun).clipRun absent).loopRun

/-- Phases 1 to 6 of the tick that opens, and the doorbell fetch. -/
def State.openTick (s : State) (x : TickIn) (first virt : Bool) : State :=
  let s := s.openTime x.dt
  let s := if s.rateHalt then { s with inter := [] } else s
  let s := if first then s.firstTick else s
  let s := (s.openConfig virt).dbFetch
  let s := (s.openArrivals x).interErrors
  let s := (((s.spkEvents).streamWaits).arrivals).timeouts
  let s := if s.rateHalt then s else s.wclkEdges x.wclk
  let s := (s.leaderLoop (s.leaderSample x.wclk)).edgesUsed
  let s := (s.computeTick x.starved).convTick
  (s.blkStarts).countOutputs

/-- Can a real boundary come: the house clock runs, or its first boundary has been placed (R33)? -/
def State.tickCan (s : State) : Bool := s.time.running || (s.time.placed.isSome && s.pwr.state != .waking)

/-- TICK_BOUNDARY: the tick in force ends and the next begins. -/
def execTickBoundary (x : TickIn) (s : State) : Host.Outcome State Fault Refusal :=
  .next (if s.tickCan then
      let virt : Bool := s.time.started && decide (2 ≤ s.nextGap)
      (s.closeTick x).openTick x (!s.time.started) virt
    else s)

/-! ## Steps (R13) -/

/-- What the Trail reads at this step: the Trail taps of inputs and PDM channels, the merged buses, other sources at tick
rate (R94, R95, R192, R193). -/
def State.stepVal (s : State) (x : StepIn) (a : Nat) : Int :=
  let j := s.step
  let S := stepsPerTk s.clk.rate
  let i := a % 1024
  match a / 1024 with
  | 0x00 =>
    let c := s.ainCh i
    if cfgEn c.analog then
      scaleQ31 (softClip (cfgSoft c.analog) (dcOut c.dcTrl))
        (facStep c.mute j S * facStep c.jack j S * facStep c.fault j S)
    else 0
  | 0x01 =>
    let c := s.pdmCh i
    let w := s.rd (Reg.AIN_PDMCH i)
    if pdmTrailTap (s.pdmRate (i / 2)) && (cfgEn w || c.en.cur != 0) then
      scaleQ31 (softClip (cfgSoft w) (dcOut c.dcTrl))
        (facStep c.mute j S * facStep c.fault j S * facStep c.en j S)
    else 0
  | 0x07 => sampleOf x.merges a
  | _ => (s.src a).val

/-- The Trail taps at a step: gain moves look at them before level processing (R79), and each passes its DC removal at
step rate (R94). -/
def State.tapSteps (s : State) (x : StepIn) : State :=
  let hz := fdHz s.clk.rate * stepsPerTk s.clk.rate
  let s := (List.range 10).foldl (fun s n =>
    let c := s.ainCh n
    let raw := sampleOf x.samples (addrOf 0x00 n)
    if cfgEn c.analog then s.setAin n { gainStep c raw with dcTrl := dcNext (cfgDc c.analog) hz c.dcTrl raw } else s) s
  (List.range 8).foldl (fun s n =>
    let c := s.pdmCh n
    let w := s.rd (Reg.AIN_PDMCH n)
    if cfgEn w || c.en.cur != 0 then s.setPdm n { c with dcTrl := dcNext (cfgDc w) hz c.dcTrl (s.pdmRaw x.samples n) } else s) s

/-- The work of a step. -/
def State.stepWork (s : State) (x : StepIn) : State :=
  let s := s.tapSteps x
  let (s, dl) := s.trlStep (s.stepVal x)
  let s := s.convStep dl
  let s := s.spkStep (s.trlOn 12) (s.trlOn 13) x.bstMv x.pvddMv x.mods
  { s with step := s.step + 1 }

/-- STEP_BOUNDARY: the next step of the tick in force; its first comes with the tick boundary. -/
def execStepBoundary (x : StepIn) (s : State) : Host.Outcome State Fault Refusal :=
  let s := s.advance x.dt
  .next (if s.time.running && decide (s.step < stepsPerTk s.clk.rate) && !s.rateHalt && !s.blockStopped 3 then s.stepWork x else s)

end Sys2Proof.Machine
end

