-- ==== Sys2Proof/Machine/Twb.lean ====
section
/-! DEFINITION. The two-wire management target (chapter 12): its transactions, register access, log and dump reads,
wake, arm and recover. -/
namespace Sys2Proof.Machine

/-- The bus engine works while Canopy and VIO2 are up and RESET_N is released. -/
def State.twbOn (s : State) : Bool := s.sup.canopy && s.sup.vio2 && !s.sup.resetN

/-- Registers and stores can be reached: the core is up and set-up has begun. -/
def State.twbCore (s : State) : Bool := !s.coreDown && s.hwd.running

/-- A transaction addressed to the target: it disarms RECOVER (R379). -/
def State.twbBegin (s : State) (cmd : BitVec 8) (dt : DT) : State :=
  let s := s.advance dt
  { s with twb := { s.twb with armed := none, ranOut := s.twb.ranOut && s.twb.armed.isNone, lastCmd := cmd } }

/-- An abandoned or discarded transaction (R368, R370, R382). -/
def State.twbAbandoned (s : State) (cmd : BitVec 8) : State :=
  (s.bump Reg.TWB_ABANDONCNT).logLim Src.TWB 0xB002 1 0 0 1 s.time.dt 1 (wN cmd.toNat) 0

/-- The bytes of a word, the lowest first (R9). -/
def le32 (w : Word) : List Byte := (List.range 4).map (fun i => w.extractLsb' (8 * i) 8)
def byteN (n : Nat) : Byte := BitVec.ofNat 8 n

/-- The PEC: CRC-8 over x^8 + x^2 + x + 1 with the initial value 0 (R369). -/
def crc8Bit (c : Byte) : Nat → Byte
  | 0 => c
  | n + 1 => crc8Bit (if c.getLsbD 7 then (c <<< 1) ^^^ 0x07 else c <<< 1) n
def crc8 (l : List Byte) : Byte := l.foldl (fun c b => crc8Bit (c ^^^ b) 8) 0

/-- The address byte of the target, for a write or a read (R364). -/
def State.twbAddr (s : State) (read : Bool) : Byte := BitVec.ofNat 8 (2 * (0x58 + s.twb.sel.toNat) + wB read)

/-- The PEC of a write, over its address, command and data bytes. -/
def State.writePec (s : State) (cmd : BitVec 8) (data : List Byte) : Byte := crc8 (s.twbAddr false :: cmd :: data)

/-- A write discarded for its PEC. -/
def State.twbPecFail (s : State) (cmd : BitVec 8) (data : List Byte) (tx : Tx) : State :=
  (s.bump Reg.TWB_PECCNT).logLim Src.TWB 0xB003 3 0 3 1 s.time.dt (wN cmd.toNat) (wN (tx.pec.getD 0).toNat)
    (wN (s.writePec cmd data).toNat)

/-- Is the PEC of a write missing or wrong while it is required (R368)? -/
def State.pecBad (s : State) (cmd : BitVec 8) (data : List Byte) (tx : Tx) : Bool :=
  s.flag Fl.TWB_CTRL.PEC_EN && tx.pec != some (s.writePec cmd data)

/-- TWB_STATUS.LAST. -/
def State.twbLast (s : State) (st : Status) : State := { s with twb := { s.twb with last := st } }

/-- A write transaction (R368, R372): `eff` when it commits in a state that serves it; else BUSY. -/
def State.twbWrite (s : State) (cmd : BitVec 8) (data : List Byte) (tx : Tx) (eff : State → State × Status) : State :=
  let s := s.twbBegin cmd tx.dt
  if !tx.complete then s.twbAbandoned cmd
  else if s.pecBad cmd data tx then s.twbPecFail cmd data tx
  else if !s.twbCore then s.twbLast .busy
  else
    let (t, st) := eff s
    t.twbLast st

/-- The response of a read, with its PEC appended while PEC_EN is set (R369). -/
def State.answer (s : State) (bytes : List Byte) : State :=
  let pec := crc8 (s.twbAddr false :: s.twb.lastCmd :: s.twbAddr true :: bytes)
  { s with twb := { s.twb with resp := if s.flag Fl.TWB_CTRL.PEC_EN then bytes ++ [pec] else bytes } }

/-- A fixed-length response: the status byte, then the data. -/
def State.respond (s : State) (st : Status) (data : List Byte) : State :=
  s.answer (byteN (statusCode st) :: data)

/-- A counted block: the count, the status byte, then the data (R367). -/
def State.respondBlock (s : State) (st : Status) (data : List Byte) : State :=
  s.answer (byteN (data.length + 1) :: byteN (statusCode st) :: data)

/-- The response cannot be gathered: BUSY, and data of 0xFF (R366, R372). -/
def State.respondBusy (s : State) (n : Nat) : State := s.respond .busy (List.replicate n 0xFF)

/-- Is a read complete, so that what it advances may move (R369)? -/
def State.readDone (s : State) (tx : Tx) : Bool := tx.complete && (!s.flag Fl.TWB_CTRL.PEC_EN || tx.pec.isSome)

/-! ## Fixed-length commands (R372) -/

/-- The power state that STATUS shows: while the device enters or rolls back it is awake, while it wakes it is still in
the state that it leaves. -/
def State.twbPower (s : State) : Nat := match s.pwr.state with
  | .shade => 1 | .glade => 2 | .clearing => 3 | .moss => 4 | .waking => s.pwr.left | _ => 0

def State.statusBytes (s : State) : List Byte :=
  le32 s.twbStatus ++ [byteN s.twbPower, s.time.epoch,
    byteN (wB s.faultN + 2 * wB s.flt.fire + 4 * wB s.flt.alive + 8 * wB (s.host.speed != 0) + 16 * wB s.flt.dump.isSome), 0]

def execStatus (tx : Tx) (s : State) : Host.Outcome State Fault Refusal :=
  .next (if s.twbOn then
    let s := s.twbBegin 0x00 tx.dt
    s.respond .ok s.statusBytes else s)

def execIdent (tx : Tx) (s : State) : Host.Outcome State Fault Refusal :=
  .next (if s.twbOn then (s.twbBegin 0x01 tx.dt).respond .ok (le32 0x4B579320) else s)

/-- DT: the device time of the read. -/
def execDt (tx : Tx) (s : State) : Host.Outcome State Fault Refusal :=
  .next (if s.twbOn then
    let s := s.twbBegin 0x02 tx.dt
    s.respond .ok (le32 (s.time.dt.extractLsb' 0 32) ++ le32 (s.time.dt.extractLsb' 32 32)) else s)

def execAlert (tx : Tx) (s : State) : Host.Outcome State Fault Refusal :=
  .next (if s.twbOn then
    let s := s.twbBegin 0x03 tx.dt
    s.respond .ok (le32 (s.rd Reg.TWB_ALERT)) else s)

/-- A pointer of the target, written by `set` or read. -/
def State.twbPointer (s : State) (cmd : BitVec 8) (w : Option Word) (tx : Tx) (get : TwbSt → Word) (set : TwbSt → Word → TwbSt) : State :=
  match w with
  | some v => s.twbWrite cmd (le32 v) tx (fun s => ({ s with twb := set s.twb v }, .ok))
  | none =>
    let s := s.twbBegin cmd tx.dt
    if s.twbCore then s.respond .ok (le32 (get s.twb)) else s.respondBusy 4

def execRegAddr (w : Option Word) (tx : Tx) (s : State) : Host.Outcome State Fault Refusal :=
  .next (if s.twbOn then s.twbPointer 0x08 w tx TwbSt.regAddr (fun t v => { t with regAddr := v }) else s)

def execLogPtr (w : Option Word) (tx : Tx) (s : State) : Host.Outcome State Fault Refusal :=
  .next (if s.twbOn then s.twbPointer 0x0C w tx TwbSt.logPtr (fun t v => { t with logPtr := v }) else s)

def execDumpPtr (w : Option Word) (tx : Tx) (s : State) : Host.Outcome State Fault Refusal :=
  .next (if s.twbOn then s.twbPointer 0x0D w tx TwbSt.dumpPtr (fun t v => { t with dumpPtr := v }) else s)

/-! ## REG_DATA (R373, R374) -/

def twbOffBad (off : Nat) : Bool := off % 4 != 0 || decide (0x3E000 ≤ off)
def inHwd (off : Nat) : Bool := decide (0x15000 ≤ off) && decide (off < 0x16000)
def inTwb (off : Nat) : Bool := decide (0x11000 ≤ off) && decide (off < 0x12000)

/-- A write through the target. -/
def State.targetWrite (s : State) (off : Nat) (v : Word) : State × Status :=
  if twbOffBad off then (s, .invalid)
  else if inHwd off then (s, .denied)
  else if s.locked && !inTwb off then (s.lockedWrite off .target, .denied)
  else
    let w := s.regWrite .target off v
    (w.st, if w.bad then .invalid else .ok)

/-- What a read through the target returns: its own latches in place of the host's. -/
def State.targetRead (s : State) (off : Nat) : Word :=
  if off = Reg.TIME_DT_HI then s.twb.dtHi
  else if off = Reg.TIME_TICK_DT_LO then s.twb.tickLo
  else if off = Reg.TIME_TICK_DT_HI then s.twb.tickHi
  else s.readReg off

/-- The latches that a read through the target takes. -/
def State.targetLatch (s : State) (off : Nat) : State :=
  if off = Reg.TIME_DT_LO then { s with twb := { s.twb with dtHi := s.time.dt.extractLsb' 32 32 } }
  else if off = Reg.TIME_TICK_TS32 then
    { s with twb := { s.twb with tickLo := s.time.bdt.extractLsb' 0 32, tickHi := s.time.bdt.extractLsb' 32 32 } }
  else if off = Reg.FLT_AV_GOOD_LO then s.fltLatch 0
  else if off = Reg.FLT_AV_BAD_LO then s.fltLatch 1
  else if off = Reg.FLT_AV_EXT_LO then s.fltLatch 2
  else if off = Reg.FLT_AV_HOST_LO then s.fltLatch 3
  else s

/-- TWB_CTRL.AINC. -/
def State.twbAinc (s : State) : State :=
  if s.flag Fl.TWB_CTRL.AINC then { s with twb := { s.twb with regAddr := s.twb.regAddr + 4 } } else s

def State.regDataRead (s : State) (tx : Tx) : State :=
  let off := s.twb.regAddr.toNat
  let t : State :=
    if twbOffBad off then
      let (n, s) := s.freeNat
      s.respond .invalid (le32 (wN n))
    else if inHwd off then s.respond .denied (le32 0)
    else
      let l := s.targetLatch off
      { l with free := l.free + 1 }.respond .ok (le32 (s.targetRead off))
  if s.readDone tx then t.twbAinc else t

def execRegData (w : Option Word) (tx : Tx) (s : State) : Host.Outcome State Fault Refusal :=
  .next (if s.twbOn then
    match w with
    | some v => s.twbWrite 0x09 (le32 v) tx (fun s =>
        let (t, st) := s.targetWrite s.twb.regAddr.toNat v
        (t.twbAinc, st))
    | none =>
      let s := s.twbBegin 0x09 tx.dt
      if s.twbCore then s.regDataRead tx else s.respondBusy 4
  else s)

/-! ## LOG_READ (R376) -/

/-- Up to n records of consecutive sequence numbers from the head: a gap is a record that is being written. -/
def runOf : Nat → List Rec → List Rec
  | 0, _ => []
  | _ + 1, [] => []
  | _ + 1, [r] => [r]
  | n + 1, r :: q :: l => if q.seq = r.seq + 1 then r :: runOf n (q :: l) else [r]

/-- The records that a LOG_READ from a pointer returns, and whether it skips. -/
def State.logRecords (s : State) (ptr : Word) : List Rec × Bool :=
  let l := s.blz.store.dropWhile (fun r => r.seq != ptr)
  if l.isEmpty then
    if s.blz.seals.any (fun d => d.seq == ptr) then ([], false)
    else
      let later := s.blz.store.dropWhile (fun r => decide (tsDiff r.seq ptr ≤ 0))
      (runOf 7 later, !later.isEmpty)
  else (runOf 7 l, false)

def recBytes (r : Rec) : List Byte := (recWords r).flatMap le32

def State.logReadGo (s : State) (tx : Tx) : State :=
  let (l, skip) := s.logRecords s.twb.logPtr
  let next : Word := match l.getLast? with
    | some r => r.seq + 1
    | none => s.twb.logPtr
  let t := s.respondBlock .ok (le32 next ++ [byteN l.length, byteN (wB skip), 0] ++ l.flatMap recBytes)
  if s.readDone tx then { t with twb := { t.twb with logPtr := next } } else t

def execLogRead (tx : Tx) (s : State) : Host.Outcome State Fault Refusal :=
  .next (if s.twbOn then
    let s := s.twbBegin 0x40 tx.dt
    if s.twbCore then s.logReadGo tx else s.respondBlock .busy []
  else s)

/-! ## DUMP_READ (R377, R478) -/

/-- Word i of a section's header and data, or a word that the manual leaves open. -/
def Dump.open_ (d : Dump) (i : Nat) : Word := Config.dumpOpen d.dt.toNat i

/-- The six sections: type and length in bytes. -/
def Dump.sections (d : Dump) : List (Nat × Nat) :=
  [(1, 8192), (2, 94208), (3, 64 + 32 * d.pend.length), (4, 1024), (5, 4096), (6, 96)]

def Dump.total (d : Dump) : Nat := 64 + d.sections.foldl (fun a x => a + 8 + x.2) 0

/-- Word i of the header (Table FT-5). -/
def Dump.headWord (d : Dump) (i : Nat) : Word := match i with
  | 0 => 0x4446414C
  | 1 => wN (1 + 2 ^ 16 * d.writer + 2 ^ 24 * wB d.unsigned)
  | 2 => wN d.total
  | 3 => d.newest
  | 4 => d.dt.extractLsb' 0 32
  | 5 => d.dt.extractLsb' 32 32
  | 6 => wN (d.epoch.toNat + 256 * d.cause)
  | 7 => d.ts
  | 8 => d.fwVer
  | 9 => d.fault
  | _ => 0

/-- Word i of a section's data, j its place in the dump. -/
def Dump.dataWord (d : Dump) (ty i j : Nat) : Word := match ty with
  | 1 => match d.tail[i / 8]? with
    | some r => (recWords r).getD (i % 8) 0
    | none => d.open_ j
  | 2 => smGet d.regs (4 * i) 0
  | 4 => match d.rings[i / 4]? with
    | some (_, cfg, h, k, st) => match i % 4 with
      | 0 => cfg
      | 1 => wN h
      | 2 => wN k
      | _ => st
    | none => 0
  | 6 => if d.unsigned then 0 else d.open_ j
  | _ => d.open_ j

/-- Word i of a list of sections that begins at word `at_` of the dump. -/
def Dump.secWord (d : Dump) (at_ : Nat) (l : List (Nat × Nat)) (i : Nat) : Word := match l with
  | [] => 0
  | (ty, len) :: r =>
    if i = 0 then wN ty
    else if i = 1 then wN len
    else if i < 2 + len / 4 then d.dataWord ty (i - 2) (at_ + i)
    else d.secWord (at_ + 2 + len / 4) r (i - 2 - len / 4)

def Dump.byte (d : Dump) (n : Nat) : Byte :=
  let i := n / 4
  let w := if i < 16 then d.headWord i else d.secWord 16 d.sections (i - 16)
  w.extractLsb' (8 * (n % 4)) 8

/-- The dump, where its DRAM copy can be read (R479). -/
def State.dumpHeld (s : State) : Option Dump := s.flt.dump.filter (fun d => d.dram && s.flag Fl.MEM_CFG.EN)

def State.dumpReadGo (s : State) (tx : Tx) : State :=
  let p := s.twb.dumpPtr
  let head := le32 p ++ [0, 0, 0]
  match s.dumpHeld with
  | none => s.respondBlock .lost head
  | some d =>
    let n := min 224 (d.total - p.toNat)
    let t := s.respondBlock .ok (head ++ (List.range n).map (fun i => d.byte (p.toNat + i)))
    if s.readDone tx then { t with twb := { t.twb with dumpPtr := p + wN n } } else t

/-- DUMP_READ is served only while the device is awake. -/
def execDumpRead (tx : Tx) (s : State) : Host.Outcome State Fault Refusal :=
  .next (if s.twbOn then
    let s := s.twbBegin 0x41 tx.dt
    if s.twbCore && s.twbPower == 0 then s.dumpReadGo tx else s.respondBlock .busy []
  else s)

/-! ## Wake (R378) -/

/-- The state left when the target wakes the device, logged. -/
def State.twbWake (s : State) (num : Nat) (dt : DT) : State :=
  let armed : Bool := match s.pwr.sleep with
    | some z => wakeActive z z.chosen 3 num
    | none => false
  let asleep : Bool := s.pwr.state == .shade || s.pwr.state == .glade || s.pwr.state == .clearing || s.pwr.state == .moss
  let left := pstateCode s.pwr.state
  let s := s.wakeFire 3 num dt
  if armed && asleep then s.logAt Src.TWB 0xB006 1 dt (wN num) (wN left) 0 else s

/-- WAKE: a write with no data; it is served in every power state. -/
def execWake (tx : Tx) (s : State) : Host.Outcome State Fault Refusal :=
  .next (if s.twbOn then
    let s := s.twbBegin 0xA5 tx.dt
    if !tx.complete then s.twbAbandoned 0xA5
    else if s.pecBad 0xA5 [] tx then s.twbPecFail 0xA5 [] tx
    else (s.twbWake 0 tx.dt).twbLast .ok
  else s)

/-- An address match while the wake source is armed. -/
def execSmbusAddressWake (dt : DT) (s : State) : Host.Outcome State Fault Refusal :=
  .next (if s.twbOn then (s.advance dt).twbWake 1 dt else s)

/-! ## Arm and recover (R379, R380) -/

/-- The life of an ARM, ns. -/
abbrev armLife : Nat := 10000000

def execArm (code : BitVec 8) (tx : Tx) (s : State) : Host.Outcome State Fault Refusal :=
  .next (if s.twbOn then
    let s := s.twbBegin 0xF1 tx.dt
    if !tx.complete then s.twbAbandoned 0xF1
    else if s.pecBad 0xF1 [code] tx then s.twbPecFail 0xF1 [code] tx
    else if code = 0x5A then
      let d := s.time.dt
      ({ s with twb := { s.twb with armed := some d, armDt := some d, ranOut := false } }).twbLast .ok
    else s.twbLast .ok
  else s)

/-- ARM_EXPIRE: more than 10 ms after the ARM. -/
def execArmExpire (dt : DT) (s : State) : Host.Outcome State Fault Refusal :=
  let s := s.advance dt
  match s.twb.armed with
  | some a =>
    if a.toNat + armLife < dt.toNat then .next { s with twb := { s.twb with armed := none, ranOut := true } } else .next s
  | none => .next s

/-- A RECOVER that is not accepted: 0 not armed, 1 over 10 ms, 2 bad PEC, 3 bad action. -/
def State.recoverRefused (s : State) (why : Nat) : State :=
  let s := s.bump Reg.TWB_RCVCNT
  let us : Nat := match s.twb.armDt with
    | some a => min ((s.time.dt.toNat - a.toNat) / 1000) (2 ^ 32 - 1)
    | none => 2 ^ 32 - 1
  s.log Src.TWB 0xB005 3 (wN why) (wN us) (s.rd Reg.TWB_RCVCNT)

/-- The control-plane restart of action 1: Ranger is reset (R475), and the active role restarts as in a Coppice. -/
def State.recoverCores (s : State) : State :=
  let s := s.rangerReset 1
  if s.hwd.booted && s.flt.coppice.isNone then s.coppiceStart s.activeCore s.time.dt else s

/-- An accepted RECOVER: logged before the action begins. -/
def State.recoverGo (s : State) (action : Nat) : State :=
  let s := (s.log Src.TWB 0xB004 4 (wN action) 0 0).twbLast .ok
  let s : State := { s with twb := { s.twb with recover := some action } }
  match action with
  | 1 => s.recoverCores
  | 2 => s.hostReset.recoverEnd 2
  | _ => s.devReset s.time.dt

/-- RECOVER. -/
def execRecover (action : BitVec 8) (tx : Tx) (s : State) : Host.Outcome State Fault Refusal :=
  .next (if s.twbOn then
    let armed := s.twb.armed
    let s := s.twbBegin 0xF0 tx.dt
    let ended : Bool := match armed with
      | some a => decide (a.toNat + armLife < s.time.dt.toNat)
      | none => s.twb.ranOut
    let s : State := { s with twb := { s.twb with ranOut := false } }
    if !tx.complete then s.twbAbandoned 0xF0
    else if s.pecBad 0xF0 [action] tx then (s.twbPecFail 0xF0 [action] tx).recoverRefused 2
    else if ended then s.recoverRefused 1
    else if armed.isNone then s.recoverRefused 0
    else if action.toNat < 1 ∨ 3 < action.toNat then (s.recoverRefused 3).twbLast .invalid
    else s.recoverGo action.toNat
  else s)

/-! ## The bus engine (R366, R370, R371) -/

/-- ALERT_RESPONSE: the target answers the Alert Response Address while it asserts TWB_ALERT_N, and releases it once it
has won. -/
def execAlertResponse (won : Bool) (s : State) : Host.Outcome State Fault Refusal :=
  .next (if s.twbOn && s.twb.alertN && s.flag Fl.TWB_CTRL.ARA_EN then
    let s : State := { s with twb := { s.twb with resp := [byteN (2 * (0x58 + s.twb.sel.toNat))] } }
    if won then { s with twb := { s.twb with alertN := false } } else s
  else s)

/-- A repeated START or a STOP within a byte or at an acknowledge. -/
def execTwbAbandon (cmd : BitVec 8) (dt : DT) (s : State) : Host.Outcome State Fault Refusal :=
  .next (if s.twbOn then (s.twbBegin cmd dt).twbAbandoned cmd else s)

/-- The controller has stopped a byte short: the target releases SDA, and the transaction is abandoned. -/
def execTwbSdaRelease (cmd : BitVec 8) (s : State) : Host.Outcome State Fault Refusal :=
  .next (if s.twbOn then (s.twbBegin cmd s.time.dt).twbAbandoned cmd else s)

/-- SCL unchanged or low for 25 ms: the bus engine resets, abandoning a transaction in progress (code 0xFF: none). -/
def execTwbBusTimeout (sdaHeld : Bool) (cmd : BitVec 8) (dt : DT) (s : State) : Host.Outcome State Fault Refusal :=
  .next (if s.twbOn then
    let s := s.advance dt
    let s := if sdaHeld || cmd != 0xFF then (s.twbBegin cmd dt).twbAbandoned cmd else s
    let s := s.bump Reg.TWB_TOCNT
    s.log Src.TWB 0xB001 3 (wN (wB (!sdaHeld))) (wN cmd.toNat) (s.rd Reg.TWB_TOCNT)
  else s)

end Sys2Proof.Machine
end

