-- ==== Sys2Proof/Machine/Dispatch.lean ====
section
/-! DEFINITION. The meaning of every command and event: one arm a row of the table, each one call of its meaning. -/
namespace Sys2Proof.Machine

def exec (i : Instr) (s : State) : Host.Outcome State Fault Refusal :=
  match i with
  | .tickBoundary x => Sys2Proof.Machine.execTickBoundary x s
  | .stepBoundary x => Sys2Proof.Machine.execStepBoundary x s
  | .timedCommit ring tag => Sys2Proof.Machine.execTimedCommit ring tag s
  | .waitTimeout => Sys2Proof.Machine.execWaitTimeout s
  | .doorbellReturn page => Sys2Proof.Machine.execDoorbellReturn page s
  | .doorbellLate dt => Sys2Proof.Machine.execDoorbellLate dt s
  | .leaderLock dt => Sys2Proof.Machine.execLeaderLock dt s
  | .leaderRange dt => Sys2Proof.Machine.execLeaderRange dt s
  | .wclkInLoss dt => Sys2Proof.Machine.execWclkInLoss dt s
  | .mclkLoss dt => Sys2Proof.Machine.execMclkLoss dt s
  | .housePllLock dt => Sys2Proof.Machine.execHousePllLock dt s
  | .rateChangeStop dt => Sys2Proof.Machine.execRateChangeStop dt s
  | .rateChangeResume dt => Sys2Proof.Machine.execRateChangeResume dt s
  | .xoRatioMeasure cycles => Sys2Proof.Machine.execXoRatioMeasure cycles s
  | .slewEnd wall dt => Sys2Proof.Machine.execSlewEnd wall dt s
  | .gptpSync dt net r gm => Sys2Proof.Machine.execGptpSync dt net r gm s
  | .netSyncLoss dt => Sys2Proof.Machine.execNetSyncLoss dt s
  | .gptpRoleChange role asCapable dt => Sys2Proof.Machine.execGptpRoleChange role asCapable dt s
  | .budgetOverrun engine => Sys2Proof.Machine.execBudgetOverrun engine s
  | .clockLeader h p => Sys2Proof.Machine.execClockLeader h p s
  | .houseRate h rate => Sys2Proof.Machine.execHouseRate h rate s
  | .timeWallSet h p => Sys2Proof.Machine.execTimeWallSet h p s
  | .perfLevel h level => Sys2Proof.Machine.execPerfLevel h level s
  | .sleep h p => Sys2Proof.Machine.execSleep h p s
  | .ainSet h p => Sys2Proof.Machine.execAinSet h p s
  | .pdmSet h p => Sys2Proof.Machine.execPdmSet h p s
  | .aoutSet h p => Sys2Proof.Machine.execAoutSet h p s
  | .spkSet h p => Sys2Proof.Machine.execSpkSet h p s
  | .spkMeas h p => Sys2Proof.Machine.execSpkMeas h p s
  | .spkWatch h p => Sys2Proof.Machine.execSpkWatch h p s
  | .routeSet h p => Sys2Proof.Machine.execRouteSet h p s
  | .thkSwap h mode => Sys2Proof.Machine.execThkSwap h mode s
  | .thkFader h p => Sys2Proof.Machine.execThkFader h p s
  | .toneSet h p => Sys2Proof.Machine.execToneSet h p s
  | .trailCommit h p => Sys2Proof.Machine.execTrailCommit h p s
  | .fxCommit h p => Sys2Proof.Machine.execFxCommit h p s
  | .clipCommit h p => Sys2Proof.Machine.execClipCommit h p s
  | .clipStart h p => Sys2Proof.Machine.execClipStart h p s
  | .clipCtrl h p => Sys2Proof.Machine.execClipCtrl h p s
  | .loopSet h p => Sys2Proof.Machine.execLoopSet h p s
  | .loopCommit h p => Sys2Proof.Machine.execLoopCommit h p s
  | .blkLoad h p => Sys2Proof.Machine.execBlkLoad h p s
  | .blkUnload h p => Sys2Proof.Machine.execBlkUnload h p s
  | .blkFill h p => Sys2Proof.Machine.execBlkFill h p s
  | .blkTransferEnd ring moved corrected data => Sys2Proof.Machine.execBlkTransferEnd ring moved corrected data s
  | .sapSet h p => Sys2Proof.Machine.execSapSet h p s
  | .groveSet h p => Sys2Proof.Machine.execGroveSet h p s
  | .groveStart h grove => Sys2Proof.Machine.execGroveStart h grove s
  | .groveStop h grove => Sys2Proof.Machine.execGroveStop h grove s
  | .streamCtrl h p => Sys2Proof.Machine.execStreamCtrl h p s
  | .netSync h p => Sys2Proof.Machine.execNetSync h p s
  | .ntxFrame h p => Sys2Proof.Machine.execNtxFrame h p s
  | .nrxBuf h p => Sys2Proof.Machine.execNrxBuf h p s
  | .nop c => Sys2Proof.Machine.execNop c s
  | .hpbData h p => Sys2Proof.Machine.execHpbData h p s
  | .hcpData h p => Sys2Proof.Machine.execHcpData h p s
  | .listenSet h p => Sys2Proof.Machine.execListenSet h p s
  | .listenWait h p => Sys2Proof.Machine.execListenWait h p s
  | .prerollRead h p => Sys2Proof.Machine.execPrerollRead h p s
  | .blzMark h p => Sys2Proof.Machine.execBlzMark h p s
  | .fwActivate h p => Sys2Proof.Machine.execFwActivate h p s
  | .firebreakCtrl h op => Sys2Proof.Machine.execFirebreakCtrl h op s
  | .keyLoad h p => Sys2Proof.Machine.execKeyLoad h p s
  | .keyClear h slot => Sys2Proof.Machine.execKeyClear h slot s
  | .attest h p => Sys2Proof.Machine.execAttest h p s
  | .configLoad h p => Sys2Proof.Machine.execConfigLoad h p s
  | .debugUnlock h p => Sys2Proof.Machine.execDebugUnlock h p s
  | .gainMoveIncrement input => Sys2Proof.Machine.execGainMoveIncrement input s
  | .ainFeSwitch input => Sys2Proof.Machine.execAinFeSwitch input s
  | .ainFeSettled input => Sys2Proof.Machine.execAinFeSettled input s
  | .ainFiltSwitch pdm chan => Sys2Proof.Machine.execAinFiltSwitch pdm chan s
  | .biasLimit input dt => Sys2Proof.Machine.execBiasLimit input dt s
  | .biasOff input dt => Sys2Proof.Machine.execBiasOff input dt s
  | .pdmStuck chan level dt => Sys2Proof.Machine.execPdmStuck chan level dt s
  | .pdmRecover chan dt => Sys2Proof.Machine.execPdmRecover chan dt s
  | .modReset input dt => Sys2Proof.Machine.execModReset input dt s
  | .ainJackIn jack pin => Sys2Proof.Machine.execAinJackIn jack pin s
  | .ainJackOut jack pin => Sys2Proof.Machine.execAinJackOut jack pin s
  | .aoutSeqSwitch chan => Sys2Proof.Machine.execAoutSeqSwitch chan s
  | .aoutStageSettled chan => Sys2Proof.Machine.execAoutStageSettled chan s
  | .rangeWrite value => Sys2Proof.Machine.execRangeWrite value s
  | .cpFault mv dt => Sys2Proof.Machine.execCpFault mv dt s
  | .outputShort chan dt => Sys2Proof.Machine.execOutputShort chan dt s
  | .avddLoss dt => Sys2Proof.Machine.execAvddLoss dt s
  | .vio1Loss dt => Sys2Proof.Machine.execVio1Loss dt s
  | .avddValid dt => Sys2Proof.Machine.execAvddValid dt s
  | .vcmRampEnd dt => Sys2Proof.Machine.execVcmRampEnd dt s
  | .vio1Valid dt => Sys2Proof.Machine.execVio1Valid dt s
  | .hpPlugDetect jack dt => Sys2Proof.Machine.execHpPlugDetect jack dt s
  | .hpIdentify jack ohms mvSlv mvRing2 dt => Sys2Proof.Machine.execHpIdentify jack ohms mvSlv mvRing2 dt s
  | .hpMeasure jack zl zr dt => Sys2Proof.Machine.execHpMeasure jack zl zr dt s
  | .hpPresent jack dt => Sys2Proof.Machine.execHpPresent jack dt s
  | .hpInsertAfterWake jack dt => Sys2Proof.Machine.execHpInsertAfterWake jack dt s
  | .hpRemove jack dt => Sys2Proof.Machine.execHpRemove jack dt s
  | .hpBtnPress jack microamps dt => Sys2Proof.Machine.execHpBtnPress jack microamps dt s
  | .hpBtnRelease jack dt => Sys2Proof.Machine.execHpBtnRelease jack dt s
  | .boostReady chan => Sys2Proof.Machine.execBoostReady chan s
  | .spkLimitEvent chan dt => Sys2Proof.Machine.execSpkLimitEvent chan dt s
  | .spkBroadbandShort chan milliohms dt => Sys2Proof.Machine.execSpkBroadbandShort chan milliohms dt s
  | .spkClampRelease bstMv => Sys2Proof.Machine.execSpkClampRelease bstMv s
  | .spkRetryAttempt chan dt => Sys2Proof.Machine.execSpkRetryAttempt chan dt s
  | .spkProbeEnd chan milliohms dt => Sys2Proof.Machine.execSpkProbeEnd chan milliohms dt s
  | .spkPilotWindow chan valid milliohms nanohenry dt => Sys2Proof.Machine.execSpkPilotWindow chan valid milliohms nanohenry dt s
  | .spkPmeanUpdate mw0 mw1 dt => Sys2Proof.Machine.execSpkPmeanUpdate mw0 mw1 dt s
  | .spkCapTrip chan mw dt => Sys2Proof.Machine.execSpkCapTrip chan mw dt s
  | .spkBstOvp comparator mv dt => Sys2Proof.Machine.execSpkBstOvp comparator mv dt s
  | .pvddFault isOver mv dt => Sys2Proof.Machine.execPvddFault isOver mv dt s
  | .pvddReturn dt => Sys2Proof.Machine.execPvddReturn dt s
  | .dieThermal tenths dt => Sys2Proof.Machine.execDieThermal tenths dt s
  | .meterReport ok => Sys2Proof.Machine.execMeterReport ok s
  | .meterEnable value => Sys2Proof.Machine.execMeterEnable value s
  | .clipTagFail voice block => Sys2Proof.Machine.execClipTagFail voice block s
  | .loopCopyDone recorder moved dt => Sys2Proof.Machine.execLoopCopyDone recorder moved dt s
  | .dramUe user addr dt => Sys2Proof.Machine.execDramUe user addr dt s
  | .sramUe word addr dt => Sys2Proof.Machine.execSramUe word addr dt s
  | .memScrubPeriodEnd linesLeft dt => Sys2Proof.Machine.execMemScrubPeriodEnd linesLeft dt s
  | .sapFrameRx port edge bclks line => Sys2Proof.Machine.execSapFrameRx port edge bclks line s
  | .sapFrameTx port edge bclks => Sys2Proof.Machine.execSapFrameTx port edge bclks s
  | .sapSeqApply port dir => Sys2Proof.Machine.execSapSeqApply port dir s
  | .sapLock port dir => Sys2Proof.Machine.execSapLock port dir s
  | .sapClkLoss port dir dt => Sys2Proof.Machine.execSapClkLoss port dir dt s
  | .sapClkReturn port dir dt => Sys2Proof.Machine.execSapClkReturn port dir dt s
  | .sapRateJump port dir rate dt => Sys2Proof.Machine.execSapRateJump port dir rate dt s
  | .sapRateMeasure port dir spanNs => Sys2Proof.Machine.execSapRateMeasure port dir spanNs s
  | .asrcLock user rate => Sys2Proof.Machine.execAsrcLock user rate s
  | .groveMemberJoin grove m => Sys2Proof.Machine.execGroveMemberJoin grove m s
  | .netPacketRx p => Sys2Proof.Machine.execNetPacketRx p s
  | .netRealign ctx => Sys2Proof.Machine.execNetRealign ctx s
  | .netStreamLoss ctx dt => Sys2Proof.Machine.execNetStreamLoss ctx dt s
  | .ntxEgress ring dt => Sys2Proof.Machine.execNtxEgress ring dt s
  | .netLinkUp mac speed => Sys2Proof.Machine.execNetLinkUp mac speed s
  | .netLinkDown mac => Sys2Proof.Machine.execNetLinkDown mac s
  | .netPhyInt mac dt => Sys2Proof.Machine.execNetPhyInt mac dt s
  | .mdioGo value => Sys2Proof.Machine.execMdioGo value s
  | .mdioDone data => Sys2Proof.Machine.execMdioDone data s
  | .mdioLinkMonitor mac speed => Sys2Proof.Machine.execMdioLinkMonitor mac speed s
  | .netCtxSel ctx => Sys2Proof.Machine.execNetCtxSel ctx s
  | .ringEnable ring cfg => Sys2Proof.Machine.execRingEnable ring cfg s
  | .ringDisable ring cfg => Sys2Proof.Machine.execRingDisable ring cfg s
  | .hostDmaFail ring moved ringMemory data => Sys2Proof.Machine.execHostDmaFail ring moved ringMemory data s
  | .hstNudge dt => Sys2Proof.Machine.execHstNudge dt s
  | .pcieLinkDown l2 dt => Sys2Proof.Machine.execPcieLinkDown l2 dt s
  | .pcieLinkUp speed width dt => Sys2Proof.Machine.execPcieLinkUp speed width dt s
  | .busMasterDisable dt => Sys2Proof.Machine.execBusMasterDisable dt s
  | .perstAssert dt => Sys2Proof.Machine.execPerstAssert dt s
  | .perstRelease dt => Sys2Proof.Machine.execPerstRelease dt s
  | .barAccessInGlade dt => Sys2Proof.Machine.execBarAccessInGlade dt s
  | .pcieL12Exit dt => Sys2Proof.Machine.execPcieL12Exit dt s
  | .registerWrite off value aligned32 => Sys2Proof.Machine.execRegisterWrite off value aligned32 s
  | .apertureWrite off lo hi aligned => Sys2Proof.Machine.execApertureWrite off lo hi aligned s
  | .run value => Sys2Proof.Machine.execRun value s
  | .timeSnap => Sys2Proof.Machine.execTimeSnap s
  | .timeDtRead target => Sys2Proof.Machine.execTimeDtRead target s
  | .timeTickRead target => Sys2Proof.Machine.execTimeTickRead target s
  | .fltLoRead counter => Sys2Proof.Machine.execFltLoRead counter s
  | .clipClr value => Sys2Proof.Machine.execClipClr value s
  | .peakClr value => Sys2Proof.Machine.execPeakClr value s
  | .blzRelease seq => Sys2Proof.Machine.execBlzRelease seq s
  | .blzWinSeq seq => Sys2Proof.Machine.execBlzWinSeq seq s
  | .drainEnable value => Sys2Proof.Machine.execDrainEnable value s
  | .avClr => Sys2Proof.Machine.execAvClr s
  | .dumpNow => Sys2Proof.Machine.execDumpNow s
  | .dumpClr => Sys2Proof.Machine.execDumpClr s
  | .rangerRst => Sys2Proof.Machine.execRangerRst s
  | .devReset dt => Sys2Proof.Machine.execDevReset dt s
  | .lock => Sys2Proof.Machine.execLock s
  | .bootOrder => Sys2Proof.Machine.execBootOrder s
  | .hwdBootDone image => Sys2Proof.Machine.execHwdBootDone image s
  | .cfgOrder image => Sys2Proof.Machine.execCfgOrder image s
  | .gpioCfgWrite pin value => Sys2Proof.Machine.execGpioCfgWrite pin value s
  | .sapxCfgWrite value => Sys2Proof.Machine.execSapxCfgWrite value s
  | .gpioSet value => Sys2Proof.Machine.execGpioSet value s
  | .gpioClr value => Sys2Proof.Machine.execGpioClr value s
  | .status tx => Sys2Proof.Machine.execStatus tx s
  | .ident tx => Sys2Proof.Machine.execIdent tx s
  | .dt tx => Sys2Proof.Machine.execDt tx s
  | .alert tx => Sys2Proof.Machine.execAlert tx s
  | .regAddr w tx => Sys2Proof.Machine.execRegAddr w tx s
  | .regData w tx => Sys2Proof.Machine.execRegData w tx s
  | .logPtr w tx => Sys2Proof.Machine.execLogPtr w tx s
  | .dumpPtr w tx => Sys2Proof.Machine.execDumpPtr w tx s
  | .logRead tx => Sys2Proof.Machine.execLogRead tx s
  | .dumpRead tx => Sys2Proof.Machine.execDumpRead tx s
  | .wake tx => Sys2Proof.Machine.execWake tx s
  | .smbusAddressWake dt => Sys2Proof.Machine.execSmbusAddressWake dt s
  | .arm code tx => Sys2Proof.Machine.execArm code tx s
  | .armExpire dt => Sys2Proof.Machine.execArmExpire dt s
  | .recover action tx => Sys2Proof.Machine.execRecover action tx s
  | .alertResponse won => Sys2Proof.Machine.execAlertResponse won s
  | .twbAbandon cmd dt => Sys2Proof.Machine.execTwbAbandon cmd dt s
  | .twbSdaRelease cmd => Sys2Proof.Machine.execTwbSdaRelease cmd s
  | .twbBusTimeout sdaHeld cmd dt => Sys2Proof.Machine.execTwbBusTimeout sdaHeld cmd dt s
  | .shadeExit source dt => Sys2Proof.Machine.execShadeExit source dt s
  | .levelRaiseSwitch => Sys2Proof.Machine.execLevelRaiseSwitch s
  | .vsettleEnd => Sys2Proof.Machine.execVsettleEnd s
  | .sleepVoteTurn => Sys2Proof.Machine.execSleepVoteTurn s
  | .sleepLinkHoldEnd linkAway => Sys2Proof.Machine.execSleepLinkHoldEnd linkAway s
  | .hardwareEntry dt => Sys2Proof.Machine.execHardwareEntry dt s
  | .hardwareEntryEnd dt => Sys2Proof.Machine.execHardwareEntryEnd dt s
  | .canopyTimer dt => Sys2Proof.Machine.execCanopyTimer dt s
  | .gpioWakeLevel pin dt => Sys2Proof.Machine.execGpioWakeLevel pin dt s
  | .sapWakeActivity port dt => Sys2Proof.Machine.execSapWakeActivity port dt s
  | .sapWakePattern port dt => Sys2Proof.Machine.execSapWakePattern port dt s
  | .exitStepReady badBanks saveUe dt => Sys2Proof.Machine.execExitStepReady badBanks saveUe dt s
  | .exitStepTimeout dt => Sys2Proof.Machine.execExitStepTimeout dt s
  | .wakeBoundary dt => Sys2Proof.Machine.execWakeBoundary dt s
  | .coldStart sel => Sys2Proof.Machine.execColdStart sel s
  | .vsysLoss canopy => Sys2Proof.Machine.execVsysLoss canopy s
  | .resetNAssert dt => Sys2Proof.Machine.execResetNAssert dt s
  | .resetNRelease sel dt => Sys2Proof.Machine.execResetNRelease sel dt s
  | .coreSupplyLoss dt => Sys2Proof.Machine.execCoreSupplyLoss dt s
  | .vio2Loss => Sys2Proof.Machine.execVio2Loss s
  | .dramSupplyLoss vddq => Sys2Proof.Machine.execDramSupplyLoss vddq s
  | .dramSupplyValid vddq => Sys2Proof.Machine.execDramSupplyValid vddq s
  | .lsnHop x => Sys2Proof.Machine.execLsnHop x s
  | .prerollBlock samples dt => Sys2Proof.Machine.execPrerollBlock samples dt s
  | .lsnStop dt => Sys2Proof.Machine.execLsnStop dt s
  | .blzCommit dt => Sys2Proof.Machine.execBlzCommit dt s
  | .blzSealWrite dt => Sys2Proof.Machine.execBlzSealWrite dt s
  | .rateLimitSecondEnd code key dt => Sys2Proof.Machine.execRateLimitSecondEnd code key dt s
  | .heartbeatWindow hbA hbB rangerMoved dt => Sys2Proof.Machine.execHeartbeatWindow hbA hbB rangerMoved dt s
  | .coreException core memory dt => Sys2Proof.Machine.execCoreException core memory dt s
  | .coppiceFirstPickup dt => Sys2Proof.Machine.execCoppiceFirstPickup dt s
  | .coppiceRetry dt => Sys2Proof.Machine.execCoppiceRetry dt s
  | .standbyReady => Sys2Proof.Machine.execStandbyReady s
  | .fwHandover => Sys2Proof.Machine.execFwHandover s
  | .fwProbationEnd dt => Sys2Proof.Machine.execFwProbationEnd dt s
  | .rangerLoss dt => Sys2Proof.Machine.execRangerLoss dt s
  | .rangerReloadDone => Sys2Proof.Machine.execRangerReloadDone s
  | .debugExpire dt => Sys2Proof.Machine.execDebugExpire dt s
  | .busMasterEnable => Sys2Proof.Machine.execBusMasterEnable s
  | .vio2Valid high => Sys2Proof.Machine.execVio2Valid high s
  | .coreSupplyReturn dt => Sys2Proof.Machine.execCoreSupplyReturn dt s
  | .biasLimitEnd input dt => Sys2Proof.Machine.execBiasLimitEnd input dt s
  | .netPps dt => Sys2Proof.Machine.execNetPps dt s
  | .gpioPulseEnd pin dt => Sys2Proof.Machine.execGpioPulseEnd pin dt s

end Sys2Proof.Machine
end

