-- ==== Sys2Proof/WellFormed.lean ====
section
/-! DEFINITION. Well-formed commands and events: every number fits the field that carries it (Table HR-5 and the payload
tables of the chapters), every event names a unit that exists. What a field of that width may hold beyond its meaning is
the meaning's own check (R328), not this one. -/
namespace Sys2Proof

/-- A number that a field of w bits holds. -/
def fits (w n : Nat) : Bool := decide (n < 2 ^ w)

/-- The header: ring number, LATE policy. -/
def Hdr.wf (h : Hdr) : Bool := decide (h.ring < 64) && fits 2 h.late

/-- The payload fields of each opcode. -/
def Cmd.wf : Cmd → Bool
  | .clockLeader p => fits 8 p.kind && fits 16 p.index && fits 3 p.bw
  | .houseRate r => fits 8 r
  | .timeWallSet p => fits 8 p.mode
  | .perfLevel l => fits 8 l
  | .sleep p => fits 8 p.maxState
  | .ainSet p => fits 8 p.chan
  | .pdmSet p => fits 8 p.chan
  | .aoutSet _ => true
  | .spkSet _ => true
  | .spkMeas p => fits 8 p.chan && fits 8 p.op
  | .spkWatch p => fits 8 p.chan
  | .routeSet p => fits 4 p.ramp
  | .thkSwap m => fits 8 m
  | .thkFader p => fits 16 p.lane && fits 16 p.bus && fits 16 p.len
  | .toneSet p => fits 8 p.tone && fits 8 p.wave && fits 4 p.ramp
  | .trailCommit p => fits 8 p.s
  | .fxCommit p => fits 16 p.first && fits 16 p.count && fits 8 p.table
  | .clipCommit p => fits 16 p.first && fits 16 p.count && fits 8 p.table
  | .clipStart p => fits 16 p.voice && fits 16 p.entry && fits 32 p.start && fits 32 p.pitch && fits 8 p.env
  | .clipCtrl p => fits 16 p.voice && fits 8 p.op && fits 32 p.len
  | .loopSet p => fits 8 p.rec_ && fits 8 p.op && fits 2 p.fmt && fits 32 p.frames
  | .loopCommit p => fits 8 p.rec_ && fits 32 p.cap
  | .blkLoad p => fits 32 p.len
  | .blkUnload p => fits 32 p.len
  | .blkFill p => fits 32 p.len
  | .sapSet p => fits 8 p.port && fits 1 p.dir && fits 8 p.phase
  | .groveSet p => fits 8 p.grove && fits 8 p.op && fits 16 p.first && fits 16 p.count
  | .groveStart g => fits 8 g
  | .groveStop g => fits 8 g
  | .streamCtrl p => fits 16 p.first && fits 16 p.count && fits 8 p.op
  | .netSync _ => true
  | .ntxFrame p => fits 16 p.len && fits 1 p.mac && fits 2 p.queue
  | .nrxBuf p => fits 16 p.len
  | .nop => true
  | .hpbData p => fits 16 p.n
  | .hcpData p => fits 16 p.n
  | .listenSet p => fits 8 p.op && fits 2 p.mode
  | .listenWait _ => true
  | .prerollRead p => fits 16 p.n
  | .blzMark p => fits 3 p.sev
  | .fwActivate p => fits 32 p.len
  | .firebreakCtrl op => fits 8 op
  | .keyLoad p => fits 16 p.slot && fits 32 p.blocks
  | .keyClear n => fits 16 n
  | .attest p => fits 8 p.op
  | .configLoad p => fits 32 p.len
  | .debugUnlock _ => true
  | .undefined n => fits 16 n

/-- A channel, port, ring or other unit of n. -/
def below (n i : Nat) : Bool := decide (i < n)

/-- A register or aperture offset of a BAR. -/
def offOk (size off : Nat) : Bool := decide (off < size)

def TickIn.wf (x : TickIn) : Bool :=
  x.fetched.all (fun p => below 64 p.1 && p.2.hdr.wf && p.2.cmd.wf) && x.playback.all (fun p => below 64 p.1)
    && x.aclip.all (below 10) && x.bias.all (fun p => below 8 p.1) && x.samples.all (fun p => fits 16 p.1)
    && x.starved.all (fun p => below 288 p.1)
def StepIn.wf (x : StepIn) : Bool :=
  x.samples.all (fun p => fits 16 p.1) && x.merges.all (fun p => fits 16 p.1) && x.mods.all (fun p => below 2 p.1)

def Member.wf : Member → Bool
  | .port p d => below 8 p && below 2 d
  | .ctx n => below 1024 n
  | .ring r => below 64 r

def MemUser.wf : MemUser → Bool
  | .delayLine n => below 256 n
  | .clipData v => below 256 v
  | .loopRing r => below 32 r
  | .takePlay r => below 32 r
  | .listener n => below 1024 n
  | .blkUnload r _ => below 64 r
  | .saveCopy => true
  | .scrub => true

def SramWord.wf : SramWord → Bool
  | .node l b => below 384 l && below 288 b
  | .busGain b => below 288 b
  | .shadow off => offOk 0x1000000 off
  | .interchange a => fits 16 a
  | .fxState n => below 256 n
  | .trailState c => below 16 c
  | .clipState v => below 256 v
  | .delayLine n => below 256 n
  | .pendingEntry r t => below 64 r && fits 8 t
  | .coreMem c => below 2 c
  | .coreCode c => below 2 c
  | .blazeSlot n => below 4096 n

/-- A well-formed command or event. -/
def Instr.wf : Instr → Bool
  | .tickBoundary x => x.wf
  | .stepBoundary x => x.wf
  | .timedCommit ring tag => below 64 ring && fits 8 tag
  | .waitTimeout => true
  | .doorbellReturn page => page.all (fun p => below 64 p.1 && fits 16 p.2)
  | .doorbellLate _ => true
  | .leaderLock _ => true
  | .leaderRange _ => true
  | .wclkInLoss _ => true
  | .mclkLoss _ => true
  | .housePllLock _ => true
  | .rateChangeStop _ => true
  | .rateChangeResume _ => true
  | .xoRatioMeasure _ => true
  | .slewEnd _ _ => true
  | .gptpSync _ _ _ _ => true
  | .netSyncLoss _ => true
  | .gptpRoleChange role _ _ => fits 2 role
  | .budgetOverrun e => below 3 e
  | .clockLeader h p => h.wf && Cmd.wf (.clockLeader p)
  | .houseRate h r => h.wf && Cmd.wf (.houseRate r)
  | .timeWallSet h p => h.wf && Cmd.wf (.timeWallSet p)
  | .perfLevel h l => h.wf && Cmd.wf (.perfLevel l)
  | .sleep h p => h.wf && Cmd.wf (.sleep p)
  | .ainSet h p => h.wf && Cmd.wf (.ainSet p)
  | .pdmSet h p => h.wf && Cmd.wf (.pdmSet p)
  | .aoutSet h p => h.wf && Cmd.wf (.aoutSet p)
  | .spkSet h p => h.wf && Cmd.wf (.spkSet p)
  | .spkMeas h p => h.wf && Cmd.wf (.spkMeas p)
  | .spkWatch h p => h.wf && Cmd.wf (.spkWatch p)
  | .routeSet h p => h.wf && Cmd.wf (.routeSet p)
  | .thkSwap h m => h.wf && Cmd.wf (.thkSwap m)
  | .thkFader h p => h.wf && Cmd.wf (.thkFader p)
  | .toneSet h p => h.wf && Cmd.wf (.toneSet p)
  | .trailCommit h p => h.wf && Cmd.wf (.trailCommit p)
  | .fxCommit h p => h.wf && Cmd.wf (.fxCommit p)
  | .clipCommit h p => h.wf && Cmd.wf (.clipCommit p)
  | .clipStart h p => h.wf && Cmd.wf (.clipStart p)
  | .clipCtrl h p => h.wf && Cmd.wf (.clipCtrl p)
  | .loopSet h p => h.wf && Cmd.wf (.loopSet p)
  | .loopCommit h p => h.wf && Cmd.wf (.loopCommit p)
  | .blkLoad h p => h.wf && Cmd.wf (.blkLoad p)
  | .blkUnload h p => h.wf && Cmd.wf (.blkUnload p)
  | .blkFill h p => h.wf && Cmd.wf (.blkFill p)
  | .blkTransferEnd ring _ _ _ => below 64 ring
  | .sapSet h p => h.wf && Cmd.wf (.sapSet p)
  | .groveSet h p => h.wf && Cmd.wf (.groveSet p)
  | .groveStart h g => h.wf && Cmd.wf (.groveStart g)
  | .groveStop h g => h.wf && Cmd.wf (.groveStop g)
  | .streamCtrl h p => h.wf && Cmd.wf (.streamCtrl p)
  | .netSync h p => h.wf && Cmd.wf (.netSync p)
  | .ntxFrame h p => h.wf && Cmd.wf (.ntxFrame p)
  | .nrxBuf h p => h.wf && Cmd.wf (.nrxBuf p)
  | .nop c => c.h.wf
  | .hpbData h p => h.wf && Cmd.wf (.hpbData p)
  | .hcpData h p => h.wf && Cmd.wf (.hcpData p)
  | .listenSet h p => h.wf && Cmd.wf (.listenSet p)
  | .listenWait h p => h.wf && Cmd.wf (.listenWait p)
  | .prerollRead h p => h.wf && Cmd.wf (.prerollRead p)
  | .blzMark h p => h.wf && Cmd.wf (.blzMark p)
  | .fwActivate h p => h.wf && Cmd.wf (.fwActivate p)
  | .firebreakCtrl h op => h.wf && Cmd.wf (.firebreakCtrl op)
  | .keyLoad h p => h.wf && Cmd.wf (.keyLoad p)
  | .keyClear h n => h.wf && Cmd.wf (.keyClear n)
  | .attest h p => h.wf && Cmd.wf (.attest p)
  | .configLoad h p => h.wf && Cmd.wf (.configLoad p)
  | .debugUnlock h p => h.wf && Cmd.wf (.debugUnlock p)
  | .gainMoveIncrement n => below 10 n
  | .ainFeSwitch n => below 10 n
  | .ainFeSettled n => below 10 n
  | .ainFiltSwitch pdm n => below (if pdm then 8 else 10) n
  | .biasLimit n _ => below 8 n
  | .biasOff n _ => below 8 n
  | .pdmStuck n l _ => below 8 n && fits 1 l
  | .pdmRecover n _ => below 8 n
  | .modReset n _ => below 10 n
  | .ainJackIn j _ => below 2 j
  | .ainJackOut j _ => below 2 j
  | .aoutSeqSwitch n => below 14 n
  | .aoutStageSettled n => below 14 n
  | .rangeWrite _ => true
  | .cpFault _ _ => true
  | .outputShort n _ => below 12 n
  | .avddLoss _ => true
  | .vio1Loss _ => true
  | .avddValid _ => true
  | .vcmRampEnd _ => true
  | .vio1Valid _ => true
  | .hpPlugDetect j _ => below 2 j
  | .hpIdentify j _ _ _ _ => below 2 j
  | .hpMeasure j _ _ _ => below 2 j
  | .hpPresent j _ => below 2 j
  | .hpInsertAfterWake j _ => below 2 j
  | .hpRemove j _ => below 2 j
  | .hpBtnPress j _ _ => below 2 j
  | .hpBtnRelease j _ => below 2 j
  | .boostReady n => below 2 n
  | .spkLimitEvent n _ => below 2 n
  | .spkBroadbandShort n _ _ => below 2 n
  | .spkClampRelease _ => true
  | .spkRetryAttempt n _ => below 2 n
  | .spkProbeEnd n _ _ => below 2 n
  | .spkPilotWindow n _ _ _ _ => below 2 n
  | .spkPmeanUpdate _ _ _ => true
  | .spkCapTrip n _ _ => below 2 n
  | .spkBstOvp c _ _ => decide (1 ≤ c) && decide (c ≤ 2)
  | .pvddFault _ _ _ => true
  | .pvddReturn _ => true
  | .dieThermal _ _ => true
  | .meterReport _ => true
  | .meterEnable _ => true
  | .clipTagFail v _ => below 256 v
  | .loopCopyDone r _ _ => below 32 r
  | .dramUe u _ _ => u.wf
  | .sramUe w _ _ => w.wf
  | .memScrubPeriodEnd _ _ => true
  | .sapFrameRx p _ _ _ => below 8 p
  | .sapFrameTx p _ _ => below 8 p
  | .sapSeqApply p d => below 8 p && below 2 d
  | .sapLock p d => below 8 p && below 2 d
  | .sapClkLoss p d _ => below 8 p && below 2 d
  | .sapClkReturn p d _ => below 8 p && below 2 d
  | .sapRateJump p d _ _ => below 8 p && below 2 d
  | .sapRateMeasure p d _ => below 8 p && below 2 d
  | .asrcLock u _ => u.wf
  | .groveMemberJoin g m => below 8 g && m.wf
  | .netPacketRx p => below 2 p.mac
  | .netRealign n => below 1024 n
  | .netStreamLoss n _ => below 1024 n
  | .ntxEgress r _ => below 64 r
  | .netLinkUp m sp => below 2 m && fits 2 sp
  | .netLinkDown m => below 2 m
  | .netPhyInt m _ => below 2 m
  | .mdioGo _ => true
  | .mdioDone _ => true
  | .mdioLinkMonitor m sp => below 2 m && fits 2 sp
  | .netCtxSel _ => true
  | .ringEnable r _ => below 64 r
  | .ringDisable r _ => below 64 r
  | .hostDmaFail r _ _ _ => below 65 r
  | .hstNudge _ => true
  | .pcieLinkDown _ _ => true
  | .pcieLinkUp sp w _ => fits 2 sp && fits 2 w
  | .busMasterDisable _ => true
  | .perstAssert _ => true
  | .perstRelease _ => true
  | .barAccessInGlade _ => true
  | .pcieL12Exit _ => true
  | .registerWrite off _ _ => offOk 0x40000 off
  | .apertureWrite off _ _ _ => offOk 0x1000000 off
  | .run _ => true
  | .timeSnap => true
  | .timeDtRead _ => true
  | .timeTickRead _ => true
  | .fltLoRead c => below 4 c
  | .clipClr _ => true
  | .peakClr _ => true
  | .blzRelease _ => true
  | .blzWinSeq _ => true
  | .drainEnable _ => true
  | .avClr => true
  | .dumpNow => true
  | .dumpClr => true
  | .rangerRst => true
  | .devReset _ => true
  | .lock => true
  | .bootOrder => true
  | .hwdBootDone _ => true
  | .cfgOrder _ => true
  | .gpioCfgWrite p _ => below 16 p
  | .sapxCfgWrite _ => true
  | .gpioSet _ => true
  | .gpioClr _ => true
  | .status _ => true
  | .ident _ => true
  | .dt _ => true
  | .alert _ => true
  | .regAddr _ _ => true
  | .regData _ _ => true
  | .logPtr _ _ => true
  | .dumpPtr _ _ => true
  | .logRead _ => true
  | .dumpRead _ => true
  | .wake _ => true
  | .smbusAddressWake _ => true
  | .arm _ _ => true
  | .armExpire _ => true
  | .recover _ _ => true
  | .alertResponse _ => true
  | .twbAbandon _ _ => true
  | .twbSdaRelease _ => true
  | .twbBusTimeout _ _ _ => true
  | .shadeExit n _ => below 16 n
  | .levelRaiseSwitch => true
  | .vsettleEnd => true
  | .sleepVoteTurn => true
  | .sleepLinkHoldEnd _ => true
  | .hardwareEntry _ => true
  | .hardwareEntryEnd _ => true
  | .canopyTimer _ => true
  | .gpioWakeLevel p _ => below 16 p
  | .sapWakeActivity p _ => below 8 p
  | .sapWakePattern p _ => below 8 p
  | .exitStepReady _ _ _ => true
  | .exitStepTimeout _ => true
  | .wakeBoundary _ => true
  | .coldStart _ => true
  | .vsysLoss _ => true
  | .resetNAssert _ => true
  | .resetNRelease _ _ => true
  | .coreSupplyLoss _ => true
  | .vio2Loss => true
  | .dramSupplyLoss _ => true
  | .dramSupplyValid _ => true
  | .lsnHop x => x.samples.length == 64 || x.samples.length == 160
  | .prerollBlock l _ => l.length == 256
  | .lsnStop _ => true
  | .blzCommit _ => true
  | .blzSealWrite _ => true
  | .rateLimitSecondEnd c _ _ => fits 16 c
  | .heartbeatWindow _ _ _ _ => true
  | .coreException c _ _ => below 2 c
  | .coppiceFirstPickup _ => true
  | .coppiceRetry _ => true
  | .standbyReady => true
  | .fwHandover => true
  | .fwProbationEnd _ => true
  | .rangerLoss _ => true
  | .rangerReloadDone => true
  | .debugExpire _ => true
  | .busMasterEnable => true
  | .vio2Valid _ => true
  | .coreSupplyReturn _ => true
  | .biasLimitEnd n _ => below 8 n
  | .netPps _ => true
  | .gpioPulseEnd p _ => below 16 p

end Sys2Proof
end

