-- ==== Sys2Proof/Safety.lean ====
section
/-! DEFINITION. What the claims call safe, and the terms they are stated in: a step that answers a next state, a queue of
well-formed commands, the canonical form of device DRAM; a command that nothing stands in the way of; registers that a
command leaves alone. -/
namespace Sys2Proof.Safety
open Sys2Proof.Machine

/-- A step answers a next state. -/
def Runs (s : State) : Prop := ∃ t, step s = .next t

/-- Every command that waits is well-formed. -/
def QueueWf (s : State) : Prop := ∀ c ∈ s.pending, c.wf = true

/-- Device DRAM is in its canonical form. -/
def DramWf (s : State) : Prop := memWf s.dram = true

/-- A command of a CMD ring at the boundary at which it commits in time (R62, R328, R470): its header has no reserved bit and
no reserved policy, its ring is a CMD ring, Firebreak is not engaged, and it is untimed or its target is the tick in force. -/
def Ready (s : State) (h : Hdr) : Prop :=
  h.rsv = false ∧ h.late ≠ 3 ∧ s.ringType (ringOf h) = 0 ∧ s.flt.fire = false ∧ (h.timed = false ∨ h.target = s.time.ts)

/-- The counters that a record of the event log may advance (Table BZ-6). -/
def logReg (o : Nat) : Bool := decide (0x13020 ≤ o) && decide (o ≤ 0x13040)

/-- The registers that writing a write-back may change: a refused DMA and a ring error (R313, R318). -/
abbrev wbRegs : List Nat := [Reg.HST_ERR, Reg.HST_WIN_VIOLCNT, Reg.HST_ERR_RING]

/-- Every register but those named, and but the event log's counters, reads as before. -/
def RegsBut (own : List Nat) (s t : State) : Prop := ∀ o, logReg o = false → o ∉ own → t.rd o = s.rd o

/-- A write-back of a descriptor with a status is among those that wait to go out, when its CPL ring runs and its slot may be
written (R313, R316, R326). -/
def WrittenBack (st : Status) (h : Hdr) (s t : State) : Prop :=
  h.ring < 64 → (s.ring (s.cplOf h.ring)).state = .running →
    (s.dmaOn = true → s.dmaAllowed (s.slotAddr (s.cplOf h.ring) (s.ring (s.cplOf h.ring)).didx) 32 true = true) →
    ∃ w ∈ t.host.heldWb, w.cpl = s.cplOf h.ring ∧ w.status = st ∧ w.tag = h.tag

/-- The bytes of a two-wire response as the bus carries them, with the PEC while it is on (R369). -/
def onWire (s : State) (cmd : Byte) (l : List Byte) : List Byte :=
  if s.flag Fl.TWB_CTRL.PEC_EN then l ++ [crc8 (s.twbAddr false :: cmd :: s.twbAddr true :: l)] else l

/-- A new time epoch (R56, R60): the count goes on by one, and the history's newest entry is this event. -/
def NewEpoch (kind : Nat) (r : Int) (at_ : DT) (old new : Int) (s t : State) : Prop :=
  t.time.epoch = s.time.epoch + 1
    ∧ t.time.hist = (⟨s.time.epoch + 1, kind, r, at_, old, new⟩ :: s.time.hist).take 32 ∧ t.time.histCnt = s.time.histCnt + 1

/-- The EPOCH record of R61, written from the state `t` that the event leaves, on the log of `s`. -/
def epochRecord (kind : Nat) (at_ : DT) (old new : Int) (s t : State) : State :=
  ({ t with blz := s.blz }).logAt Src.TIME 0xD003 2 at_ (wN (t.time.epoch.toNat + kind * 256))
    (if kind = 0 ∨ kind = 3 then 0 else usWord (new - old)) t.tsNow

/-- A slew is logged with its offset in µs; none is logged where the offset is zero (Table TK-13). -/
def slewRecord (wall : Bool) (delta : Int) (at_ : DT) (s : State) : State :=
  if delta = 0 then s else s.logAt Src.TIME 0x1009 1 at_ (wN (wB wall)) (usWord delta) 0

/-- The registers that any host write of a register may touch beside its own: a value refused, a bit ignored for the lock. -/
abbrev ctlRegs : List Nat := [Reg.HST_ERR, Reg.TOP_LOCKED_WRCNT]

/-- A host access reaches the registers, and no set-up lock of either kind holds. -/
def Open (s : State) : Prop := s.barGate = 1 ∧ s.locked = false ∧ s.signedOnly = false

/-- The registers whose writes have a rule of their own beside their fields' access types. -/
def ownRule (off : Nat) : Bool :=
  runFixed off || (decide (0x10400 ≤ off) && decide (off < 0x10C00)) || (decide (0x16000 ≤ off) && decide (off < 0x16040))
    || (decide (0x3E000 ≤ off) && decide (off < 0x3F000))
    || [Reg.CLK_CTRL, Reg.TIME_SNAP, Reg.TOP_LOCK, Reg.THK_CTRL, Reg.THK_AP_STATUS, Reg.THK_METER_CFG, Reg.AOUT_JACK_CFG,
        Reg.PWR_CTRL, Reg.PWR_BUD_CTRL, Reg.MEM_CFG, Reg.MEM_SCRUB, Reg.NET_GPTP, Reg.NET_MDIO, Reg.HST_NUDGE,
        Reg.TWB_ALERT, Reg.TWB_ALERT_MASK, Reg.TWB_CTRL, Reg.BLZ_RELEASE, Reg.BLZ_WIN_SEQ, Reg.BLZ_CTRL, Reg.FLT_CTRL, Reg.FLT_FAULT, Reg.HWD_BOOT_CTRL,
        Reg.PIN_GPIO_SET, Reg.PIN_GPIO_CLR, Reg.PIN_SAPX_CFG, Reg.HST_DB_BASE_LO, Reg.HST_DB_BASE_HI, Reg.HST_CP_BASE_LO,
        Reg.HST_CP_BASE_HI].contains off

/-- What a reset of code 1, 2 or 3 leaves (Tables FT-6 and RG-2): registers at their reset values but for the count of resets
and the latched half of DT, the time counts, the event store, device DRAM, fuses and availability counts kept, keys erased. -/
def ResetLeaves (code : Nat) (dt : DT) (s t : State) : Prop :=
  (∀ o, o ∉ [Reg.TOP_RESET, Reg.TIME_DT_HI, Reg.MEM_STATUS] → t.rd o = State.reset.rd o)
    ∧ t.fld Fl.TOP_RESET.KIND = code ∧ t.fld Fl.TOP_RESET.COUNT = min (s.fld Fl.TOP_RESET.COUNT + 1) 0xFFFF
    ∧ t.rd Reg.TIME_DT_HI = s.rd Reg.TIME_DT_HI
    ∧ t.rd Reg.MEM_STATUS = (if s.rd Reg.MEM_STATUS ≠ 0 ∧ code ≤ 2 then 2 else State.reset.rd Reg.MEM_STATUS)
    ∧ t.time.dt = (s.advance dt).time.dt ∧ t.time.ts = s.time.ts ∧ t.time.epoch = s.time.epoch ∧ t.time.running = false
    ∧ t.dram = s.dram ∧ t.hwd = { HwdSt.reset with fuses := s.hwd.fuses } ∧ t.host = { HostSt.reset with perst := s.host.perst }
    ∧ t.blz.store = s.blz.store ∧ t.blz.seqNext = s.blz.seqNext ∧ t.blz.boot.isSome = true ∧ t.blz.prevSeal = s.blz.prevSeal
    ∧ t.flt.good = s.flt.good ∧ t.flt.bad = s.flt.bad ∧ t.flt.ext = s.flt.ext ∧ t.flt.host = s.flt.host ∧ t.flt.fire = false
    ∧ t.clk = ClkSt.reset ∧ t.adm = ⟨[], none⟩ ∧ t.ain = State.reset.ain ∧ t.thk = ThkSt.reset ∧ t.sel = [] ∧ t.trl = TrlSt.reset
    ∧ t.fx = ⟨[], [], []⟩ ∧ t.clip = State.reset.clip ∧ t.sap = [] ∧ t.grove = [] ∧ t.net = State.reset.net ∧ t.loop = []
    ∧ t.pending = s.pending

end Sys2Proof.Safety
end

