-- ==== Sys2Proof/Certificates/Slice0/Obligations.lean ====
section
/-! DEFINITION. What the provers are asked to prove of the model: one definition an obligation. -/
open Sys2Proof Sys2Proof.Machine Sys2Proof.Safety

/-- For every mapping with a signed 32-bit rate term that slews, if at all, with its target's rate (as every correction
leaves it), and every two DTs from its anchor on, the value at the later DT is no less than the value at the earlier,
slewing or not (R57). A correction inside an epoch leaves the value at its own DT as it was. Where a slew has reached its
target, the mapping re-anchored there slews no more and gives the same value (R58). Stated on the mapping operations that
every event of chapter 2 uses. -/
def Obligations.MappingNeverDecreases : Prop :=
  (∀ (m : Mapping) (d e : DT), -(2 ^ 31) ≤ m.r → m.r < 2 ^ 31 → (∀ t, m.slew = some t → t.r = m.r) →
    m.da.toNat ≤ d.toNat → d.toNat ≤ e.toNat → mapAt m d ≤ mapAt m e)
  ∧ (∀ (m : Mapping) (a d : DT) (v r : Int), mapAt (slewTo m (mapTo a v r) d) d = mapAt m d)
  ∧ (∀ (m g : Mapping) (d : DT) (t : Slew), (slewTo m g d).slew = some t → t.r = (slewTo m g d).r ∧ (slewTo m g d).da = d)
  ∧ (∀ (m : Mapping) (d : DT), slewOver m d = true → mapAt (mapNow m d) d = mapAt m d ∧ (mapNow m d).slew = none)

/-- Formalises 02_tick_and_time.md R56. The network mapping established, stepped or taken over by another grandmaster from a
Sync (kinds 0, 1, 2), established by the role grandmaster (kind 0), the same three from NET_SYNC, and the wall mapping
established or stepped (kinds 3, 4): each answers a next state in which the epoch is one more, modulo 256, the newest
history entry holds the event's epoch, kind, rate, DT, old and new value, and the EPOCH record with R61's parameters is on
the log. For the two commands the effect is named and the command's own write-back follows it. -/
def Obligations.EpochEvents : Prop :=
  (∀ (s : State) (dt : DT) (net : BitVec 64) (r : Word) (gm : BitVec 64), s.fld Fl.NET_GPTP.MODE = 1 → s.coreUp = true →
    let m := s.time.net
    let old := mapRead m dt
    let kind := if m.valid = false then 0 else if gm ≠ s.time.netGm then 2 else 1
    (kind = 1 → (s.rd Reg.TIME_NET_STEP).toNat < (net.toInt - old).natAbs) →
    ∃ t, exec (.gptpSync dt net r gm) s = .next t
      ∧ NewEpoch kind r.toInt dt old net.toInt s t ∧ t.time.net = mapTo dt net.toInt r.toInt ∧ t.time.netGm = gm
      ∧ t.blz = (epochRecord kind dt old net.toInt s t).blz)
  ∧ (∀ (s : State) (asCapable : Bool) (dt : DT), s.fld Fl.NET_GPTP.MODE = 1 → s.time.net.valid = false →
    bitsOf (s.rd Reg.NET_GPTP_STAT) 0 2 ≠ 2 →
    let v := if s.time.wall.valid then mapAt s.time.wall dt else (dt.toNat : Int)
    ∃ t, exec (.gptpRoleChange 2 asCapable dt) s = .next t
      ∧ NewEpoch 0 0 dt 0 v s t ∧ t.time.net = mapTo dt v 0 ∧ t.time.netGm = 0
      ∧ t.blz = ((epochRecord 0 dt 0 v s t).logAt Src.NET 0x9009 2 dt (wN 2) (wN (s.fld Fl.NET_GPTP.PORT)) 0).blz)
  ∧ (∀ (s : State) (h : Hdr) (p : NetSyncP), Ready s h → netSyncHost s = true → netSyncRefusal s p = .ok →
    let m := s.time.net
    let d := s.time.bdt
    let old := mapRead m d
    let new := mapAt (mapTo p.dt p.net.toInt p.r.toInt) d
    let kind := if m.valid = false then 0 else if p.tag.setWidth 64 ≠ s.time.netGm then 2 else 1
    (kind = 1 → (s.rd Reg.TIME_NET_STEP).toNat < (new - old).natAbs) →
    exec (.netSync h p) s = .next (State.finish h 0x0902 false (netSyncEffect p s))
      ∧ NewEpoch kind p.r.toInt d old new s (netSyncEffect p s).st
      ∧ (netSyncEffect p s).st.time.net = mapTo p.dt p.net.toInt p.r.toInt
      ∧ (netSyncEffect p s).st.blz = (epochRecord kind d old new s (netSyncEffect p s).st).blz)
  ∧ (∀ (s : State) (h : Hdr) (p : WallSetP), Ready s h → p.mode = 0 → timeWallSetRefusal s p = .ok →
    let d := s.time.bdt
    let old := mapRead s.time.wall d
    let new := mapAt (wallTarget p) d
    let kind := if s.time.wall.valid then 4 else 3
    exec (.timeWallSet h p) s = .next (State.finish h 0x0103 false (timeWallSetEffect p s))
      ∧ NewEpoch kind p.r.toInt d old new s (timeWallSetEffect p s).st
      ∧ (timeWallSetEffect p s).st.time.wall = wallTarget p
      ∧ (timeWallSetEffect p s).st.blz = (epochRecord kind d old new s (timeWallSetEffect p s).st).blz)

/-- A small correction from a Sync or NET_SYNC starts a slew and TIME_WALL_SET in SLEW mode does so for the wall mapping: no
epoch event, and the mapping's value at that DT stays (R58). Sync loss sets holdover and logs it (R288). A role change
writes NET_GPTP_STAT and is logged. A slew ends where the target is reached. TIME_SNAP captures DT, TS32 and both mapped
values, an invalid mapping as zero (R48). XO_RATIO_MEASURE writes the ratio. Each leaves all other blocks and registers;
commands also write back. -/
def Obligations.TimeEventsComplete : Prop :=
  (∀ (s : State) (dt : DT) (net : BitVec 64) (r : Word), s.fld Fl.NET_GPTP.MODE = 1 → s.coreUp = true → s.time.net.valid = true →
    (net.toInt - mapAt s.time.net dt).natAbs ≤ (s.rd Reg.TIME_NET_STEP).toNat →
    ∃ t, exec (.gptpSync dt net r s.time.netGm) s = .next t
      ∧ mapAt t.time.net dt = mapAt s.time.net dt ∧ t.time.net = slewTo s.time.net (mapTo dt net.toInt r.toInt) dt
      ∧ t.time = { (s.advance dt).time with net := t.time.net, netHold := false, netSync := dt }
      ∧ t.blz = (slewRecord false (net.toInt - mapAt s.time.net dt) dt s).blz
      ∧ RegsBut [] s t ∧ { t with time := s.time, blz := s.blz, regs := s.regs } = s)
  ∧ (∀ (s : State) (dt : DT), s.time.net.valid = true → s.time.netHold = false →
      (s.fld Fl.NET_GPTP.MODE = 1 ∨ (s.fld Fl.NET_GPTP.MODE = 2 ∧ s.time.netSync.toNat + 1000000000 ≤ dt.toNat)) →
    ∃ t, exec (.netSyncLoss dt) s = .next t
      ∧ t.time = { (s.advance dt).time with netHold := true }
      ∧ t.blz = (s.logAt Src.TIME 0x1007 3 dt (wI s.time.net.r) 0 0).blz
      ∧ RegsBut [] s t ∧ { t with time := s.time, blz := s.blz, regs := s.regs } = s)
  ∧ (∀ (s : State) (role : Nat) (asCapable : Bool) (dt : DT), s.fld Fl.NET_GPTP.MODE = 1 → role < 4 →
      (role = 2 → s.time.net.valid = true) →
    ∃ t, exec (.gptpRoleChange role asCapable dt) s = .next t
      ∧ t.rd Reg.NET_GPTP_STAT = wN (role + 4 * wB asCapable)
      ∧ t.time = { (s.advance dt).time with netGm := if role = 2 then 0 else s.time.netGm }
      ∧ (role = bitsOf (s.rd Reg.NET_GPTP_STAT) 0 2 → t.blz = s.blz)
      ∧ (role ≠ bitsOf (s.rd Reg.NET_GPTP_STAT) 0 2 →
          t.blz = (s.logAt Src.NET 0x9009 2 dt (wN role) (wN (s.fld Fl.NET_GPTP.PORT)) 0).blz)
      ∧ RegsBut [Reg.NET_GPTP_STAT] s t ∧ { t with time := s.time, blz := s.blz, regs := s.regs } = s)
  ∧ (∀ (s : State) (dt : DT), exec (.slewEnd false dt) s = .next ((s.advance dt).setNet (mapNow s.time.net dt))
      ∧ exec (.slewEnd true dt) s = .next ((s.advance dt).setWall (mapNow s.time.wall dt)))
  ∧ (∀ (s : State) (h : Hdr) (p : NetSyncP), Ready s h → netSyncHost s = true → netSyncRefusal s p = .ok →
      s.time.net.valid = true → p.tag.setWidth 64 = s.time.netGm →
      (mapAt (mapTo p.dt p.net.toInt p.r.toInt) s.time.bdt - mapAt s.time.net s.time.bdt).natAbs ≤ (s.rd Reg.TIME_NET_STEP).toNat →
    ∃ t, exec (.netSync h p) s = .next t
      ∧ t.time = { s.time with net := slewTo s.time.net (mapTo p.dt p.net.toInt p.r.toInt) s.time.bdt, netHold := false, netSync := s.time.bdt }
      ∧ RegsBut wbRegs s t ∧ { t with time := s.time, host := s.host, blz := s.blz, regs := s.regs } = s)
  ∧ (∀ (s : State) (h : Hdr) (p : WallSetP), Ready s h → p.mode = 1 → timeWallSetRefusal s p = .ok →
    ∃ t, exec (.timeWallSet h p) s = .next t
      ∧ t.time = { s.time with wall := slewTo s.time.wall (wallTarget p) s.time.bdt }
      ∧ RegsBut wbRegs s t ∧ { t with time := s.time, host := s.host, blz := s.blz, regs := s.regs } = s)
  ∧ (∀ s : State, ∃ t, exec .timeSnap s = .next t
      ∧ t.rd64 Reg.TIME_SNAP_DT_LO Reg.TIME_SNAP_DT_HI = s.time.dt ∧ t.rd Reg.TIME_SNAP_TS32 = s.tsNow
      ∧ t.rd64 Reg.TIME_SNAP_NET_LO Reg.TIME_SNAP_NET_HI = val64 (if s.time.net.valid then mapAt s.time.net s.time.dt else 0)
      ∧ t.rd64 Reg.TIME_SNAP_WALL_LO Reg.TIME_SNAP_WALL_HI = val64 (if s.time.wall.valid then mapAt s.time.wall s.time.dt else 0)
      ∧ t.rd Reg.TIME_SNAP_STATUS = s.timeStatus
      ∧ RegsBut [Reg.TIME_SNAP_DT_LO, Reg.TIME_SNAP_DT_HI, Reg.TIME_SNAP_TS32, Reg.TIME_SNAP_NET_LO, Reg.TIME_SNAP_NET_HI,
          Reg.TIME_SNAP_WALL_LO, Reg.TIME_SNAP_WALL_HI, Reg.TIME_SNAP_STATUS] s t ∧ { t with regs := s.regs } = s)
  ∧ (∀ (s : State) (cycles : Nat), s.time.keeper = false → ∃ t, exec (.xoRatioMeasure cycles) s = .next t
      ∧ t.rd Reg.TIME_XO_RATIO = wN (cycles * 65536 / 32768) ∧ RegsBut [Reg.TIME_XO_RATIO] s t ∧ { t with regs := s.regs } = s)

/-- Each leader event sets the leader state the rules name and logs its record: lock after 1,024 ticks within 0.25 sample,
out of range after 4,096 at a clamp, a WCLK_IN leader without an edge for 2.5 periods is lost and its integrator's value is
held as the DCO word, loss of MCLK_IO puts the DCO at w = 0. CLOCK_LEADER elects the leader it names; adoption starts from
the DCO word in force. With kind 0 the word is, after k ticks, within one LSB of the line from its value to 0 over 4,096
ticks, and 0 from there on. No leader event changes the tick count, the boundary or any other block. -/
def Obligations.LeaderEventsComplete : Prop :=
  (∀ (s : State) (dt : DT), s.clk.lstate = .acquiring → 1024 ≤ s.clk.within → ∃ t, exec (.leaderLock dt) s = .next t
    ∧ t.clk = { s.clk with lstate := .locked }
    ∧ t.blz = (s.logAt Src.CLK 0x1001 1 dt (leaderWord s.clk.kind s.clk.index) (wI s.clk.dco) 0).blz
    ∧ RegsBut [] s t ∧ { t with clk := s.clk, blz := s.blz, regs := s.regs } = s.advance dt)
  ∧ (∀ (s : State) (dt : DT), (s.clk.lstate = .acquiring ∨ s.clk.lstate = .locked) → 4096 ≤ s.clk.clamped →
    ∃ t, exec (.leaderRange dt) s = .next t
      ∧ t.clk = { s.clk with lstate := .outOfRange }
      ∧ t.blz = (s.logAt Src.CLK 0x1003 4 dt (leaderWord s.clk.kind s.clk.index) (wI s.clk.dco) 0).blz
      ∧ RegsBut [] s t ∧ { t with clk := s.clk, blz := s.blz, regs := s.regs } = s.advance dt)
  ∧ (∀ (s : State) (dt : DT), s.clk.kind = 3 → s.clk.lstate ≠ .holdover → s.wclkGone dt = true → ∃ t, exec (.wclkInLoss dt) s = .next t
      ∧ t.clk.lstate = .holdover ∧ t.clk.dco = dcoWord s.clk.integ ∧ t.clk.hold = dcoWord s.clk.integ ∧ t.clk.kind = 3 ∧ t.clk.rate = s.clk.rate
      ∧ t.blz = (s.logAt Src.CLK 0x1002 3 dt (leaderWord 3 s.clk.index) (wI (dcoWord s.clk.integ)) 0).blz
      ∧ RegsBut [] s t ∧ { t with clk := s.clk, blz := s.blz, regs := s.regs } = s.advance dt)
  ∧ (∀ (s : State) (dt : DT), s.clk.mclkExt = true → ∃ t, exec (.mclkLoss dt) s = .next t
      ∧ t.clk = { s.clk with mclkExt := false, mclkLost := true, dco := 0, integ := 0 }
      ∧ t.blz = (s.logAt Src.CLK 0x1006 4 dt 0 0 0).blz
      ∧ RegsBut [] s t ∧ { t with clk := s.clk, blz := s.blz, regs := s.regs } = s.advance dt)
  ∧ (∀ (s : State) (h : Hdr) (p : ClockLeaderP), Ready s h → clockLeaderValid p = true → clockLeaderRefusal s p = .ok →
    ∃ t, exec (.clockLeader h p) s = .next t
      ∧ t.clk.kind = p.kind ∧ t.clk.index = p.index ∧ t.clk.bw = p.bw ∧ t.clk.dco = s.clk.dco ∧ t.clk.rate = s.clk.rate
      ∧ (p.kind = 0 → t.clk.lstate = .noLeader ∧ t.clk.integ = s.clk.integ)
      ∧ (p.kind ≠ 0 → t.clk.lstate = .acquiring ∧ t.clk.adopt = true ∧ t.clk.integ = s.clk.dco)
      ∧ RegsBut wbRegs s t ∧ { t with clk := s.clk, host := s.host, blz := s.blz, regs := s.regs } = s)
  ∧ (∀ (s : State) (p : ClockLeaderP) (k : Nat), p.kind = 0 →
      let w := s.clk.dco
      let v := (Nat.repeat (fun u : State => u.leaderLoop none) k (clockLeaderEffect p s).st).clk.dco
      (k ≤ 4096 → (4096 * v - w * (4096 - k : Int)).natAbs ≤ 4096) ∧ (4096 ≤ k → v = 0))

/-- An accepted HOUSE_RATE fades every sink, and the pilots of both speaker channels with it, to zero over 32 ticks; one
that names the current rate changes nothing but its write-back (R43). At T+32 the pending commands with targets from T+32 on
leave, the engines' ramps and both interchange halves clear, and the clock stands exactly where the family changes. At S the
rate is the new one, the boundary stands at the DT that the tick period or the virtual index gives, and the write-backs of
the aborted commands and of HOUSE_RATE are due. The house PLL's first lock places TS32 = 0 after a cold reset (R33). All
other blocks stay. -/
def Obligations.RateChangeCompletes : Prop :=
  (∀ (s : State) (h : Hdr) (rate : Nat), Ready s h → houseRateValid s rate = true → houseRateRefusal s rate = .ok → rate ≠ s.clk.rate →
    ∃ t, exec (.houseRate h rate) s = .next t
      ∧ t.clk = { s.clk with rc := t.clk.rc, fade := grGo s.clk.fade.prev 0 32 false, tfade := grNext s.clk.tfade.cur 0 (32 * stepsPerTk s.clk.rate) }
      ∧ t.clk.rc = some ⟨s.time.ts, s.time.bdt, s.clk.rate, rate, h, false, [], none⟩
      ∧ (∀ n, n < 2 → (t.spkCh n).pilot.amp = facGo (s.spkCh n).pilot.amp 0 32 ∧ { t.spkCh n with pilot := (s.spkCh n).pilot } = s.spkCh n)
      ∧ { t with clk := s.clk, spk := s.spk } = s)
  ∧ (∀ (s : State) (h : Hdr), Ready s h → houseRateValid s s.clk.rate = true → houseRateRefusal s s.clk.rate = .ok →
    ∃ t, exec (.houseRate h s.clk.rate) s = .next t
      ∧ RegsBut wbRegs s t ∧ { t with host := s.host, blz := s.blz, regs := s.regs } = s)
  ∧ (∀ (s : State) (dt : DT) (rc : RateChange), s.clk.rc = some rc → rc.stopped = false → s.time.running = true →
      0 ≤ tsDiff s.time.ts (rc.t + 32) →
    let gone : Picked → Bool := fun p => p.hdr.timed && decide (0 ≤ tsDiff p.hdr.target (rc.t + 32))
    let out := (s.host.pend ++ s.host.picked ++ s.host.commit ++ s.flt.held).filter gone
    ∃ t, exec (.rateChangeStop dt) s = .next t
      ∧ t.time.running = (family441 rc.old == family441 rc.new) ∧ t.time.vrate = rc.new ∧ t.time.ts = s.time.ts ∧ t.clk.rate = s.clk.rate
      ∧ t.clk.rc = some { rc with stopped := true, aborted := out.map (fun p => (p.hdr, opcodeOf p.cmd)) }
      ∧ t.host.pend = s.host.pend.filter (fun p => !gone p) ∧ t.flt.held = s.flt.held.filter (fun p => !gone p)
      ∧ t.inter = [] ∧ t.inter2 = [] ∧ t.thk.ramps = [] ∧ t.thk.act = s.thk.act ∧ t.trl.act = s.trl.act ∧ t.fx.act = s.fx.act
      ∧ (s.clk.kind = 3 → s.clk.lstate ≠ .holdover → t.clk.lstate = .holdover)
      ∧ RegsBut wbRegs s t
      ∧ { t with time := s.time, clk := s.clk, host := s.host, flt := s.flt, thk := s.thk, sel := s.sel, trl := s.trl, fx := s.fx, clip := s.clip, loop := s.loop, net := s.net, sap := s.sap, spk := s.spk, inter := s.inter, inter2 := s.inter2, blz := s.blz, regs := s.regs } = s)
  ∧ (∀ (s : State) (dt : DT) (rc : RateChange), s.clk.rc = some rc → rc.stopped = true → rc.s = none →
    let S : TS := if s.time.running then s.time.ts + 1 else s.time.ts + BitVec.ofNat 32 (virtCeil s dt)
    let D : DT := if s.time.running then s.boundaryDt dt else virtDt s (virtCeil s dt)
    ∃ t, exec (.rateChangeResume dt) s = .next t
      ∧ t.clk.rate = rc.new ∧ t.clk.lock = true ∧ t.clk.rc = some { rc with s := some S }
      ∧ t.time.ts = S ∧ t.time.bdt = D ∧ t.time.running = true ∧ t.time.placed = some S
      ∧ t.host = { s.host with openWb := s.host.openWb ++ rc.aborted.map (fun a => ⟨a.1, a.2, .aborted, S, D, 0, 0, 0, false⟩)
          ++ [⟨rc.hdr, 0x0102, .ok, rc.t, rc.tdt, S, wN rc.aborted.length, 0, false⟩] }
      ∧ t.blz = (s.logAt Src.CLK 0x1005 2 D (wN rc.old) (wN rc.new) (wN rc.aborted.length)).blz
      ∧ RegsBut [] s t ∧ { t with time := s.time, clk := s.clk, host := s.host, blz := s.blz, regs := s.regs } = s)
  ∧ (∀ (s : State) (dt : DT), s.flag Fl.CLK_CTRL.RUN = true → s.clk.lock = false → s.clk.cfgErr = false → s.time.started = false →
      s.time.placed = none →
    ∃ t, exec (.housePllLock dt) s = .next t
      ∧ t.clk.lock = true ∧ t.clk.rate = s.fld Fl.CLK_CTRL.FD_INIT ∧ t.clk.dco = 0
      ∧ (s.time.hadTick = false → t.time.placed = some 0)
      ∧ (s.time.hadTick = true → t.time.placed = some (s.time.ts + BitVec.ofNat 32 (virtCeil (s.advance dt) dt)))
      ∧ { t.time with placed := none } = (s.advance dt).time ∧ { t with time := s.time, clk := s.clk } = s)

/-- TICK_BOUNDARY makes the next count, or the one placed, the tick in force, with the DT that the tick period gives its
boundary, and its steps begin at 0; the queue stays. STEP_BOUNDARY does the next step within the tick. WAIT_TIMEOUT leaves
no wait whose timeout has come, and keeps every other wait. A doorbell in time takes up the producer indexes; a late one
counts in HST_DB_LATECNT and sets DB_LATE (R320). An overrun repeats the engine's sources with the values of the tick before
as bad data, leaves the others', counts and logs it (R361). -/
def Obligations.TickEventsComplete : Prop :=
  (∀ (s : State) (x : TickIn), s.tickCan = true → ∃ t, exec (.tickBoundary x) s = .next t
    ∧ t.time.ts = s.time.placed.getD (s.time.ts + 1) ∧ t.time.bdt = maxDt s.time.dt (s.boundaryDt x.dt)
    ∧ t.time.running = true ∧ t.time.started = true ∧ t.time.placed = none
    ∧ t.time.lastTs = t.time.ts ∧ t.time.lastDt = t.time.bdt ∧ t.step = 0 ∧ t.pending = s.pending)
  ∧ (∀ (s : State) (x : StepIn), s.time.running = true → s.step < stepsPerTk s.clk.rate → s.rateHalt = false → s.blockStopped 3 = false →
    ∃ t, exec (.stepBoundary x) s = .next t
      ∧ t.step = s.step + 1 ∧ t.time = (s.advance x.dt).time ∧ t.trl.act = s.trl.act ∧ t.thk = s.thk ∧ t.host = s.host
      ∧ t.dram = s.dram ∧ t.pending = s.pending)
  ∧ (∀ s : State, s.time.running = true → ∃ t, exec .waitTimeout s = .next t
      ∧ (∀ w ∈ t.host.waits, w ∈ s.host.waits ∧ 0 < tsDiff w.timeout s.time.ts)
      ∧ (∀ w ∈ s.host.waits, 0 < tsDiff w.timeout s.time.ts → w ∈ t.host.waits)
      ∧ RegsBut wbRegs s t ∧ { t with host := s.host, blz := s.blz, regs := s.regs } = s)
  ∧ (∀ (s : State) (page : List (Nat × Nat)), s.host.issued = true → ∃ t, exec (.doorbellReturn page) s = .next t
      ∧ t.host.issued = false ∧ t.host.fresh = true ∧ t.host.dbOk = true
      ∧ (∀ n v, page = [(n, v)] → n < 64 → (s.ring n).state = .running → (t.ring n).hidx = v % 65536 ∧ (t.ring n).didx = (s.ring n).didx)
      ∧ RegsBut (Reg.WAK_LATCH :: wbRegs) s t ∧ { t with host := s.host, pwr := s.pwr, blz := s.blz, regs := s.regs } = s)
  ∧ (∀ (s : State) (dt : DT), s.host.issued = true → ∃ t, exec (.doorbellLate dt) s = .next t
      ∧ t.host.issued = false ∧ t.host.dbOk = false
      ∧ t.rd Reg.HST_DB_LATECNT = satInc (s.rd Reg.HST_DB_LATECNT) 1 ∧ t.fld Fl.HST_ERR.DB_LATE = 1
      ∧ RegsBut [Reg.HST_DB_LATECNT, Reg.HST_ERR] s t ∧ { t with host := s.host, blz := s.blz, regs := s.regs } = s.advance dt)
  ∧ (∀ (s : State) (e : Nat), s.time.running = true → e ≤ 2 → (s.inter.map (·.1)).Nodup → ∃ t, exec (.budgetOverrun e) s = .next t
      ∧ (∀ a, (engineClasses e).contains (a / 1024) = true → smGet? t.inter2 a = (smGet? s.inter a).map (fun v => ⟨v.val, 3⟩))
      ∧ (∀ a, (engineClasses e).contains (a / 1024) = false → smGet? t.inter2 a = smGet? s.inter2 a)
      ∧ t.rd Reg.PWR_BUD_OVRCNT = satInc (s.rd Reg.PWR_BUD_OVRCNT) 1
      ∧ t.blz = (s.log Src.PWR 0x2103 5 (wN e) s.time.ts (satInc (s.rd Reg.PWR_BUD_OVRCNT) 1)).blz
      ∧ RegsBut [Reg.PWR_BUD_OVRCNT] s t
      ∧ { t with thk := s.thk, fx := s.fx, clip := s.clip, inter2 := s.inter2, blz := s.blz, regs := s.regs } = s)

/-- An AIN_SET that passes the checks of R328 answers a next state. AIN_CFGn holds the old configuration with the mask's
fields taken from the image (R103). Where the analog circuit changes on an input that is or becomes enabled, a front-end
sequence starts at this boundary (R98). Every other input, every PDM channel and the input jacks, every register but
AIN_CFGn, the write-back's error registers and the log counters, and every block but the inputs, the host interface and
Blaze are as before. The same for PDM_SET with AIN_PDMCHn (R104). -/
def Obligations.InputSetCompletes : Prop :=
  (∀ (s : State) (h : Hdr) (p : CfgSetP), Ready s h → ainSetValid s p = true → ainSetRefusal s p = .ok →
    ∃ t, exec (.ainSet h p) s = .next t
      ∧ t.rd (Reg.AIN_CFG p.chan) = mergeAin p.mask (s.rd (Reg.AIN_CFG p.chan)) p.image
      ∧ (feChanged (s.rd (Reg.AIN_CFG p.chan)) (t.rd (Reg.AIN_CFG p.chan)) = true →
          cfgEn (s.rd (Reg.AIN_CFG p.chan)) = true ∨ cfgEn (t.rd (Reg.AIN_CFG p.chan)) = true →
          (t.ainCh p.chan).seq = some ⟨true, s.time.ts, s.rd (Reg.AIN_CFG p.chan), false⟩ ∧ (t.ainCh p.chan).fault.tgt = 0)
      ∧ (∀ m, m ≠ p.chan → t.ainCh m = s.ainCh m)
      ∧ t.ain.pdm = s.ain.pdm ∧ t.ain.jack0 = s.ain.jack0 ∧ t.ain.jack1 = s.ain.jack1
      ∧ RegsBut (Reg.AIN_CFG p.chan :: wbRegs) s t
      ∧ { t with ain := s.ain, host := s.host, blz := s.blz, regs := s.regs } = s)
  ∧ (∀ (s : State) (h : Hdr) (p : CfgSetP), Ready s h → pdmSetValid s p = true → pdmSetRefusal s p = .ok →
    ∃ t, exec (.pdmSet h p) s = .next t
      ∧ t.rd (Reg.AIN_PDMCH p.chan) = mergePdm p.mask (s.rd (Reg.AIN_PDMCH p.chan)) p.image
      ∧ (cfgFilt (s.rd (Reg.AIN_PDMCH p.chan)) ≠ cfgFilt (t.rd (Reg.AIN_PDMCH p.chan)) → cfgEn (t.rd (Reg.AIN_PDMCH p.chan)) = true →
          (t.pdmCh p.chan).seq = some ⟨false, s.time.ts, s.rd (Reg.AIN_PDMCH p.chan), false⟩ ∧ (t.pdmCh p.chan).filt.tgt = 0)
      ∧ (∀ m, m ≠ p.chan → t.pdmCh m = s.pdmCh m)
      ∧ t.ain.ch = s.ain.ch ∧ t.ain.jack0 = s.ain.jack0 ∧ t.ain.jack1 = s.ain.jack1
      ∧ RegsBut (Reg.AIN_PDMCH p.chan :: wbRegs) s t
      ∧ { t with ain := s.ain, host := s.host, blz := s.blz, regs := s.regs } = s)

/-- GAIN_MOVE_INCREMENT moves the preamp's gain by one code towards the configured one where a step boundary has called for
it, and else leaves it (R79, R80, R84). At T+32 of a front-end change AIN_FE_SWITCH switches the new configuration in,
starts the bias towards its new level over 3,072 steps and holds the fault factor at zero; a command that only disables ends
there (R98). At T+32+N AIN_FE_SETTLED starts the ramp up over 32 tk, unless the bias is off by its limit or jack 1's
identification holds AIN7, and clip detection resumes. AIN_FILT_SWITCH at T+32 of a filter change holds the Thicket tap at
zero (R99). No other input, no PDM channel but the one named, no register, no memory byte and no other block changes, but
that the listening source's gap is noted. -/
def Obligations.FrontEndSequence : Prop :=
  (∀ (s : State) (n : Nat), ∃ t, exec (.gainMoveIncrement n) s = .next t
      ∧ ((s.ainCh n).due = true → t.ainCh n = { s.ainCh n with due := false, gain :=
          (if (s.ainCh n).gain < cfgGain (s.ainCh n).analog then (s.ainCh n).gain + 1
          else if cfgGain (s.ainCh n).analog < (s.ainCh n).gain then (s.ainCh n).gain - 1 else (s.ainCh n).gain) })
      ∧ ((s.ainCh n).due = false → t.ainCh n = s.ainCh n)
      ∧ (∀ m, m ≠ n → t.ainCh m = s.ainCh m) ∧ { t.ain with ch := s.ain.ch } = s.ain ∧ { t with ain := s.ain } = s)
  ∧ (∀ (s : State) (n : Nat) (q : AinSeq), (s.ainCh n).seq = some q → q.fe = true → q.switched = false →
      0 ≤ tsDiff s.time.ts (q.t + 32) → ∃ t, exec (.ainFeSwitch n) s = .next t
      ∧ (t.ainCh n).analog = s.rd (Reg.AIN_CFG n) ∧ (t.ainCh n).gain = cfgGain (s.rd (Reg.AIN_CFG n))
      ∧ (t.ainCh n).fault = facZero
      ∧ (t.ainCh n).bias = facGo (s.ainCh n).bias (if (s.ainCh n).off then 0 else (biasMv (s.rd (Reg.AIN_CFG n)) : Rat)) (3072 / stepsPerTk s.clk.rate)
      ∧ (t.ainCh n).seq = (if cfgEn (s.rd (Reg.AIN_CFG n)) then some { q with switched := true } else none)
      ∧ (∀ m, m ≠ n → t.ainCh m = s.ainCh m) ∧ { t.ain with ch := s.ain.ch } = s.ain
      ∧ { t.lsn with gaps := s.lsn.gaps } = s.lsn ∧ { t with ain := s.ain, lsn := s.lsn } = s)
  ∧ (∀ (s : State) (n : Nat) (q : AinSeq), (s.ainCh n).seq = some q → q.fe = true → q.switched = true → (s.ainCh n).noClip = true →
      0 ≤ tsDiff s.time.ts (q.t + BitVec.ofNat 32 (32 + settleTk s.clk.rate)) → ∃ t, exec (.ainFeSettled n) s = .next t
      ∧ t.ainCh n = { s.ainCh n with
          fault := if (s.ainCh n).off || (n == 7 && s.aout.hold7) then (s.ainCh n).fault else facGo (s.ainCh n).fault 1 32, noClip := false }
      ∧ (∀ m, m ≠ n → t.ainCh m = s.ainCh m) ∧ { t.ain with ch := s.ain.ch } = s.ain
      ∧ { t.lsn with gaps := s.lsn.gaps } = s.lsn ∧ { t with ain := s.ain, lsn := s.lsn } = s)
  ∧ (∀ (s : State) (n : Nat) (q : AinSeq), (s.ainCh n).seq = some q → q.fe = false → q.switched = false →
      0 ≤ tsDiff s.time.ts (q.t + 32) → ∃ t, exec (.ainFiltSwitch false n) s = .next t
      ∧ t.ainCh n = { s.ainCh n with seq := some { q with switched := true }, filt := facZero }
      ∧ (∀ m, m ≠ n → t.ainCh m = s.ainCh m) ∧ { t.ain with ch := s.ain.ch } = s.ain ∧ { t with ain := s.ain } = s)
  ∧ (∀ (s : State) (n : Nat) (q : AinSeq), (s.pdmCh n).seq = some q → q.switched = false →
      0 ≤ tsDiff s.time.ts (q.t + 32) → ∃ t, exec (.ainFiltSwitch true n) s = .next t
      ∧ t.pdmCh n = { s.pdmCh n with seq := some { q with switched := true }, filt := facZero }
      ∧ (∀ m, m ≠ n → t.pdmCh m = s.pdmCh m) ∧ { t.ain with pdm := s.ain.pdm } = s.ain ∧ { t with ain := s.ain } = s)

/-- BIAS_LIMIT sets AIN_FAULT.BIAS_LIMIT and starts the 100 ms run; its record is logged when the flag was clear.
BIAS_LIMIT_END breaks the run. BIAS_OFF after 100 ms takes the bias to 0 V, sets BIAS_OFF, takes both taps to zero and logs
AIN_BIAS_OFF (R82). PDM_STUCK on a clocked port ramps the channel to zero over 8 tk, sets its flag and logs; PDM_RECOVER
ramps it up over 32 tk and leaves the flag (R89). MOD_RESET sets ACLIP and marks the tick of the stretch (R97). The length
of BIAS_OFF's ramp, 32 tk, is the model's choice (log entry 20). Device time moves to the event's, and no other register
than the flag, the clip counter and the log's counters changes. -/
def Obligations.InputFaultEvents : Prop :=
  (∀ (s : State) (n : Nat) (dt : DT), n < 8 → cfgBias (s.ainCh n).analog ≠ 0 → (s.ainCh n).off = false → (s.ainCh n).lim = none →
    ∃ t, exec (.biasLimit n dt) s = .next t
      ∧ t.bit Reg.AIN_FAULT (8 + n) = true ∧ t.ainCh n = { s.ainCh n with lim := some dt }
      ∧ t.blz = (if s.bit Reg.AIN_FAULT (8 + n) then s.blz
          else (s.logAt Src.AIN 0x3003 3 dt (wN n) (wN (cfgBias (s.ainCh n).analog)) 0).blz)
      ∧ (∀ m, m ≠ n → t.ainCh m = s.ainCh m) ∧ { t.ain with ch := s.ain.ch } = s.ain ∧ RegsBut [Reg.AIN_FAULT] s t
      ∧ { t with ain := s.ain, blz := s.blz, regs := s.regs } = s.advance dt)
  ∧ (∀ (s : State) (n : Nat) (dt : DT), ∃ t, exec (.biasLimitEnd n dt) s = .next t
      ∧ t.ainCh n = { s.ainCh n with lim := none } ∧ (∀ m, m ≠ n → t.ainCh m = s.ainCh m)
      ∧ { t.ain with ch := s.ain.ch } = s.ain ∧ { t with ain := s.ain } = s.advance dt)
  ∧ (∀ (s : State) (n : Nat) (dt t0 : DT), n < 8 → (s.ainCh n).lim = some t0 → t0.toNat + 100000000 ≤ dt.toNat →
    ∃ t, exec (.biasOff n dt) s = .next t
      ∧ t.bit Reg.AIN_FAULT (16 + n) = true
      ∧ t.ainCh n = { s.ainCh n with off := true, lim := none, bias := facZero, fault := facGo (s.ainCh n).fault 0 32 }
      ∧ t.blz = (s.logAt Src.AIN 0x3004 4 dt (wN n) (wN (cfgBias (s.ainCh n).analog)) 0).blz
      ∧ (∀ m, m ≠ n → t.ainCh m = s.ainCh m) ∧ { t.ain with ch := s.ain.ch } = s.ain ∧ RegsBut [Reg.AIN_FAULT] s t
      ∧ { t with ain := s.ain, blz := s.blz, regs := s.regs } = s.advance dt)
  ∧ (∀ (s : State) (n level : Nat) (dt : DT), n < 8 → s.pdmClocked (n / 2) = true → (s.pdmCh n).stuck = none →
    ∃ t, exec (.pdmStuck n level dt) s = .next t
      ∧ t.bit Reg.AIN_FAULT (24 + n) = true ∧ t.pdmCh n = { s.pdmCh n with stuck := some level, fault := facGo (s.pdmCh n).fault 0 8 }
      ∧ t.blz = (s.logAt Src.AIN 0x3007 3 dt (wN n) (wN level) 0).blz
      ∧ (∀ m, m ≠ n → t.pdmCh m = s.pdmCh m) ∧ { t.ain with pdm := s.ain.pdm } = s.ain ∧ RegsBut [Reg.AIN_FAULT] s t
      ∧ { t with ain := s.ain, blz := s.blz, regs := s.regs } = s.advance dt)
  ∧ (∀ (s : State) (n level : Nat) (dt : DT), (s.pdmCh n).stuck = some level →
    ∃ t, exec (.pdmRecover n dt) s = .next t
      ∧ t.pdmCh n = { s.pdmCh n with stuck := none, fault := facGo (s.pdmCh n).fault 1 32 }
      ∧ (∀ m, m ≠ n → t.pdmCh m = s.pdmCh m) ∧ { t.ain with pdm := s.ain.pdm } = s.ain ∧ { t with ain := s.ain } = s.advance dt)
  ∧ (∀ (s : State) (n : Nat) (dt : DT), n < 10 →
    ∃ t, exec (.modReset n dt) s = .next t
      ∧ t.bit Reg.AIN_CLIP n = true ∧ (t.ainCh n).modTs = some s.time.ts
      ∧ (∀ m, m ≠ n → t.ainCh m = s.ainCh m) ∧ { t.ain with ch := s.ain.ch } = s.ain
      ∧ RegsBut [Reg.AIN_CLIP, Reg.AIN_CLIPCNT n] s t
      ∧ { t with ain := s.ain, blz := s.blz, regs := s.regs, pin := s.pin } = s.advance dt)

/-- A detect pin that has stayed low for DEBOUNCE ms makes its jack present, one that has stayed high for 1 ms makes it
absent, and AIN_STATUS shows so. While ACT is set the jack's factor goes to one over 32 tk on presence and to zero over 8 tk
on absence, unless it is on its way there; with ACT clear a factor that is or goes to one stays, and so does every other
input (R102). The record carries the DT of the decision (R101). Nothing outside the inputs and the log changes, but that an
insertion while the device sleeps may be a wake source. -/
def Obligations.InputJackEvents : Prop :=
  (∀ (s : State) (j : Nat) (since dt : DT), j < 2 → s.ainJack j = false →
      since.toNat + s.fld Fl.AIN_JACK_CFG.DEBOUNCE * 1000000 ≤ dt.toNat →
    ∃ t, exec (.ainJackIn j ⟨since, dt⟩) s = .next t
      ∧ t.ainJack j = true ∧ bitN t.ainStatus.toNat (12 + j) = true
      ∧ (s.ainAct j = true → (t.ainCh j).jack = if (s.ainCh j).jack.tgt = 1 then (s.ainCh j).jack else facGo (s.ainCh j).jack 1 32)
      ∧ (s.ainAct j = false → (s.ainCh j).jack.tgt = 1 → t.ain.ch = s.ain.ch) ∧ (∀ m, m ≠ j → t.ainCh m = s.ainCh m) ∧ t.ain.pdm = s.ain.pdm
      ∧ (s.pwr.sleep = none → t.blz = (s.logAt Src.AIN 0x3005 1 dt (wN j) 0 0).blz ∧ RegsBut [] s t
          ∧ { t with ain := s.ain, blz := s.blz, regs := s.regs } = s.advance dt))
  ∧ (∀ (s : State) (j : Nat) (since dt : DT), j < 2 → s.ainJack j = true → since.toNat + 1000000 ≤ dt.toNat →
    ∃ t, exec (.ainJackOut j ⟨since, dt⟩) s = .next t
      ∧ t.ainJack j = false ∧ bitN t.ainStatus.toNat (12 + j) = false
      ∧ (s.ainAct j = true → (t.ainCh j).jack = if (s.ainCh j).jack.tgt = 0 then (s.ainCh j).jack else facGo (s.ainCh j).jack 0 8)
      ∧ (s.ainAct j = false → (s.ainCh j).jack.tgt = 1 → t.ain.ch = s.ain.ch) ∧ (∀ m, m ≠ j → t.ainCh m = s.ainCh m) ∧ t.ain.pdm = s.ain.pdm
      ∧ t.blz = (s.logAt Src.AIN 0x3006 1 dt (wN j) 0 0).blz ∧ RegsBut [] s t
      ∧ { t with ain := s.ain, blz := s.blz, regs := s.regs } = s.advance dt)

/-- An AOUT_SET that passes its checks and finds no sequence running answers a next state whose AOUT_CFGn is the old
configuration with the mask's fields taken from the image. Turning EN on, or setting EN again on a channel out of drive or
waiting for its supply, starts the enable sequence with the stage on and the fault factor at zero, or leaves the channel
waiting while its supply is missing; headphones whose CP_FAULT is still set stay out; turning EN off starts the disable
sequence with a ramp to zero over 32 tk; a change of FILT of an enabled channel in drive starts the filter sequence;
otherwise MUTE and MRAMP start their ramp at once. A line output's command touches no other channel, a headphone's no line
output; no jack, no other register and no other block but the host interface and Blaze changes. -/
def Obligations.OutputSetCompletes : Prop :=
  ∀ (s : State) (h : Hdr) (p : SinkSetP) (n : Nat) (old new : Word), Ready s h → aoutSetValid s p = true → aoutSetRefusal s p = .ok →
    n = aoutChan p → old = s.rd (Reg.AOUT_CFG n) → new = mergeAout p.mask old p.image →
    ∃ t, exec (.aoutSet h p) s = .next t
      ∧ t.rd (Reg.AOUT_CFG n) = new
      ∧ (cfgEn new = true → bitN p.mask.toNat 0 = true → cfgEn old = false ∨ (s.aoutCh n).out = true ∨ (s.aoutCh n).wait = true →
          s.cpBarred n = false → (t.aoutCh n).fault = facZero ∧ (t.aoutCh n).out = false
          ∧ (t.aoutCh n).drive = s.supplyOk n ∧ (t.aoutCh n).wait = !s.supplyOk n
          ∧ (t.aoutCh n).seq = if s.supplyOk n then some ⟨.enable, s.time.ts, new, false, false⟩ else none)
      ∧ (cfgEn old = true → cfgEn new = false →
          (t.aoutCh n).seq = some ⟨.disable, s.time.ts, new, false, false⟩ ∧ (t.aoutCh n).fault = facGo (s.aoutCh n).fault 0 32)
      ∧ (cfgEn old = true → cfgEn new = true → cfgFilt old ≠ cfgFilt new → (s.aoutCh n).out = false → (s.aoutCh n).wait = false →
          (t.aoutCh n).seq = some ⟨.filter, s.time.ts, new, false, false⟩ ∧ (t.aoutCh n).fault = facGo (s.aoutCh n).fault 0 32)
      ∧ (cfgEn old = cfgEn new → cfgFilt old = cfgFilt new → (s.aoutCh n).out = false ∧ (s.aoutCh n).wait = false ∧ s.aout.cpStop = false ∨ s.cpBarred n = true →
          t.aoutCh n = { s.aoutCh n with mute := muteTo (s.aoutCh n).mute new })
      ∧ (∀ m, m ≠ n → n < 8 ∨ m < 8 → t.aoutCh m = s.aoutCh m)
      ∧ t.aout.hp0 = s.aout.hp0 ∧ t.aout.hp1 = s.aout.hp1
      ∧ RegsBut (Reg.AOUT_CFG n :: wbRegs) s t
      ∧ { t with aout := s.aout, host := s.host, blz := s.blz, regs := s.regs } = s

/-- At T+32 of an enable sequence the stage drives; of a disable sequence the stage leaves drive with its factor at zero and
the sequence ends; of a filter change the factor is zero and the switch is made; of a range change the jack's range takes
AOUT_JACK_CFG.RANGE. 1,024 steps later an enabled line or headphone stage starts its ramp up over 32 tk. A loudspeaker
follows the same rows, and its ramp up also waits for BST_OUT: BOOST_READY starts it (R135). Nothing but the channel (with
its jack's range) and, for BOOST_READY, the boost's voltage changes. -/
def Obligations.OutputSequenceRows : Prop :=
  (∀ (s : State) (n : Nat) (q : AoutSeq), n < 12 → (s.aoutCh n).seq = some q → (s.aoutCh n).rng = none → q.switched = false →
      s.reached q.t 32 = true → ∃ t, exec (.aoutSeqSwitch n) s = .next t
      ∧ (q.kind = .enable → (t.aoutCh n).drive = true ∧ (t.aoutCh n).seq = some { q with switched := true })
      ∧ (q.kind = .disable → (t.aoutCh n).drive = false ∧ (t.aoutCh n).seq = none ∧ (t.aoutCh n).fault = facZero
          ∧ (t.aoutCh n).mute = muteTo (s.aoutCh n).mute q.cfg)
      ∧ (q.kind = .filter → (t.aoutCh n).fault = facZero ∧ (t.aoutCh n).seq = some { q with switched := true })
      ∧ (∀ m, m ≠ n → t.aoutCh m = s.aoutCh m) ∧ { t.aout with ch := s.aout.ch } = s.aout ∧ { t with aout := s.aout } = s)
  ∧ (∀ (s : State) (n : Nat) (q : AoutSeq), 8 ≤ n → n < 12 → (s.aoutCh n).seq = none → (s.aoutCh n).rng = some q → q.switched = false →
      s.reached q.t 32 = true → ∃ t, exec (.aoutSeqSwitch n) s = .next t
      ∧ t.aoutCh n = { s.aoutCh n with rng := some { q with switched := true }, rfault := facZero }
      ∧ t.hpJack ((n - 8) / 2) = { s.hpJack ((n - 8) / 2) with lo := bitN (s.fld Fl.AOUT_JACK_CFG.RANGE) ((n - 8) / 2) }
      ∧ t.fld (Fl.AOUT_JACK_STAT.LO ((n - 8) / 2)) = wB (bitN (s.fld Fl.AOUT_JACK_CFG.RANGE) ((n - 8) / 2))
      ∧ (∀ m, m ≠ n → t.aoutCh m = s.aoutCh m) ∧ { t with aout := s.aout, regs := s.regs } = s)
  ∧ (∀ (s : State) (n : Nat) (q : AoutSeq), n < 12 → (s.aoutCh n).seq = some q → q.kind = .enable → q.switched = true → q.up = false →
      s.reached q.t (32 + stageTk s.clk.rate) = true → ∃ t, exec (.aoutStageSettled n) s = .next t
      ∧ t.aoutCh n = { s.aoutCh n with fault := facGo (s.aoutCh n).fault 1 32, seq := some { q with up := true } }
      ∧ (∀ m, m ≠ n → t.aoutCh m = s.aoutCh m) ∧ { t.aout with ch := s.aout.ch } = s.aout ∧ { t with aout := s.aout } = s)
  ∧ (∀ (s : State) (n : Nat) (q : AoutSeq), n < 2 → (s.spkCh n).seq = some q → q.switched = false →
      s.reached q.t 32 = true → ∃ t, exec (.aoutSeqSwitch (12 + n)) s = .next t
      ∧ (q.kind = .enable → t.spkCh n = { s.spkCh n with seq := some { q with switched := true }, drive := true })
      ∧ (q.kind = .filter → t.spkCh n = { s.spkCh n with seq := some { q with switched := true }, fault := facZero, fsv := spkFsv q.cfg, filt := cfgFilt q.cfg })
      ∧ (q.kind = .disable → (t.spkCh n).drive = false ∧ (t.spkCh n).seq = none ∧ (t.spkCh n).fault = facZero)
      ∧ (∀ m, m < 2 → m ≠ n → t.spkCh m = s.spkCh m) ∧ { t with spk := s.spk } = s)
  ∧ (∀ (s : State) (n : Nat) (q : AoutSeq), n < 2 → (s.spkCh n).seq = some q → q.kind = .enable → q.switched = true → q.up = false →
      s.reached q.t (32 + stageTk s.clk.rate) = true → ∃ t, exec (.aoutStageSettled (12 + n)) s = .next t
      ∧ (t.spkCh n).settled = true
      ∧ (t.spkCh n).fault = (if s.bstReached then facGo (s.spkCh n).fault 1 32 else (s.spkCh n).fault)
      ∧ (∀ m, m < 2 → m ≠ n → t.spkCh m = s.spkCh m) ∧ { t with spk := s.spk } = s)
  ∧ (∀ (s : State) (n : Nat) (q : AoutSeq), n < 2 → s.boostOn = true → (s.spkCh n).seq = some q → q.kind = .enable → q.up = false →
      (s.spkCh n).settled = true → ∃ t, exec (.boostReady n) s = .next t
      ∧ (t.spkCh n).seq = some { q with up := true } ∧ (t.spkCh n).fault = facGo (s.spkCh n).fault 1 32
      ∧ s.spk.target ≤ (t.spk.bst : Rat)
      ∧ (∀ m, m < 2 → m ≠ n → t.spkCh m = s.spkCh m) ∧ { t with spk := s.spk } = s)

/-- A charge-pump fault sends the headphones' fault factors to zero over 8 tk, stops the pump, sets CP_FAULT and logs the
voltage, while the pump runs (R111). A short of a driving channel sends its factor to zero over 8 tk, sets LINE_OCP or
HP_OCP for it and leaves every other channel (R112). A lost AVDD stops every channel whose stage is on at once and takes VCM
down; a lost VIO1 stops such headphones and no line output; each flags a stop of a driving channel, and a channel that was
not out of drive waits for its supply. Their return starts the VCM ramp, and where the ramp ends or VIO1 returns the waiting
channels find their supply (R114). -/
def Obligations.OutputFaultsAndSupplies : Prop :=
  (∀ (s : State) (mv : Int) (dt : DT), s.cpOn = true → -1500 < mv → ∃ t, exec (.cpFault mv dt) s = .next t
      ∧ t.aout.cpStop = true ∧ t.fld Fl.AOUT_FAULT.CP_FAULT = 1
      ∧ (∀ n ∈ hpChans, t.aoutCh n = { s.aoutCh n with fault := facGo (s.aoutCh n).fault 0 8, out := true, seq := none })
      ∧ (∀ n, n ∉ hpChans → t.aoutCh n = s.aoutCh n)
      ∧ t.blz = (s.logAt Src.AOUT 0x3106 4 dt (wI mv) 0 0).blz ∧ RegsBut [Reg.AOUT_FAULT] s t
      ∧ { t with aout := s.aout, blz := s.blz, regs := s.regs } = s.advance dt)
  ∧ (∀ (s : State) (n : Nat) (dt : DT), n < 12 → (s.aoutCh n).out = false → s.drives n = true →
      ∃ t, exec (.outputShort n dt) s = .next t
      ∧ t.bit Reg.AOUT_FAULT (if n < 8 then n else 16 + (n - 8)) = true
      ∧ t.aoutCh n = { s.aoutCh n with fault := facGo (s.aoutCh n).fault 0 8, out := true, seq := none }
      ∧ (∀ m, m ≠ n → t.aoutCh m = s.aoutCh m) ∧ { t.aout with ch := s.aout.ch } = s.aout
      ∧ t.blz = (if n < 8 then s.logAt Src.AOUT 0x3107 3 dt (wN n) 0 0 else s.logAt Src.AOUT 0x3105 3 dt (wN (n - 8)) 0 0).blz
      ∧ RegsBut [Reg.AOUT_FAULT] s t ∧ { t with aout := s.aout, blz := s.blz, regs := s.regs } = s.advance dt)
  ∧ (∀ (s : State) (dt : DT), ∃ t, exec (.avddLoss dt) s = .next t
      ∧ t.sup = { s.sup with avdd := false } ∧ t.aout.vcm = .off
      ∧ (∀ n, n < 12 → (s.aoutCh n).drive = true → t.aoutCh n = { s.aoutCh n with fault := facZero, drive := false, seq := none, wait := !(s.aoutCh n).out })
      ∧ (∀ n, (s.aoutCh n).drive = false → t.aoutCh n = s.aoutCh n)
      ∧ ((∃ n, n < 12 ∧ s.drives n = true) → t.fld Fl.AOUT_FAULT.AVDD_LOSS = 1)
      ∧ ((∀ n, n < 12 → s.drives n = false) → t.fld Fl.AOUT_FAULT.AVDD_LOSS = s.fld Fl.AOUT_FAULT.AVDD_LOSS)
      ∧ RegsBut [Reg.AOUT_FAULT] s t
      ∧ { t with aout := s.aout, sup := s.sup, blz := s.blz, regs := s.regs } = s.advance dt)
  ∧ (∀ (s : State) (dt : DT), ∃ t, exec (.vio1Loss dt) s = .next t
      ∧ t.sup = { s.sup with vio1 := false } ∧ t.aout.vcm = s.aout.vcm
      ∧ (∀ n ∈ hpChans, (s.aoutCh n).drive = true → t.aoutCh n = { s.aoutCh n with fault := facZero, drive := false, seq := none, wait := !(s.aoutCh n).out })
      ∧ (∀ n, n ∉ hpChans ∨ (s.aoutCh n).drive = false → t.aoutCh n = s.aoutCh n)
      ∧ (t.fld Fl.AOUT_FAULT.VIO1_LOSS = if ∃ n ∈ hpChans, s.drives n = true then 1 else s.fld Fl.AOUT_FAULT.VIO1_LOSS)
      ∧ RegsBut [Reg.AOUT_FAULT] s t
      ∧ { t with aout := s.aout, sup := s.sup, blz := s.blz, regs := s.regs } = s.advance dt)
  ∧ (∀ (s : State) (dt : DT), s.sup.avdd = false → ∃ t, exec (.avddValid dt) s = .next t
      ∧ t.sup = { s.sup with avdd := true } ∧ t.aout = { s.aout with vcm := .ramping } ∧ { t with aout := s.aout, sup := s.sup } = s.advance dt)
  ∧ (∀ (s : State) (dt : DT), s.aout.vcm = .ramping → ∃ t, exec (.vcmRampEnd dt) s = .next t
      ∧ t.aout = { s.aout with vcm := .ok } ∧ (∀ n, n < 8 → t.supplyOk n = true) ∧ { t with aout := s.aout } = s.advance dt)
  ∧ (∀ (s : State) (dt : DT), s.sup.vio1 = false → ∃ t, exec (.vio1Valid dt) s = .next t
      ∧ t.sup = { s.sup with vio1 := true } ∧ (∀ n, 8 ≤ n → t.supplyOk n = s.sup.avdd) ∧ { t with sup := s.sup } = s.advance dt)

/-- HP_PLUG_DETECT starts the debounce at its DT. HP_IDENTIFY 30 ms later takes the poles code of Table AO-8 and, where jack
1's line is linked to AIN7, holds that input at zero (else it lets it go). HP_MEASURE at 38 ms takes both impedances in 0.1
ohm, saturated. HP_PRESENT at 50 ms writes the class, poles and impedances of the jack's registers. An insertion that
reached its presence asleep starts 18 ms before presence after the wake (R122). HP_REMOVE ends an insertion under way, and
asks a present jack for the ramp out; a plug found while a removal ramps out is kept for its end. A press takes the button
whose threshold the current reaches, sets its PRESS bit and CUR; a release clears CUR (R125). -/
def Obligations.HeadphoneJackEvents : Prop :=
  (∀ (s : State) (j : Nat) (dt : DT), j < 2 → (s.hpJack j).phase ≠ .present → (s.hpJack j).phase ≠ .served →
    ∃ t, exec (.hpPlugDetect j dt) s = .next t ∧ t.hpJack j = { s.hpJack j with phase := .debounce, t0 := dt }
      ∧ t.hpJack (1 - j) = s.hpJack (1 - j) ∧ t.aout.ch = s.aout.ch ∧ { t with aout := s.aout } = s.advance dt)
  ∧ (∀ (s : State) (j : Nat) (dt : DT), j < 2 → (s.hpJack j).phase = .present ∨ (s.hpJack j).phase = .served →
    (s.hpJack j).remReq = true ∨ (s.hpJack j).rem.isSome = true →
    ∃ t, exec (.hpPlugDetect j dt) s = .next t ∧ t.hpJack j = { s.hpJack j with again := some dt }
      ∧ t.hpJack (1 - j) = s.hpJack (1 - j) ∧ t.aout.ch = s.aout.ch ∧ { t with aout := s.aout } = s.advance dt)
  ∧ (∀ (s : State) (j ohms slv r2 : Nat) (dt : DT), j < 2 → (s.hpJack j).phase = .debounce → (s.hpJack j).t0.toNat + 30000000 ≤ dt.toNat →
    ∃ t, exec (.hpIdentify j ohms slv r2 dt) s = .next t
      ∧ t.hpJack j = { s.hpJack j with phase := .identified, poles := (polesOf (bitN (s.fld Fl.AOUT_JACK_CFG.HSID) j) ohms slv r2) }
      ∧ (s.linkHeld j = true → (t.ainCh 7).fault = facZero ∧ t.aout.hold7 = true) ∧ (s.linkHeld j = false → j = 1 → t.aout.hold7 = false)
      ∧ (s.linkHeld j = false → j = 0 ∨ s.aout.hold7 = false → t.ain = s.ain)
      ∧ (∀ m, m ≠ 7 → t.ainCh m = s.ainCh m)
      ∧ t.hpJack (1 - j) = s.hpJack (1 - j) ∧ t.aout.ch = s.aout.ch ∧ { t with aout := s.aout, ain := s.ain } = s.advance dt)
  ∧ (∀ (s : State) (j zl zr : Nat) (dt : DT), j < 2 → (s.hpJack j).phase = .identified → (s.hpJack j).t0.toNat + 38000000 ≤ dt.toNat →
    ∃ t, exec (.hpMeasure j zl zr dt) s = .next t
      ∧ t.hpJack j = { s.hpJack j with phase := .measured, zl := min zl 0xFFFF, zr := min zr 0xFFFF }
      ∧ t.hpJack (1 - j) = s.hpJack (1 - j) ∧ t.aout.ch = s.aout.ch ∧ { t with aout := s.aout } = s.advance dt)
  ∧ (∀ (s : State) (j : Nat) (dt : DT), j < 2 → (s.hpJack j).phase = .measured → (s.hpJack j).t0.toNat + 50000000 ≤ dt.toNat →
    s.asleep = false → s.pwr.state ≠ .waking → ∃ t, exec (.hpPresent j dt) s = .next t
      ∧ (t.hpJack j).phase = .present
      ∧ t.fld (Fl.AOUT_JACK_STAT.CLASS j) = hpClass (s.hpJack j).zl (s.hpJack j).zr
      ∧ t.fld (Fl.AOUT_JACK_STAT.POLES j) = (s.hpJack j).poles % 8
      ∧ t.fld (Fl.AOUT_JACK_Z.Z_L j) = (s.hpJack j).zl % 65536 ∧ t.fld (Fl.AOUT_JACK_Z.Z_R j) = (s.hpJack j).zr % 65536
      ∧ t.hpJack (1 - j) = s.hpJack (1 - j) ∧ t.aout.ch = s.aout.ch ∧ t.ain = s.ain)
  ∧ (∀ (s : State) (j : Nat) (dt : DT), j < 2 → (s.hpJack j).phase ∈ [.debounce, .identified, .measured] → (s.hpJack j).t0.toNat + 50000000 ≤ dt.toNat →
    s.asleep = true ∨ s.pwr.state = .waking → ∃ t, exec (.hpPresent j dt) s = .next t
      ∧ t.hpJack j = { s.hpJack j with phase := .afterWake } ∧ t.hpJack (1 - j) = s.hpJack (1 - j) ∧ t.aout.ch = s.aout.ch ∧ t.ain = s.ain)
  ∧ (∀ (s : State) (j : Nat) (dt : DT), j < 2 → (s.hpJack j).phase = .afterWake → s.coreDown = false →
    ∃ t, exec (.hpInsertAfterWake j dt) s = .next t
      ∧ t.hpJack j = { s.hpJack j with phase := .debounce, t0 := dt - 32000000 }
      ∧ t.hpJack (1 - j) = s.hpJack (1 - j) ∧ t.aout.ch = s.aout.ch ∧ { t with aout := s.aout } = s.advance dt)
  ∧ (∀ (s : State) (j : Nat) (dt : DT), j < 2 → ∃ t, exec (.hpRemove j dt) s = .next t
      ∧ ((s.hpJack j).phase = .present ∨ (s.hpJack j).phase = .served → t.hpJack j = if (s.hpJack j).remReq || (s.hpJack j).rem.isSome then { s.hpJack j with again := none } else { s.hpJack j with remReq := true })
      ∧ ((s.hpJack j).phase ≠ .present → (s.hpJack j).phase ≠ .served → (t.hpJack j).phase = .absent)
      ∧ (∀ m, m ≠ 7 → t.ainCh m = s.ainCh m) ∧ (j = 0 ∨ s.aout.hold7 = false → t.ain = s.ain)
      ∧ t.hpJack (1 - j) = s.hpJack (1 - j) ∧ t.aout.ch = s.aout.ch ∧ { t with aout := s.aout, ain := s.ain } = s.advance dt)
  ∧ (∀ (s : State) (j ua : Nat) (dt : DT), j < 2 → s.btnRuns j = true → buttonOf s ua ≠ 0 → (s.hpJack j).held = 0 →
    ∃ t, exec (.hpBtnPress j ua dt) s = .next t
      ∧ t.hpJack j = { s.hpJack j with held := buttonOf s ua }
      ∧ t.fld (if j = 0 then Fl.AOUT_BTN.CUR0 else Fl.AOUT_BTN.CUR1) = buttonOf s ua
      ∧ bitN (t.fld (if j = 0 then Fl.AOUT_BTN.PRESS0 else Fl.AOUT_BTN.PRESS1)) (buttonOf s ua - 1) = true
      ∧ t.blz = (s.logAt Src.AOUT 0x3103 1 dt (wN j) (wN (buttonOf s ua)) 1).blz
      ∧ t.hpJack (1 - j) = s.hpJack (1 - j) ∧ t.aout.ch = s.aout.ch ∧ RegsBut [Reg.AOUT_BTN] s t
      ∧ { t with aout := s.aout, blz := s.blz, regs := s.regs } = s.advance dt)
  ∧ (∀ (s : State) (j : Nat) (dt : DT), j < 2 → s.btnRuns j = true → (s.hpJack j).held ≠ 0 → ∃ t, exec (.hpBtnRelease j dt) s = .next t
      ∧ t.hpJack j = { s.hpJack j with held := 0 }
      ∧ t.fld (if j = 0 then Fl.AOUT_BTN.CUR0 else Fl.AOUT_BTN.CUR1) = 0
      ∧ t.blz = (s.logAt Src.AOUT 0x3103 1 dt (wN j) (wN (s.hpJack j).held) 0).blz
      ∧ t.hpJack (1 - j) = s.hpJack (1 - j) ∧ t.aout.ch = s.aout.ch ∧ RegsBut [Reg.AOUT_BTN] s t
      ∧ { t with aout := s.aout, blz := s.blz, regs := s.regs } = s.advance dt)

/-- SPK_SET takes the selected fields; EN on with a free channel starts the enable sequence, EN off the disable sequence;
REARM clears LATCH, GIVEUP and CAP_TRIP, resets the count and starts one attempt under the clamp (R160). SPK_MEAS op 0 ends
the pilot over 64 tk; ops 1 and 2 bring the named pilot into force and arm a wait, op 3 arms a wait (R161, R162). SPK_WATCH
arms a wait and does nothing else (R163). The other channel keeps its state, and no block but the loudspeakers, the host
interface and Blaze changes. -/
def Obligations.SpkCommandsComplete : Prop :=
  (∀ (s : State) (h : Hdr) (p : SinkSetP) (n : Nat) (old new : Word), Ready s h → spkSetValid s p = true → spkSetRefusal s p = .ok →
    n = spkChan p → old = s.rd (Reg.SPK_CFG n) → new = mergeSpk p.mask old p.image →
    ∃ t, exec (.spkSet h p) s = .next t
      ∧ t.rd (Reg.SPK_CFG n) = new
      ∧ (bitN p.mask.toNat 7 = false → cfgEn old = false → cfgEn new = true → s.spkFree n = true →
          (t.spkCh n).seq = some ⟨.enable, s.time.ts, new, false, false⟩ ∧ (t.spkCh n).fault = facZero)
      ∧ (bitN p.mask.toNat 7 = false → cfgEn old = true → cfgEn new = false →
          (t.spkCh n).seq = some ⟨.disable, s.time.ts, new, false, false⟩ ∧ (t.spkCh n).fault = facGo (s.spkCh n).fault 0 32)
      ∧ (bitN p.mask.toNat 7 = true → (t.spkCh n).latch = false ∧ (t.spkCh n).giveup = false ∧ (t.spkCh n).capTrip = false
          ∧ (t.spkCh n).tries = 1 ∧ (t.spkCh n).retry = .clamp ∧ t.spk.clamp = true ∧ t.rd (Reg.SPK_RETRY n) = 1)
      ∧ (∀ m, m < 2 → m ≠ n → t.spkCh m = s.spkCh m)
      ∧ RegsBut (Reg.SPK_CFG n :: Reg.SPK_FAULT :: Reg.SPK_RETRY n :: wbRegs) s t
      ∧ { t with spk := s.spk, host := s.host, blz := s.blz, regs := s.regs } = s)
  ∧ (∀ (s : State) (h : Hdr) (p : SpkMeasP), Ready s h → spkMeasValid p = true → spkMeasRefusal s p = .ok →
    ∃ t, exec (.spkMeas h p) s = .next t
      ∧ (p.op = 0 → (t.spkCh p.chan).pilot.amp = facGo (s.spkCh p.chan).pilot.amp 0 64 ∧ (t.spkCh p.chan).pilot.next = 0)
      ∧ (p.op = 1 ∨ p.op = 2 → pilotKind (t.spkCh p.chan).pilot = p.op
          ∧ (⟨h, 0x0402, .spkMeas p.chan p.op 0, p.timeout, s.time.ts⟩ : Wait) ∈ t.host.waits)
      ∧ (p.op = 3 → t.spk = s.spk ∧ t.host.waits = s.host.waits ++ [⟨h, 0x0402, .spkMeas p.chan 3 p.calTemp, p.timeout, s.time.ts⟩])
      ∧ (∀ m, m < 2 → m ≠ p.chan → t.spkCh m = s.spkCh m)
      ∧ RegsBut wbRegs s t ∧ { t with spk := s.spk, host := s.host, blz := s.blz, regs := s.regs } = s)
  ∧ (∀ (s : State) (h : Hdr) (p : SpkWatchP), Ready s h → spkWatchValid p = true →
    ∃ t, exec (.spkWatch h p) s = .next t
      ∧ t.host.waits = s.host.waits ++ [⟨h, 0x0403, .spkWatch p.chan p.mask, p.timeout, s.time.ts⟩]
      ∧ { t.host with waits := s.host.waits } = s.host ∧ { t with host := s.host } = s)

/-- A limit event counts in SPK_LIMCNT and breaks the pilot's window; the eighth within 64 us latches the channel: no drive,
fault factor zero without a ramp, SPK_FAULT set, the boost clamped to 8 V. A broadband short, a failed probe and a cap trip
latch likewise. SPK_CLAMP_RELEASE notes that BST_OUT is below 8 V. An attempt, with supply and temperature in range, counts
in SPK_RETRY and waits under the clamp. A probe that finds the load healthy restores the channel over 32 tk and resets the
count. Either comparator latches both channels. Nothing outside the loudspeakers and their registers changes. -/
def Obligations.SpkLatchAndRetry : Prop :=
  (∀ (s : State) (n : Nat) (dt : DT), n < 2 → (s.spkCh n).drive = true → ∃ t, exec (.spkLimitEvent n dt) s = .next t
      ∧ t.rd (Reg.SPK_LIMCNT n) = satInc (s.rd (Reg.SPK_LIMCNT n)) 1
      ∧ (((s.spkCh n).limits.filter (fun d => decide (dt.toNat ≤ d.toNat + 64000))).length < 7 →
          (t.spkCh n).latch = (s.spkCh n).latch ∧ (t.spkCh n).pilot.win = none
          ∧ (t.spkCh n).limits = dt :: (s.spkCh n).limits.filter (fun d => decide (dt.toNat ≤ d.toNat + 64000)))
      ∧ (7 ≤ ((s.spkCh n).limits.filter (fun d => decide (dt.toNat ≤ d.toNat + 64000))).length →
          (t.spkCh n).latch = true ∧ (t.spkCh n).drive = false ∧ (t.spkCh n).fault = facZero ∧ t.bit Reg.SPK_FAULT n = true
          ∧ t.spk.clamp = true ∧ t.spk.target = 8000)
      ∧ (∀ m, m < 2 → m ≠ n → t.spkCh m = s.spkCh m) ∧ RegsBut [Reg.SPK_LIMCNT n, Reg.SPK_FAULT] s t
      ∧ { t with spk := s.spk, regs := s.regs } = s.advance dt)
  ∧ (∀ (s : State) (n mohm : Nat) (dt : DT), n < 2 → (s.spkCh n).drive = true → mohm < 100 * s.fld Fl.SPK_PROT.SHORT_Z →
      ∃ t, exec (.spkBroadbandShort n mohm dt) s = .next t
      ∧ (t.spkCh n).latch = true ∧ (t.spkCh n).drive = false ∧ (t.spkCh n).fault = facZero ∧ t.bit Reg.SPK_FAULT (14 + n) = true
      ∧ t.spk.clamp = true ∧ (∀ m, m < 2 → m ≠ n → t.spkCh m = s.spkCh m) ∧ RegsBut [Reg.SPK_FAULT] s t
      ∧ { t with spk := s.spk, regs := s.regs } = s.advance dt)
  ∧ (∀ (s : State) (mv : Nat), s.spk.clamp = true → mv < 8000 → ∃ t, exec (.spkClampRelease mv) s = .next t
      ∧ t.spk = { s.spk with low := true, bst := mv } ∧ { t with spk := s.spk } = s)
  ∧ (∀ (s : State) (n : Nat) (dt since : DT), n < 2 → s.stageOk = true → (s.spkCh n).retry = .sched since → (s.spkCh n).giveup = false →
      (s.spkCh n).capTrip = false → s.triesLeft (s.spkCh n) = true → cfgEn (s.rd (Reg.SPK_CFG n)) = true →
      since.toNat + attemptMs ((s.spkCh n).tries + 1) * 1000000 ≤ dt.toNat → ∃ t, exec (.spkRetryAttempt n dt) s = .next t
      ∧ (t.spkCh n).tries = (s.spkCh n).tries + 1 ∧ (t.spkCh n).retry = .clamp ∧ t.rd (Reg.SPK_RETRY n) = wN ((s.spkCh n).tries + 1)
      ∧ t.spk.clamp = true ∧ (∀ m, m < 2 → m ≠ n → t.spkCh m = s.spkCh m) ∧ RegsBut [Reg.SPK_RETRY n] s t
      ∧ { t with spk := s.spk, regs := s.regs } = s.advance dt)
  ∧ (∀ (s : State) (n mohm : Nat) (dt t0 : DT), n < 2 → (s.spkCh n).retry = .probe t0 → t0.toNat + 1000000 ≤ dt.toNat →
      ∃ t, exec (.spkProbeEnd n mohm dt) s = .next t
      ∧ (100 * s.fld Fl.SPK_PROT.SHORT_Z ≤ mohm → (t.spkCh n).latch = false ∧ (t.spkCh n).retry = .none ∧ (t.spkCh n).tries = 0
          ∧ (t.spkCh n).fault = facGo (s.spkCh n).fault 1 32 ∧ t.rd (Reg.SPK_RETRY n) = 0)
      ∧ (mohm < 100 * s.fld Fl.SPK_PROT.SHORT_Z → (t.spkCh n).latch = true ∧ (t.spkCh n).drive = false ∧ (t.spkCh n).fault = facZero
          ∧ t.bit Reg.SPK_FAULT (14 + n) = true)
      ∧ (∀ m, m < 2 → m ≠ n → t.spkCh m = s.spkCh m) ∧ RegsBut [Reg.SPK_RETRY n, Reg.SPK_FAULT] s t
      ∧ { t with spk := s.spk, regs := s.regs } = s.advance dt)
  ∧ (∀ (s : State) (n mw l : Nat) (dt : DT), n < 2 → s.capLimit (if n = 0 then s.fld Fl.SPK_CAP.MODE0 else s.fld Fl.SPK_CAP.MODE1) = some l →
      5 * l < 4 * mw → (s.spkCh n).capTrip = false → ∃ t, exec (.spkCapTrip n mw dt) s = .next t
      ∧ (t.spkCh n).latch = true ∧ (t.spkCh n).capTrip = true ∧ (t.spkCh n).retry = .none ∧ (t.spkCh n).drive = false
      ∧ t.bit Reg.SPK_FAULT (16 + n) = true ∧ (∀ m, m < 2 → m ≠ n → t.spkCh m = s.spkCh m) ∧ RegsBut [Reg.SPK_FAULT] s t
      ∧ { t with spk := s.spk, regs := s.regs } = s.advance dt)
  ∧ (∀ (s : State) (cmp mv : Nat) (dt : DT), (cmp = 1 ∧ 27500 ≤ mv) ∨ (cmp = 2 ∧ 28500 ≤ mv) → ∃ t, exec (.spkBstOvp cmp mv dt) s = .next t
      ∧ t.spk.ovp = Nat.lor s.spk.ovp cmp ∧ t.fld Fl.SPK_FAULT.BST_OVP = 1
      ∧ (∀ n, n < 2 → (t.spkCh n).latch = true ∧ (t.spkCh n).drive = false ∧ (t.spkCh n).fault = facZero)
      ∧ RegsBut [Reg.SPK_FAULT] s t ∧ { t with spk := s.spk, regs := s.regs } = s.advance dt)

/-- A valid window reports Re(Z) in SPK_COIL_RES or the inductance in SPK_COIL_IND, an invalid one only starts the next
window (R144); a resistance below SHORT_Z latches the channel (Table SP-4). SPK_PMEAN_UPDATE reports each channel's mean
power and the sum; a cap factor never rises while its measure is over 90 % of its limit (R157, R158). PVDD out of range
stops both bridges, sets its flag and is logged, and its return asks for the enable sequences (R154). The junction above
140, above 150 and below 130 degrees moves the thermal level to 1, 2 and 0 with the factor's ramp; above 150 a sequence or
an attempt under way ends, and the return from there asks for the enable sequences. -/
def Obligations.SpkPilotAndPower : Prop :=
  (∀ (s : State) (n mohm nh : Nat) (valid : Bool) (dt t0 : DT), n < 2 → (s.spkCh n).pilot.win = some t0 →
      t0.toNat + windowNs (s.spkCh n).pilot ≤ dt.toNat → ∃ t, exec (.spkPilotWindow n valid mohm nh dt) s = .next t
      ∧ (valid = false → (t.spkCh n).pilot = { (s.spkCh n).pilot with win := some dt, setup := s.rd Reg.SPK_PILOT }
          ∧ t.regs = s.regs ∧ t.host = s.host)
      ∧ (valid = true → (s.spkCh n).pilot.kind = 2 → t.rd (Reg.SPK_COIL_IND n) = wN nh ∧ RegsBut [Reg.SPK_COIL_IND n] s t)
      ∧ (valid = true → (s.spkCh n).pilot.kind ≠ 2 → t.rd (Reg.SPK_COIL_RES n) = wN mohm
          ∧ RegsBut [Reg.SPK_COIL_RES n, Reg.SPK_COIL_TEMP n, Reg.SPK_CALDAT n, Reg.SPK_FAULT] s t)
      ∧ (valid = true → (s.spkCh n).pilot.kind ≠ 2 → mohm < 100 * s.fld Fl.SPK_PROT.SHORT_Z →
          (t.spkCh n).latch = true ∧ (t.spkCh n).drive = false ∧ (t.spkCh n).cls = 2 ∧ t.bit Reg.SPK_FAULT (14 + n) = true)
      ∧ (∀ m, m < 2 → m ≠ n → t.spkCh m = s.spkCh m) ∧ { t with spk := s.spk, host := s.host, regs := s.regs } = s.advance dt)
  ∧ (∀ (s : State) (mw0 mw1 : Nat) (dt : DT), ∃ t, exec (.spkPmeanUpdate mw0 mw1 dt) s = .next t
      ∧ t.rd (Reg.SPK_PMEAN 0) = wN mw0 ∧ t.rd (Reg.SPK_PMEAN 1) = wN mw1 ∧ t.rd (Reg.SPK_PMEAN 2) = wN (mw0 + mw1)
      ∧ (over90 mw0 (s.capLimit (s.fld Fl.SPK_CAP.MODE0)) = true → t.spk.ch0.cap ≤ s.spk.ch0.cap)
      ∧ (over90 mw1 (s.capLimit (s.fld Fl.SPK_CAP.MODE1)) = true → t.spk.ch1.cap ≤ s.spk.ch1.cap)
      ∧ (over90 (mw0 + mw1) (s.capLimit (s.fld Fl.SPK_CAP.MODE_TOT)) = true → t.spk.ch0.cap ≤ s.spk.ch0.cap ∧ t.spk.ch1.cap ≤ s.spk.ch1.cap)
      ∧ RegsBut [Reg.SPK_PMEAN 0, Reg.SPK_PMEAN 1, Reg.SPK_PMEAN 2] s t
      ∧ { t with spk := s.spk, blz := s.blz, regs := s.regs } = s.advance dt)
  ∧ (∀ (s : State) (isOver : Bool) (mv : Nat) (dt : DT), (if isOver then 22000 < mv else mv < 5500) →
      ∃ t, exec (.pvddFault isOver mv dt) s = .next t
      ∧ t.spk.pvddBad = true ∧ t.spk.pvdd = mv ∧ t.spk.enReq = false ∧ t.sup = { s.sup with pvdd := false }
      ∧ (∀ n, n < 2 → t.spkCh n = spkStop dt (s.spkCh n))
      ∧ t.fld (if isOver then Fl.SPK_FAULT.PVDD_OV else Fl.SPK_FAULT.PVDD_UV) = 1
      ∧ t.blz = (s.logAt Src.SPK 0x400B 4 dt (wN (wB isOver)) (wN mv) 0).blz ∧ RegsBut [Reg.SPK_FAULT] s t
      ∧ { t with spk := s.spk, sup := s.sup, blz := s.blz, regs := s.regs } = s.advance dt)
  ∧ (∀ (s : State) (dt : DT), s.spk.pvddBad = true ∨ s.sup.pvdd = false → ∃ t, exec (.pvddReturn dt) s = .next t
      ∧ t.spk = { s.spk with pvddBad := false, enReq := true } ∧ t.sup = { s.sup with pvdd := true }
      ∧ { t with spk := s.spk, sup := s.sup } = s.advance dt)
  ∧ (∀ (s : State) (tenths : Int) (dt : DT), ∃ t, exec (.dieThermal tenths dt) s = .next t
      ∧ t.rd Reg.TOP_TEMP = wN (bitsOf (wI tenths) 0 16)
      ∧ (1500 < tenths → s.spk.dieLvl < 2 → t.spk.dieLvl = 2 ∧ t.fld Fl.SPK_FAULT.THERMAL = 1
          ∧ t.spk.ch0 = spkHalt dt { s.spk.ch0 with die := facGo s.spk.ch0.die 0 8 } ∧ t.spk.ch1 = spkHalt dt { s.spk.ch1 with die := facGo s.spk.ch1.die 0 8 })
      ∧ (1400 < tenths → tenths ≤ 1500 → s.spk.dieLvl = 0 → t.spk.dieLvl = 1
          ∧ t.spk.ch0.die = facGo s.spk.ch0.die (1 / 2) 512 ∧ t.spk.ch1.die = facGo s.spk.ch1.die (1 / 2) 512)
      ∧ (tenths < 1300 → s.spk.dieLvl = 1 → t.spk.dieLvl = 0
          ∧ t.spk.ch0.die = facGo s.spk.ch0.die 1 32 ∧ t.spk.ch1.die = facGo s.spk.ch1.die 1 32)
      ∧ (tenths < 1300 → s.spk.dieLvl = 2 → t.spk.dieLvl = 0 ∧ t.spk.enReq = true
          ∧ t.spk.ch0 = { s.spk.ch0 with die := facOne, fault := facZero, drive := false }
          ∧ t.spk.ch1 = { s.spk.ch1 with die := facOne, fault := facZero, drive := false })
      ∧ (1300 ≤ tenths → tenths ≤ 1400 → t.spk = s.spk)
      ∧ RegsBut [Reg.TOP_TEMP, Reg.SPK_FAULT] s t ∧ { t with spk := s.spk, blz := s.blz, regs := s.regs } = s.advance dt)

/-- For every start value, target and length: the value in use k ticks after the boundary at which the ramp starts is v when
N is at most k+1, and otherwise c0 + (v - c0) x (k+1)/N rounded to the nearest, ties away from zero; with N = 0 it is v from
the first tick. The same holds with steps in place of ticks, since one operation advances both. -/
def Obligations.RampValues : Prop :=
  ∀ (c0 v : Int) (n k : Nat) (slot : Bool), (Nat.repeat grTick k (grGo c0 v n slot)).cur =
    if n ≤ k + 1 then v
    else roundAway ((c0 : Rat) + ((v - c0 : Int) : Rat) * ((k + 1 : Nat) : Rat) / (n : Rat))

/-- Formalises 06_thicket_and_trail.md R171. For every accumulator value (Q13.51) and every in-use bus gain (Q3.20): the
value written as source bus:b is the product rounded to Q1.31, to the nearest with ties away from zero, and saturated to
0x80000001 to 0x7FFFFFFF; in a tick in which saturation acts THK_CLIPCNTb advances by one and stops at 0xFFFFFFFF, and
otherwise it keeps its value. -/
def Obligations.BusOutput : Prop :=
  ∀ (s : State) (b tag : Nat) (acc : Int), b < 288 →
    let y := roundAway (((acc * s.busUse b : Int) : Rat) / (2 : Rat) ^ 40)
    let z := clampI (-0x7FFFFFFF) 0x7FFFFFFF y
    smGet? (s.busRun b acc tag).inter2 (addrOf 0x07 b) = some ⟨z, tag⟩
      ∧ (y ≠ z → ((s.busRun b acc tag).rd (Reg.THK_CLIPCNT b)).toNat = min ((s.rd (Reg.THK_CLIPCNT b)).toNat + 1) 0xFFFFFFFF)
      ∧ (y = z → (s.busRun b acc tag).rd (Reg.THK_CLIPCNT b) = s.rd (Reg.THK_CLIPCNT b))

/-- An admitted ROUTE_SET on a lane sets the lane's source; with a ramp and a new source it takes a dual-feed slot that
holds the old source and the ramp's length (R184, R185). On another sink its selector names the new source; on a sink that
no Trail channel can own and that is no meter the old source fades out over the ramp (R183). Every other lane's source,
every other selector, the gain banks, every other register and every other block but the host interface and Blaze stay. -/
def Obligations.RouteSetCompletes : Prop :=
  ∀ (s : State) (h : Hdr) (p : RouteSetP), Ready s h → routeSetValid p = true → routeSetRefusal s p = .ok →
    admitCheck s (routeSetEffect p s).st = none →
    ∃ t, exec (.routeSet h p) s = .next t
      ∧ (clsOf p.sink = 0x28 → t.laneSrc (idxOf p.sink) = p.source ∧ t.sel = s.sel
          ∧ RegsBut (Reg.THK_LANE (idxOf p.sink) :: wbRegs) s t
          ∧ (s.laneSrc (idxOf p.sink) ≠ p.source → rampTk p.ramp ≠ 0 →
              smGet? t.thk.dual (idxOf p.sink) = some ⟨s.laneSrc (idxOf p.sink), rampTk p.ramp, 1⟩)
          ∧ (∀ l, l ≠ idxOf p.sink → smGet? t.thk.dual l = smGet? s.thk.dual l))
      ∧ (clsOf p.sink ≠ 0x28 → (t.selOf p.sink).src = p.source ∧ (∀ a, a ≠ p.sink → t.selOf a = s.selOf a)
          ∧ t.thk.dual = s.thk.dual ∧ RegsBut wbRegs s t)
      ∧ (clsOf p.sink ≠ 0x28 → clsOf p.sink ≠ 0x29 → outOf p.sink = none → (s.selOf p.sink).src ≠ p.source →
          t.selOf p.sink = selFade (s.selOf p.sink) p.source (rampTk p.ramp))
      ∧ { t.thk with dual := s.thk.dual, meter := s.thk.meter } = s.thk
      ∧ { t with thk := s.thk, sel := s.sel, host := s.host, blz := s.blz, regs := s.regs } = s

/-- An admitted THK_SWAP makes the whole shadow bank, nodes and bus gains, the active one; mode 0 leaves the old active bank
as the shadow, mode 1 leaves the shadow as it is (R177). Every node whose in-use value differs from its new target starts a
ramp over the class of its new word, and every other node stands at its target; the same for the bus gains. No selector, no
lane, no register but the error registers of a write-back and the log's counters, and no other block but the host interface
and Blaze changes. -/
def Obligations.SwapCompletes : Prop :=
  ∀ (s : State) (h : Hdr) (mode : Nat), Ready s h → mode ≤ 1 → thkSwapRefusal s = .ok → admitCheck s (thkSwapEffect mode s).st = none →
    ∃ t, exec (.thkSwap h mode) s = .next t
      ∧ t.thk.act = s.thk.shd ∧ t.thk.actBus = s.thk.shdBus
      ∧ t.thk.shd = (if mode = 0 then s.thk.act else s.thk.shd) ∧ t.thk.shdBus = (if mode = 0 then s.thk.actBus else s.thk.shdBus)
      ∧ (∀ k, smGet? t.thk.ramps k = if s.nodePrev k = wordTarget (smGet s.thk.shd k 0) then none
          else some (grGo (s.nodePrev k) (wordTarget (smGet s.thk.shd k 0)) (rampTk (wordRamp (smGet s.thk.shd k 0))) false))
      ∧ (∀ b, smGet? t.thk.busRamps b = if s.busPrev b = wordTarget (smGet s.thk.shdBus b busReset) then none
          else some (grGo (s.busPrev b) (wordTarget (smGet s.thk.shdBus b busReset)) (rampTk (wordRamp (smGet s.thk.shdBus b busReset))) false))
      ∧ t.thk.dual = s.thk.dual ∧ t.thk.tones = s.thk.tones ∧ t.thk.meter = s.thk.meter
      ∧ RegsBut wbRegs s t ∧ { t with thk := s.thk, host := s.host, blz := s.blz, regs := s.regs } = s

/-- An admitted THK_FADER writes its word into the active bank and starts a ramp of its own length from the in-use value of
the tick before, for a node or, with lane 0xFFFF, for a bus gain; every other node and bus keeps its word and ramp (R181,
R208). TONE_SET sets the tone's waveform and ramps its level; off ramps to zero (R189, R209). A report that is written puts
the words of its layout into its slot (R187); one that fails on the link stops reporting, clears EN, sets METER_ERR and is
logged (R188). -/
def Obligations.FaderToneMeter : Prop :=
  (∀ (s : State) (h : Hdr) (p : FaderP), Ready s h → thkFaderValid p = true → thkFaderRefusal s p = .ok →
    admitCheck s (thkFaderEffect p s).st = none →
    ∃ t, exec (.thkFader h p) s = .next t
      ∧ (p.lane ≠ 65535 → t.actNode (nodeKey p.lane p.bus) = p.word
          ∧ smGet? t.thk.ramps (nodeKey p.lane p.bus)
              = some (grGo (s.nodePrev (nodeKey p.lane p.bus)) (wordTarget p.word) p.len (decide (0 < p.len)))
          ∧ (∀ k, k ≠ nodeKey p.lane p.bus → t.actNode k = s.actNode k ∧ smGet? t.thk.ramps k = smGet? s.thk.ramps k)
          ∧ t.thk.actBus = s.thk.actBus ∧ t.thk.busRamps = s.thk.busRamps)
      ∧ (p.lane = 65535 → t.actBusW p.bus = p.word
          ∧ smGet? t.thk.busRamps p.bus = some (grGo (s.busPrev p.bus) (wordTarget p.word) p.len false)
          ∧ (∀ b, b ≠ p.bus → t.actBusW b = s.actBusW b ∧ smGet? t.thk.busRamps b = smGet? s.thk.busRamps b)
          ∧ t.thk.act = s.thk.act ∧ t.thk.ramps = s.thk.ramps)
      ∧ t.thk.shd = s.thk.shd ∧ t.thk.shdBus = s.thk.shdBus ∧ RegsBut wbRegs s t
      ∧ { t with thk := s.thk, host := s.host, blz := s.blz, regs := s.regs } = s)
  ∧ (∀ (s : State) (h : Hdr) (p : ToneSetP), Ready s h → toneSetValid s p = true → admitCheck s (toneSetEffect p s).st = none →
    ∃ t, exec (.toneSet h p) s = .next t
      ∧ (p.wave ≠ 0 → (t.toneOf p.tone).wave = p.wave ∧ (t.toneOf p.tone).freq = p.freq
          ∧ (t.toneOf p.tone).level = grGo (s.toneOf p.tone).level.prev p.level.toInt (rampTk p.ramp) false)
      ∧ (p.wave = 0 → (t.toneOf p.tone).off = true ∧ (t.toneOf p.tone).level = grGo (s.toneOf p.tone).level.prev 0 (rampTk p.ramp) false)
      ∧ (∀ i, i ≠ p.tone → t.toneOf i = s.toneOf i) ∧ { t.thk with tones := s.thk.tones } = s.thk
      ∧ RegsBut wbRegs s t ∧ { t with thk := s.thk, host := s.host, blz := s.blz, regs := s.regs } = s)
  ∧ (∀ (s : State) (r : MeterRep) (ok : Bool), s.thk.meter.due = some r → ∃ t, exec (.meterReport ok) s = .next t
      ∧ t.thk.meter.due = none
      ∧ (ok = true → t.thk.meter = { s.thk.meter with due := none, sent := some (s.meterSlot r.seq, meterWords r) } ∧ { t with thk := s.thk } = s)
      ∧ (ok = false → t.thk.meter.on = false ∧ t.fld Fl.THK_METER_CFG.EN = 0 ∧ t.fld Fl.THK_STATUS.METER_ERR = 1
          ∧ t.blz = (s.log Src.THK 0x5006 4 (s.meterBase.extractLsb' 0 32) r.seq 0).blz)
      ∧ { t.thk with meter := s.thk.meter } = s.thk ∧ RegsBut [Reg.THK_METER_CFG, Reg.THK_STATUS] s t
      ∧ { t with thk := s.thk, blz := s.blz, regs := s.regs } = s)

/-- A TRAIL_COMMIT that passes its checks leaves the activation of its mask due at step s of this tick (R199). Every output
that a named shadow set claims and its channel does not own belongs to that channel from this boundary; an output that a
named channel leaves and no named channel claims belongs to it no more (R202). The active and shadow sets, the channels'
signal state and every selector's source stay until the step comes. -/
def Obligations.TrailCommitCompletes : Prop :=
  ∀ (s : State) (h : Hdr) (p : TrailCommitP), Ready s h → trailCommitValid s p = true → trailCommitRefusal s p = .ok →
    admitCheck s (trailCommitEffect p s).st = none →
    ∃ t, exec (.trailCommit h p) s = .next t
      ∧ t.trl.due = s.trl.due ++ [⟨s.time.ts, p.s, p.mask.toNat⟩]
      ∧ (∀ c k, c < 16 → bitN p.mask.toNat c = true → setMux (s.trlShd c) = some k → s.ownedBy c ≠ some k →
          smGet? t.trl.owner k = some c ∧ smGet? t.trl.claim k = some s.time.ts)
      ∧ (∀ c k, c < 16 → bitN p.mask.toNat c = true → s.ownedBy c = some k →
          (∀ d, d < 16 → bitN p.mask.toNat d = true → setMux (s.trlShd d) ≠ some k) → smGet? t.trl.owner k ≠ some c)
      ∧ t.trl.act = s.trl.act ∧ t.trl.shd = s.trl.shd ∧ t.trl.ch = s.trl.ch
      ∧ (∀ a, (t.selOf a).src = (s.selOf a).src) ∧ RegsBut wbRegs s t
      ∧ { t with trl := s.trl, sel := s.sel, host := s.host, blz := s.blz, regs := s.regs } = s

/-- An admitted FX_COMMIT copies all 128 words of the shadow set of each slot in its range into the active set (R220). A
slot that it enables raises its output from its present value over 32 tk, one that it disables lowers it over 32 tk (R221).
The active sets and the signal state of every other slot, every shadow set, every register but a write-back's and every
other block but the host interface and Blaze stay. -/
def Obligations.EffectCommitCompletes : Prop :=
  ∀ (s : State) (h : Hdr) (p : TableCommitP), Ready s h → fxCommitValid p = true → fxCommitRefusal s p = .ok →
    admitCheck s (fxCommitEffect p s).st = none →
    ∃ t, exec (.fxCommit h p) s = .next t
      ∧ (∀ n i, p.first ≤ n → n < p.first + p.count → i < 128 → t.fxAct n i = s.fxShd n i)
      ∧ (∀ n, n < p.first ∨ p.first + p.count ≤ n → (∀ i, i < 128 → t.fxAct n i = s.fxAct n i) ∧ t.fxCh n = s.fxCh n)
      ∧ (∀ n, p.first ≤ n → n < p.first + p.count → fxEn (s.fxShd n) = true → fxEn (s.fxAct n) = false →
          (t.fxCh n).fade = grGo (s.fxCh n).fade.prev 0x100000 32 false)
      ∧ (∀ n, p.first ≤ n → n < p.first + p.count → fxEn (s.fxShd n) = false → fxEn (s.fxAct n) = true →
          (t.fxCh n).fade = grGo (s.fxCh n).fade.prev 0 32 false)
      ∧ t.fx.shd = s.fx.shd ∧ RegsBut wbRegs s t
      ∧ { t with fx := s.fx, host := s.host, blz := s.blz, regs := s.regs } = s

/-- CLIP_COMMIT copies the named shadow entries into the active clip or envelope table and no others (R222, R242).
CLIP_START copies its clip and envelope entry into the voice, a stereo clip into two, at its start frame with its pitch and
gain; each sound that it steals, the other half of a stereo pair included, goes on in a free tail slot with a ramp to zero
over 16 tk and leaves its voice (R224, R225, R231, R232). CLIP_CTRL op 0 to 3 acts on the voice and its mate only, and on an
idle voice does nothing; op 4 arms a wait, which on an idle voice completes at once (R244). CLIP_TAG_FAIL marks the block,
ends the voice with cause 4 and logs CLP_TAG_FAIL (R234). -/
def Obligations.ClipCommandsComplete : Prop :=
  (∀ (s : State) (h : Hdr) (p : TableCommitP), Ready s h → clipCommitValid p = true → clipCommitRefusal s p = .ok →
    admitCheck s (clipCommitEffect p s).st = none →
    ∃ t, exec (.clipCommit h p) s = .next t
      ∧ (∀ e i, i < 16 → t.clipAct e i = if p.table = 0 ∧ p.first ≤ e ∧ e < p.first + p.count then s.clipShd e i else s.clipAct e i)
      ∧ (∀ e i, i < 8 → t.envAct e i = if p.table = 1 ∧ p.first ≤ e ∧ e < p.first + p.count then s.envShd e i else s.envAct e i)
      ∧ { t.clip with act := s.clip.act, eact := s.clip.eact } = s.clip ∧ RegsBut wbRegs s t
      ∧ { t with clip := s.clip, host := s.host, blz := s.blz, regs := s.regs } = s)
  ∧ (∀ (s : State) (h : Hdr) (p : ClipStartP), Ready s h → clipStartValid p = true → clipStartRefusal s p = .ok →
    admitCheck s (clipStartEffect p s).st = none →
    ∃ t, exec (.clipStart h p) s = .next t
      ∧ (∀ v ∈ startVoices (ceStereo (s.clipAct p.entry)) p.voice, ∃ x, t.voice? v = some x
          ∧ x.st = 1 ∧ x.clip = p.entry ∧ x.words = (List.range 16).map (s.clipAct p.entry) ∧ x.env = (List.range 8).map (s.envAct p.env)
          ∧ x.pos = p.start * 2 ^ 32 ∧ x.pitch = p.pitch ∧ x.gain = grAt p.gain.toInt ∧ x.rgt = decide (v ≠ p.voice))
      ∧ (∀ v x, v ∈ s.startSteals (ceStereo (s.clipAct p.entry)) p.voice → s.voice? v = some x →
          (∃ k, k < 32 ∧ smGet? s.clip.tails k = none ∧ smGet? t.clip.tails k = some ⟨v, x, grGo 0x100000 0 16 false⟩)
          ∧ (v ∉ startVoices (ceStereo (s.clipAct p.entry)) p.voice → t.voice? v = none))
      ∧ (∀ v, v ∉ startVoices (ceStereo (s.clipAct p.entry)) p.voice → v ∉ s.startSteals (ceStereo (s.clipAct p.entry)) p.voice →
          t.voice? v = s.voice? v)
      ∧ { t.clip with voices := s.clip.voices, tails := s.clip.tails } = s.clip ∧ RegsBut wbRegs s t
      ∧ { t with clip := s.clip, host := s.host, blz := s.blz, regs := s.regs } = s)
  ∧ (∀ (s : State) (h : Hdr) (p : ClipCtrlP), Ready s h → clipCtrlValid p = true → admitCheck s (clipCtrlEffect h p s).st = none →
    ∃ t, exec (.clipCtrl h p) s = .next t
      ∧ (p.op < 4 → s.voice? p.voice = none → t.clip = s.clip)
      ∧ (p.op < 4 → ∀ v, s.voice? p.voice = some v → v.mate = none → t.voice? p.voice = some (ctrlVoice s.clk.rate p v))
      ∧ (p.op < 4 → ∀ v m u, s.voice? p.voice = some v → v.mate = some m → m ≠ p.voice → s.voice? m = some u →
          t.voice? p.voice = some (ctrlVoice s.clk.rate p v) ∧ t.voice? m = some (ctrlVoice s.clk.rate p u))
      ∧ (p.op = 4 → t.clip = s.clip)
      ∧ (p.op = 4 → ∀ v, s.voice? p.voice = some v →
          t.host.waits = s.host.waits ++ [⟨h, 0x0613, .clipVoice p.voice, p.timeout, s.time.ts⟩])
      ∧ (p.op = 4 → s.voice? p.voice = none →
          t = (s.armWait h 0x0613 (.clipVoice p.voice) p.timeout).voiceWaits p.voice s.time.ts 0)
      ∧ (∀ k, k ≠ p.voice → (∀ v, s.voice? p.voice = some v → v.mate ≠ some k) → t.voice? k = s.voice? k)
      ∧ { t.clip with voices := s.clip.voices } = s.clip ∧ RegsBut wbRegs s t
      ∧ { t with clip := s.clip, host := s.host, blz := s.blz, regs := s.regs } = s)
  ∧ (∀ (s : State) (voice block : Nat) (x : Voice), s.voice? voice = some x → ceEnc x.w = true →
    ∃ t, exec (.clipTagFail voice block) s = .next t
      ∧ (∃ y, t.voice? voice = some y ∧ y.bad.contains block = true ∧ y.st = 3 ∧ y.cause = 4 ∧ y.words = x.words ∧ y.clip = x.clip)
      ∧ (∀ k, k ≠ voice → x.mate ≠ some k → t.voice? k = s.voice? k)
      ∧ t.blz = (s.log Src.CLP 0x6102 4 (wN voice) (wN x.clip) (wN block)).blz ∧ { t.clip with voices := s.clip.voices } = s.clip
      ∧ RegsBut [] s t ∧ { t with clip := s.clip, blz := s.blz, regs := s.regs } = s)

/-- LOOP_SET starts an empty ring at its region and tick, stops it, starts a playback, or ramps a playback out over 16 tk,
on its recorder only, and stores nothing (R235, R238, R245). LOOP_COMMIT puts its take in progress with its ticks, region
and pre-roll flag, and every byte of device DRAM outside the take's region reads as before (R236, R246). LOOP_COPY_DONE,
once every held tick has been moved, marks the copy finished; a take without pre-roll stores nothing then, and one with
pre-roll stores only at its frames from the first to the tick it has reached and at those of the ticks it has gathered or
placed (R237). -/
def Obligations.LoopCommandsComplete : Prop :=
  (∀ (s : State) (h : Hdr) (p : LoopSetP), Ready s h → loopSetValid p = true → loopSetRefusal s p = .ok →
    admitCheck s (loopSetEffect p s).st = none →
    ∃ t, exec (.loopSet h p) s = .next t
      ∧ (p.op = 0 → p.en = true → t.recOf p.rec_ = { s.recOf p.rec_ with en := true, fmt := p.fmt, rlen := p.frames, base := p.base.toNat, k0 := s.time.ts, fill := 0, lastK := s.time.ts, ones := [] })
      ∧ (p.op = 0 → p.en = false → t.recOf p.rec_ = { s.recOf p.rec_ with en := false, fill := 0, ones := [] })
      ∧ (p.op = 1 → t.recOf p.rec_ = { s.recOf p.rec_ with play := some ⟨p.fmt, p.loop, p.frames, p.base.toNat, 0, grAt 0x100000⟩ })
      ∧ (p.op = 2 → ∀ y, (s.recOf p.rec_).play = some y →
          t.recOf p.rec_ = { s.recOf p.rec_ with play := some { y with fade := grGo y.fade.prev 0 16 false } })
      ∧ (∀ r, r ≠ p.rec_ → t.recOf r = s.recOf r) ∧ RegsBut wbRegs s t
      ∧ { t with loop := s.loop, host := s.host, blz := s.blz, regs := s.regs } = s)
  ∧ (∀ (s : State) (h : Hdr) (p : LoopCommitP), Ready s h → loopCommitValid p = true → loopCommitRefusal s p = .ok → DramWf s →
    admitCheck s (loopCommitEffect h p s).st = none →
    ∃ t, exec (.loopCommit h p) s = .next t
      ∧ (∃ run, (t.recOf p.rec_).run = some run ∧ run.hdr = h ∧ run.a = p.a ∧ run.b = p.b ∧ run.base = p.base.toNat ∧ run.cap = p.cap
          ∧ run.t = s.time.ts ∧ run.copied = false)
      ∧ { t.recOf p.rec_ with run := none } = { s.recOf p.rec_ with run := none }
      ∧ (∀ r, r ≠ p.rec_ → t.recOf r = s.recOf r)
      ∧ (∀ a, a < p.base.toNat ∨ p.base.toNat + p.cap * fmtBytes (s.recOf p.rec_).fmt ≤ a → memGet t.dram a = memGet s.dram a)
      ∧ { t with loop := s.loop, dram := s.dram } = s)
  ∧ (∀ (s : State) (r moved : Nat) (dt : DT) (run : LoopRun), (s.recOf r).run = some run → run.copied = false →
      run.cnum ≤ moved → DramWf s →
    ∃ t, exec (.loopCopyDone r moved dt) s = .next t
      ∧ (∃ done, (t.recOf r).run = some done ∧ done.copied = true ∧ done.hdr = run.hdr ∧ done.a = run.a ∧ done.b = run.b)
      ∧ (∀ q, q ≠ r → t.recOf q = s.recOf q)
      ∧ (run.pre = false → t.dram = s.dram)
      ∧ (run.pre = true → ((s.advance dt).prerollLay r run).start = none → t.dram = s.dram)
      ∧ (run.pre = true → ∀ st n lay, lay = (s.advance dt).prerollLay r run → lay.start = some st →
          n = (tsDiff (if 0 < tsDiff lay.next lay.b then lay.b + 1 else lay.next) st).toNat →
          ∀ a, (∀ i, i < n ∨ (∃ p ∈ lay.got, i = (tsDiff p.1 st).toNat) →
              a < run.base + i * fmtBytes (s.recOf r).fmt ∨ run.base + i * fmtBytes (s.recOf r).fmt + fmtBytes (s.recOf r).fmt ≤ a) →
            memGet t.dram a = memGet s.dram a)
      ∧ { t with loop := s.loop, dram := s.dram } = s.advance dt)

/-- For a DRAM in its canonical form, a number stored in n bytes at an address reads back as that number modulo 256 to the
n; every byte outside those n reads as before; and the stored list is in canonical form again. A list of bytes stored from
an address reads back byte by byte. -/
def Obligations.DramReadAfterWrite : Prop :=
  (∀ (m : List Host.Cell) (a v n : Nat), memWf m = true →
      memRead (memWrite m a v n) a n = v % 256 ^ n
      ∧ (∀ x, x < a ∨ a + n ≤ x → memGet (memWrite m a v n) x = memGet m x)
      ∧ memWf (memWrite m a v n) = true)
  ∧ (∀ (m : List Host.Cell) (a : Nat) (l : List Byte), memWf m = true →
      (∀ i b, l[i]? = some b → memGet (memBytes m a l) (a + i) = b)
      ∧ (∀ x, x < a ∨ a + l.length ≤ x → memGet (memBytes m a l) x = memGet m x)
      ∧ memWf (memBytes m a l) = true)

/-- A bulk descriptor that passes the checks of R340 waits in its ring, to start from the boundary two ticks later; no byte
of DRAM, no other ring and no register changes with its pickup. At the end of a running transfer a load has stored its data
and a fill its word from the DRAM address of the descriptor, an unload has stored nothing; every byte of DRAM outside the
transfer's length from that address reads as before. -/
def Obligations.BulkTransfersComplete : Prop :=
  (∀ (s : State) (h : Hdr) (p : BlkP) (op : Nat), h.rsv = false → h.late ≠ 3 → h.chain = false → h.timed = false → s.ringType (ringOf h) = 7 →
      p.len % 64 = 0 → 64 ≤ p.len → p.len ≤ 2 ^ 30 → s.regionOk p.dram.toNat p.len 64 = true → blkHostOk s op p = true →
      s.hitsReserved p.dram.toNat p.len = false → s.flt.fire = false → op = 0x0701 ∨ op = 0x0702 ∨ op = 0x0703 →
    ∃ t, (op = 0x0701 → exec (.blkLoad h p) s = .next t) ∧ (op = 0x0702 → exec (.blkUnload h p) s = .next t)
      ∧ (op = 0x0703 → exec (.blkFill h p) s = .next t)
      ∧ (⟨h, op, p, s.time.ts + 2, false, 0, false⟩ : BlkXfer) ∈ (t.ring (ringOf h)).blk
      ∧ (∀ m, m ≠ ringOf h → t.ring m = s.ring m) ∧ { t.host with rings := s.host.rings } = s.host ∧ { t with host := s.host } = s)
  ∧ (∀ (s : State) (n corrected : Nat) (data : List Byte) (b : BlkXfer) (rest : List BlkXfer), (s.ring n).blk = b :: rest →
      b.running = true → DramWf s → data.length = b.p.len →
    ∃ t, exec (.blkTransferEnd n b.p.len corrected data) s = .next t
      ∧ (b.opcode = 0x0701 → ∀ i x, data[i]? = some x → memGet t.dram (b.p.dram.toNat + i) = x)
      ∧ (b.opcode = 0x0703 → ∀ i j, i < b.p.len / 4 → j < 4 →
          memGet t.dram (b.p.dram.toNat + 4 * i + j) = BitVec.ofNat 8 (b.p.word.toNat / 256 ^ j))
      ∧ (b.opcode = 0x0702 → t.dram = s.dram)
      ∧ (∀ a, a < b.p.dram.toNat ∨ b.p.dram.toNat + b.p.len ≤ a → memGet t.dram a = memGet s.dram a)
      ∧ RegsBut wbRegs s t ∧ { t with dram := s.dram, host := s.host, blz := s.blz, regs := s.regs } = s)

/-- An uncorrectable DRAM codeword advances MEM_UE_CNT and records its address. A voice that reads it ends with cause 4; a
delay line, ring or take has that 64-byte line as zeros, and a ring's copy may zero frames already copied; a delay line
ramps its output down; a listener drops the frames of the codeword; a running unload ends and changes no DRAM byte; a save
copy is marked lost; a scrub only logs. Otherwise no byte outside the line changes. An uncorrectable SRAM word advances
MEM_SRAM_UE_CNT and records its address: a node or a bus gain goes to 0 over 64 tk, a shadow word reads its reset value,
engine state clears and dips, a delay line ramps down, a pending entry goes with its group, a running core fails, a Blaze
slot's record is gone, an interchange word reads bad. At the end of a scrub period a pass that is done counts, a late one is
logged and counts a period later. That a lost line reads zero is the model's choice (log entry 64). -/
def Obligations.MemoryErrorEvents : Prop :=
  (∀ (s : State) (u : MemUser) (addr : Addr) (dt : DT), DramWf s → ∃ t, exec (.dramUe u addr dt) s = .next t
      ∧ t.rd Reg.MEM_UE_CNT = satInc (s.rd Reg.MEM_UE_CNT) 1 ∧ t.rd Reg.MEM_ERR_ADDR_LO = addr.extractLsb' 0 32
      ∧ t.rd Reg.MEM_ERR_ADDR_HI = wN ((addr.extractLsb' 32 32).toNat % 2 ^ 31)
      ∧ (u = .scrub → t.dram = s.dram ∧ { t with blz := s.blz, regs := s.regs } = s.advance dt
          ∧ t.blz = (s.logAt Src.MEM 0x7002 4 dt (addr.extractLsb' 0 32) (addr.extractLsb' 32 32) 4).blz)
      ∧ (∀ v x, u = .clipData v → s.voice? v = some x → t.dram = s.dram ∧ ∃ y, t.voice? v = some y ∧ y.st = 3 ∧ y.cause = 4)
      ∧ (∀ n, u = .listener n → t.dram = s.dram ∧ (t.netCtx n).queue = (s.netCtx n).queue.drop (max 1 (16 / cxChans (s.ctxWord n))))
      ∧ (∀ n, u = .delayLine n → n < 256 → t.bit (Reg.FX_DRAMERR (n / 32)) (n % 32) = true
          ∧ t.fxCh n = { s.fxCh n with dfac := grNext (s.fxCh n).dfac.cur 0 8, err := some (max 8 (fxD (s.fxAct n))) })
      ∧ (∀ n, u = .delayLine n ∧ n < 256 ∨ u = .loopRing n ∨ u = .takePlay n → ∀ a, a / 64 = addr.toNat / 64 → memGet t.dram a = 0)
      ∧ (∀ n k b rest, u = .blkUnload n k → (s.ring n).blk = b :: rest → b.running = true → b.opcode = 0x0702 →
          t.dram = s.dram ∧ (t.ring n).blk.length ≤ rest.length)
      ∧ (u = .saveCopy → t.dram = s.dram ∧ t.pwr = { s.pwr with lost := s.pwr.lost ||| 0x1000 })
      ∧ (∀ r, u = .loopRing r → ∀ a, memGet t.dram a = memGet s.dram a ∨ memGet t.dram a = 0)
      ∧ ((∀ r k, u ≠ .blkUnload r k) → (∀ r, u ≠ .loopRing r) → ∀ a, a / 64 ≠ addr.toNat / 64 → memGet t.dram a = memGet s.dram a))
  ∧ (∀ (s : State) (w : SramWord) (addr : Nat) (dt : DT), ∃ t, exec (.sramUe w addr dt) s = .next t
      ∧ t.rd Reg.MEM_SRAM_UE_CNT = satInc (s.rd Reg.MEM_SRAM_UE_CNT) 1 ∧ t.rd Reg.MEM_ERR_ADDR_LO = wN addr
      ∧ (∀ l b, w = .node l b → l < 384 → b < 288 → wordGain (t.actNode (nodeKey l b)) = 0
          ∧ smGet? t.thk.ramps (nodeKey l b) = some (grNext (s.nodeUse (nodeKey l b)) 0 64))
      ∧ (∀ b, w = .busGain b → b < 288 → wordGain (t.actBusW b) = 0 ∧ smGet? t.thk.busRamps b = some (grNext (s.busUse b) 0 64))
      ∧ (∀ off, w = .shadow off → (off < 0x90000 → smGet? t.thk.shd (off / 4) = none)
          ∧ (0x90000 ≤ off → off < 0xB0000 → smGet? t.thk.shdBus ((off - 0x90000) / 4) = none)
          ∧ (0xB0000 ≤ off → off < 0x100000 → smGet? t.trl.shd ((off - 0xB0000) / 4) = none)
          ∧ (0x100000 ≤ off → off < 0x120000 → smGet? t.fx.shd ((off - 0x100000) / 4) = none)
          ∧ (0x120000 ≤ off → off < 0x160000 → smGet? t.clip.shd ((off - 0x120000) / 4) = none)
          ∧ (0x160000 ≤ off → off < 0x180000 → smGet? t.clip.eshd ((off - 0x160000) / 4) = none)
          ∧ (0x180000 ≤ off → off < 0x1C0000 → smGet? t.net.shd ((off - 0x180000) / 4) = none)
          ∧ (0x1C0000 ≤ off → off < 0x1D0000 → smGet? t.lsn.shd ((off - 0x1C0000) / 4) = none))
      ∧ (∀ n, w = .fxState n → n < 256 → t.fxCh n = { s.fxCh n with hist := [], e := 0, g := 0, opened := false, hold := 0, dip := 1 })
      ∧ (∀ c, w = .trailState c → c < 16 → (t.trlCh c).lim = 1 ∧ (t.trlCh c).dip = 1)
      ∧ (∀ v x, w = .clipState v → s.voice? v = some x → t.voice? v = some { x with dip := 1 })
      ∧ (∀ n, w = .delayLine n → n < 256 → t.bit (Reg.FX_DRAMERR (n / 32)) (n % 32) = true
          ∧ t.fxCh n = { s.fxCh n with dfac := grNext (s.fxCh n).dfac.cur 0 8, err := some (max 8 (fxD (s.fxAct n))) })
      ∧ (∀ r k p, w = .pendingEntry r k → s.host.pend.find? (fun p => p.hdr.ring == r && p.hdr.tag.toNat == k) = some p →
          ∀ q ∈ t.host.pend, q.grp ≠ p.grp)
      ∧ (∀ c, w = .coreMem c ∨ w = .coreCode c → c < 2 → coreRuns (s.core c) = true → s.flt.lost = false →
          t.rd Reg.FLT_COPPICE_CNT = satInc (s.rd Reg.FLT_COPPICE_CNT) 1)
      ∧ (∀ n, w = .blazeSlot n → ∀ r ∈ t.blz.store, r.slot ≠ n)
      ∧ (∀ a, w = .interchange a → a ∈ t.flt.ixUe)
      ∧ t.dram = s.dram)
  ∧ (∀ (s : State) (left : Nat) (dt : DT), s.scrubRuns = true → s.flt.scrubDt.toNat + s.scrubNs ≤ dt.toNat →
    ∃ t, exec (.memScrubPeriodEnd left dt) s = .next t
      ∧ t.rd Reg.MEM_SCRUB_PASS = satInc (if s.flt.scrubLate then satInc (s.rd Reg.MEM_SCRUB_PASS) 1 else s.rd Reg.MEM_SCRUB_PASS) (wB (left == 0))
      ∧ t.flt = { s.flt with scrubDt := dt, scrubLate := left != 0 }
      ∧ (left = 0 → t.blz = s.blz)
      ∧ (left ≠ 0 → t.blz = (s.logAt Src.MEM 0x7004 3 dt (t.rd Reg.MEM_SCRUB_PASS) (wN left) 0).blz)
      ∧ RegsBut [Reg.MEM_SCRUB_PASS] s t ∧ { t with blz := s.blz, regs := s.regs, flt := s.flt } = s.advance dt)

/-- An HPB_DATA picked up in tick k on a playback ring, in time, aligned, of 1 to 4,096 frames, inside the windows and not
before the end of the one before it, waits in the ring from its first target tick: its own target when timed, else the later
of k+3 and the end of the one before (R335, R336). HCP_DATA is the same on a capture ring with k+2 (R338). No other ring and
no other block changes. -/
def Obligations.HostStreamsComplete : Prop :=
  (∀ (s : State) (h : Hdr) (p : HostDataP), h.rsv = false → h.late ≠ 3 → h.chain = false → s.ringType (ringOf h) = 2 →
      1 ≤ p.n → p.n ≤ 4096 → p.addr.toNat % 4 = 0 →
      s.dmaAllowed p.addr (p.n * s.rsCount (ringOf h) * packBytes (s.rsPack (ringOf h))) false = true →
      (h.timed = true → tsDiff (s.time.ts + 3) h.target ≤ 0) →
      (h.timed = true → ∀ e, (s.ring (ringOf h)).prevEnd = some e → 0 ≤ tsDiff h.target e) →
    ∃ t, exec (.hpbData h p) s = .next t
      ∧ (∃ d ∈ (t.ring (ringOf h)).queue, d.hdr = h ∧ d.opcode = 0x0A10 ∧ d.first = streamFirst (s.ring (ringOf h)) h s.time.ts 3
          ∧ d.n = p.n ∧ d.addr = p.addr ∧ d.late = false ∧ d.ended = false)
      ∧ (t.ring (ringOf h)).prevEnd = some (streamFirst (s.ring (ringOf h)) h s.time.ts 3 + BitVec.ofNat 32 p.n)
      ∧ (∀ m, m ≠ ringOf h → t.ring m = s.ring m) ∧ { t.host with rings := s.host.rings } = s.host ∧ { t with host := s.host } = s)
  ∧ (∀ (s : State) (h : Hdr) (p : HostDataP), h.rsv = false → h.late ≠ 3 → h.chain = false → s.ringType (ringOf h) = 3 →
      1 ≤ p.n → p.n ≤ 4096 → p.addr.toNat % 4 = 0 →
      s.dmaAllowed p.addr (p.n * s.rsCount (ringOf h) * packBytes (s.rsPack (ringOf h))) true = true →
      (h.timed = true → tsDiff (s.time.ts + 2) h.target ≤ 0) →
      (h.timed = true → ∀ e, (s.ring (ringOf h)).prevEnd = some e → 0 ≤ tsDiff h.target e) →
    ∃ t, exec (.hcpData h p) s = .next t
      ∧ (∃ d ∈ (t.ring (ringOf h)).queue, d.hdr = h ∧ d.opcode = 0x0A11 ∧ d.first = streamFirst (s.ring (ringOf h)) h s.time.ts 2
          ∧ d.n = p.n ∧ d.addr = p.addr ∧ d.late = false ∧ d.ended = false)
      ∧ (t.ring (ringOf h)).prevEnd = some (streamFirst (s.ring (ringOf h)) h s.time.ts 2 + BitVec.ofNat 32 p.n)
      ∧ (∀ m, m ≠ ringOf h → t.ring m = s.ring m) ∧ { t.host with rings := s.host.rings } = s.host ∧ { t with host := s.host } = s)

/-- An accepted SAP_SET whose selected fields change more than the mute time starts the sequence with E after the stopping
ramp when the direction ran, and leaves the registers until then; otherwise the registers change at this boundary (R267,
R280). Tick E applies the configuration, clears the direction's state and leaves it off for that tick. A synchronous
direction locks with its expected period and runs with an empty FIFO; an ASRC direction or context is marked locked.
RATE_MEASURE writes the mean rate and reports one that is off the rate before by more than the threshold. No other
direction, register or block changes but those named. -/
def Obligations.PortSetCompletes : Prop :=
  (∀ (s : State) (h : Hdr) (p : SapSetP), Ready s h → sapSetValid s p = true → sapSetRefusal s p = .ok →
    let k := sapKey p.port p.dir
    let m := sapMerge s p
    ∃ t, exec (.sapSet h p) s = .next t
      ∧ (t.sapDir k).runOn = (if bitN p.mask.toNat 4 then p.run else (s.sapDir k).runOn)
      ∧ (sapRunsSeq (s.sapCfg k) m.1 (s.rd (sapFrameReg k)) m.2.1 (s.rd (sapPhaseReg k)) m.2.2.2 = true →
          RegsBut wbRegs s t ∧ (t.sapDir k).seq = some ⟨s.time.ts,
            if (s.sapDir k).runOn then s.time.ts + BitVec.ofNat 32 (scSmute (s.sapCfg k)) else s.time.ts, m.1, m.2.1, m.2.2.1, m.2.2.2, false, none⟩)
      ∧ (sapRunsSeq (s.sapCfg k) m.1 (s.rd (sapFrameReg k)) m.2.1 (s.rd (sapPhaseReg k)) m.2.2.2 = false →
          t.sapCfg k = m.1 ∧ t.rd (sapSlotsReg k) = m.2.2.1 ∧ (t.sapDir k).seq = none ∧ (t.sapDir k).state = (s.sapDir k).state)
      ∧ (∀ j, j ≠ k → t.sapDir j = s.sapDir j)
      ∧ RegsBut (sapCfgReg k :: sapSlotsReg k :: wbRegs) s t
      ∧ { t with sap := s.sap, host := s.host, blz := s.blz, regs := s.regs } = s)
  ∧ (∀ (s : State) (port dir : Nat) (q : SapSeq), port < 8 → dir < 2 → (s.sapDir (sapKey port dir)).seq = some q →
      q.applied = false → 0 ≤ tsDiff s.time.ts q.e →
    let k := sapKey port dir
    ∃ t, exec (.sapSeqApply port dir) s = .next t
      ∧ t.sapCfg k = q.cfg ∧ t.rd (sapFrameReg k) = q.frame ∧ t.rd (sapSlotsReg k) = q.slots ∧ t.rd (sapPhaseReg k) = q.phase
      ∧ (t.sapDir k).queue = [] ∧ (t.sapDir k).asrc = false ∧ (t.sapDir k).runOn = (s.sapDir k).runOn
      ∧ (t.sapDir k).state = .off
      ∧ (t.sapDir k).seq = some { q with applied := true, lock := if scEn q.cfg then none else some s.time.ts }
      ∧ (∀ j, j ≠ k → t.sapDir j = s.sapDir j)
      ∧ RegsBut [sapCfgReg k, sapFrameReg k, sapSlotsReg k, sapPhaseReg k] s t ∧ { t with sap := s.sap, regs := s.regs } = s)
  ∧ (∀ (s : State) (port dir : Nat) (q : SapSeq), let k := sapKey port dir
      (s.sapDir k).seq = some q → (s.sapDir k).state = .locking → q.applied = true → q.lock = none → scAsrc (s.sapCfg k) = false →
      (if scRole (s.sapCfg k) = 0 then 2 else 16) ≤ (s.sapDir k).edges.length →
    ∃ t, exec (.sapLock port dir) s = .next t
      ∧ (t.sapDir k).state = .running ∧ (t.sapDir k).queue = [] ∧ (t.sapDir k).seq = some { q with lock := some s.time.ts }
      ∧ (t.sapDir k).per = (if scRole (s.sapCfg k) = 0 then perOf (s.sapRateHz k) else meanPer (s.sapDir k).edges)
      ∧ (∀ j, j ≠ k → t.sapDir j = s.sapDir j) ∧ { t with sap := s.sap } = s)
  ∧ (∀ (s : State) (port dir : Nat) (rate : Word), let k := sapKey port dir
      scEn (s.sapCfg k) = true → scAsrc (s.sapCfg k) = true → (s.sapDir k).asrc = false → 524288 ≤ rate.toNat → rate.toNat ≤ 14155776 →
      ((s.sapDir k).state = .locking ∨ (s.sapDir k).state = .rateError ∨ (s.sapDir k).state = .running) →
    ∃ t, exec (.asrcLock (.port port dir) rate) s = .next t
      ∧ (t.sapDir k).asrc = true ∧ (t.sapDir k).state = .running ∧ (t.sapDir k).rate0 = rate
      ∧ ((s.sapDir k).state = .rateError → (t.sapDir k).port = grGo (s.sapDir k).port.prev 0x100000 32 false)
      ∧ (∀ j, j ≠ k → t.sapDir j = s.sapDir j)
      ∧ t.blz = (s.log Src.SAP 0x8007 1 (wN (k % 8 + 256 * (k / 8))) rate 0).blz
      ∧ RegsBut [] s t ∧ { t with sap := s.sap, blz := s.blz, regs := s.regs } = s)
  ∧ (∀ (s : State) (n : Nat) (rate : Word), (s.netCtx n).state ≠ .idle → cxAsrc (s.ctxWord n) = true → (s.netCtx n).asrc = false →
    ∃ t, exec (.asrcLock (.ctx n) rate) s = .next t
      ∧ (t.netCtx n).asrc = true ∧ ((s.netCtx n).stopAt = none → (t.netCtx n).port = grGo 0 0x100000 32 false)
      ∧ (∀ m, m ≠ n → t.netCtx m = s.netCtx m) ∧ { t with net := { t.net with ctx := s.net.ctx } } = s)
  ∧ (∀ (s : State) (port dir span : Nat), let k := sapKey port dir
      let reg := if dir = 0 then Reg.SAP_RX_RATE port else Reg.SAP_TX_RATE port
      port < 8 → dir < 2 → (s.sapDir k).state ≠ .off → 0 < span →
    ∃ t, exec (.sapRateMeasure port dir span) s = .next t
      ∧ t.rd reg = wN (1024 * 65536 * 1000000 / span)
      ∧ (∀ old, old = (s.sapDir k).rateC.getD (s.sapDir k).rate0 →
          (old ≠ 0 → s.fld (Fl.SAP_RATE_THR.THR port) * old.toNat < (((wN (1024 * 65536 * 1000000 / span)).toNat : Int) - old.toNat).natAbs * 1000000 →
            t.blz = (s.log Src.SAP 0x8005 2 (wN (k % 8 + 256 * (k / 8))) (t.rd reg) old).blz ∧ (t.sapDir k).rateC = some (t.rd reg)
            ∧ bitsOf (t.rd (Reg.SAP_FAULT port)) (4 + 16 * dir) 1 = 1)
          ∧ (old = 0 ∨ (((wN (1024 * 65536 * 1000000 / span)).toNat : Int) - old.toNat).natAbs * 1000000 ≤ s.fld (Fl.SAP_RATE_THR.THR port) * old.toNat →
            t.blz = s.blz ∧ (t.sapDir k).rateC = (s.sapDir k).rateC))
      ∧ (∀ j, j ≠ k → t.sapDir j = s.sapDir j)
      ∧ RegsBut [reg, Reg.SAP_FAULT port] s t ∧ { t with sap := s.sap, blz := s.blz, regs := s.regs } = s)

/-- A good frame of a running synchronous receive direction gets the tick that the rounded number of expected periods after
its predecessor gives; or, for ROLE 0, the next tick; it is queued with the words of its data line, or counts in LATECNT
when that tick has come; the first after a lock waits for its tick (R252, R253, R255, R258). A frame of a wrong length
counts in GLITCHCNT, sets GLITCH and discards the next two (R272). A transmit edge sends the queued words of its tick, or
zeros and counts in MISSCNT (R260). A loss after 2.5 expected periods, the return after 16 good frames and a rate jump of
eight periods are noted for the next boundary. Other directions stay. -/
def Obligations.PortFramesComplete : Prop :=
  (∀ (s : State) (port : Nat) (edge : DT) (bclks : Nat) (line : List SapBit), let k := sapKey port 0
      (s.sapDir k).state = .off → exec (.sapFrameRx port edge bclks line) s = .next (s.advance (s.frameEdge k (if s.phaseCc k = 0 then 0 else 1) edge)))
  ∧ (∀ (s : State) (port : Nat) (edge e : DT) (t0 : TS) (bclks : Nat) (line : List SapBit), let k := sapKey port 0
      let x := s.sapDir k
      let d := s.frameEdge k (if s.phaseCc k = 0 then 0 else 1) edge
      port < 8 → x.state = .running → scAsrc (s.sapCfg k) = false → x.disc = 0 → s.frameTaken k d = true →
      sapLeads? (s.sapCfg k) (s.rd (sapFrameReg k)) line = true →
      (scMaster (s.sapCfg k) = true ∨ bclks = frLen (s.rd (sapFrameReg k))) →
      let tick := if scRole (s.sapCfg k) = 0 then s.time.ts + 1 else t0 + BitVec.ofNat 32 (periods e d (s.sapPer k))
    ∃ t, exec (.sapFrameRx port edge bclks line) s = .next t
      ∧ (t.sapDir k).seen = some d ∧ (t.sapDir k).state = .running
      ∧ (scRole (s.sapCfg k) = 0 ∨ x.edge = some (e, t0) → (t.sapDir k).edge = some (d, tick)
          ∧ (0 < tsDiff tick s.time.ts → (t.sapDir k).queue = x.queue ++ [⟨some tick, d, rxWords (s.sapCfg k) line⟩] ∧ t.regs = s.regs)
          ∧ (tsDiff tick s.time.ts ≤ 0 → (t.sapDir k).queue = x.queue ∧ t.rd (Reg.SAP_RX_LATECNT port) = satInc (s.rd (Reg.SAP_RX_LATECNT port)) 1))
      ∧ (scRole (s.sapCfg k) ≠ 0 → x.edge = none → (t.sapDir k).queue = x.queue ++ [⟨none, d, rxWords (s.sapCfg k) line⟩] ∧ t.regs = s.regs)
      ∧ (∀ j, j ≠ k → t.sapDir j = s.sapDir j)
      ∧ RegsBut [Reg.SAP_RX_LATECNT port] s t ∧ { t with sap := s.sap, regs := s.regs } = s.advance d)
  ∧ (∀ (s : State) (port : Nat) (edge : DT) (bclks : Nat) (line : List SapBit), let k := sapKey port 0
      port < 8 → (s.sapDir k).state = .running → scMaster (s.sapCfg k) = false → s.frameTaken k edge = true →
      sapLeads? (s.sapCfg k) (s.rd (sapFrameReg k)) line = true → bclks ≠ frLen (s.rd (sapFrameReg k)) →
    ∃ t, exec (.sapFrameRx port edge bclks line) s = .next t
      ∧ (t.sapDir k).state = .glitch ∧ (t.sapDir k).disc = 2 ∧ (t.sapDir k).queue = (s.sapDir k).queue
      ∧ (t.sapDir k).port = grNext (s.sapDir k).port.cur 0 8
      ∧ t.rd (Reg.SAP_RX_GLITCHCNT port) = satInc (s.rd (Reg.SAP_RX_GLITCHCNT port)) 1 ∧ bitsOf (t.rd (Reg.SAP_FAULT port)) 1 1 = 1
      ∧ (∀ j, j ≠ k → t.sapDir j = s.sapDir j)
      ∧ RegsBut [Reg.SAP_RX_GLITCHCNT port, Reg.SAP_FAULT port] s t
      ∧ { t with sap := s.sap, blz := s.blz, regs := s.regs } = s.advance edge)
  ∧ (∀ (s : State) (port : Nat) (edge e : DT) (t0 : TS) (bclks : Nat) (q : List SapFrame), let k := sapKey port 1
      let x := s.sapDir k
      let d := s.frameEdge k 0 edge
      port < 8 → x.state = .running → scAsrc (s.sapCfg k) = false → x.disc = 0 → s.frameTaken k d = true →
      (scRole (s.sapCfg k) = 0 ∨ x.edge = some (e, t0)) → x.queue = q →
      (scMaster (s.sapCfg k) = true ∨ x.seen = none ∨ bclks = frLen (s.rd (sapFrameReg k))) →
      let tick := if scRole (s.sapCfg k) = 0 then s.time.ts - 1 else t0 + BitVec.ofNat 32 (periods e d (s.sapPer k))
      (∀ f ∈ q, 0 ≤ tsDiff (f.tick.getD tick) tick) →
    ∃ t, exec (.sapFrameTx port edge bclks) s = .next t
      ∧ (t.sapDir k).edge = some (d, tick) ∧ (t.sapDir k).sentP = x.sent
      ∧ (∀ f r, q = f :: r → f.tick = some tick → (t.sapDir k).sent = txWords (s.sapCfg k) f.words
          ∧ (t.sapDir k).queue = r ∧ t.rd (Reg.SAP_TX_MISSCNT port) = s.rd (Reg.SAP_TX_MISSCNT port))
      ∧ (q = [] → (t.sapDir k).sent = txWords (s.sapCfg k) [] ∧ (t.sapDir k).queue = []
          ∧ t.rd (Reg.SAP_TX_MISSCNT port) = satInc (s.rd (Reg.SAP_TX_MISSCNT port)) 1)
      ∧ (∀ j, j ≠ k → t.sapDir j = s.sapDir j)
      ∧ RegsBut [Reg.SAP_TX_MISSCNT port, Reg.SAP_TX_LATECNT port] s t ∧ { t with sap := s.sap, regs := s.regs } = s.advance d)
  ∧ (∀ (s : State) (port dir : Nat) (dt : DT), let k := sapKey port dir
      scMaster (s.sapCfg k) = false → (s.sapDir k).state ∈ [.running, .glitch, .rateError] ∨ ((s.sapDir k).state = .lost ∧ (s.sapDir k).back = true) → (s.sapDir k).lossRq = none →
      (∀ e, (s.sapDir k).seen = some e → 5 * (s.sapDir k).perE ≤ 2 * ((dt.toNat - e.toNat : Nat) : Rat)) →
    ∃ t, exec (.sapClkLoss port dir dt) s = .next t
      ∧ t.sapDir k = { s.sapDir k with lossRq := some dt } ∧ (∀ j, j ≠ k → t.sapDir j = s.sapDir j) ∧ { t with sap := s.sap } = s.advance dt)
  ∧ (∀ (s : State) (port dir : Nat) (dt : DT), let k := sapKey port dir
      (s.sapDir k).state = .lost ∨ ((s.sapDir k).state = .rateError ∧ scAsrc (s.sapCfg k) = false) → (s.sapDir k).edges.length = 16 → (s.sapDir k).back = false →
    ∃ t, exec (.sapClkReturn port dir dt) s = .next t
      ∧ (t.sapDir k).back = true ∧ (t.sapDir k).queue = [] ∧ (t.sapDir k).per = meanPer (s.sapDir k).edges ∧ (t.sapDir k).edge = none ∧ (t.sapDir k).state = (s.sapDir k).state
      ∧ (∀ j, j ≠ k → t.sapDir j = s.sapDir j)
      ∧ t.blz = (s.logAt Src.SAP 0x8002 2 dt (wN (k % 8 + 256 * (k / 8))) (wN (s.sapDir k).lossM) 0).blz
      ∧ RegsBut [] s t ∧ { t with sap := s.sap, blz := s.blz, regs := s.regs } = s.advance dt)
  ∧ (∀ (s : State) (port dir : Nat) (rate : Word) (dt : DT), let k := sapKey port dir
      scMaster (s.sapCfg k) = false → (s.sapDir k).state = .running ∨ (s.sapDir k).state = .glitch →
      eightOff (s.sapDir k).edges (s.refPer k) = true →
    ∃ t, exec (.sapRateJump port dir rate dt) s = .next t
      ∧ t.sapDir k = { s.sapDir k with jumpRq := some rate } ∧ (∀ j, j ≠ k → t.sapDir j = s.sapDir j) ∧ { t with sap := s.sap } = s.advance dt)

/-- An accepted GROVE_SET defines, extends or empties its Grove and no other. GROVE_START makes the Grove running with the
tick in force as its trigger; the members that are not ready are its late set, and every member direction has RUN set (R275,
R276). A late member that is ready joins: it leaves the late set, its run factor rises and the join is logged. GROVE_STOP
clears RUN of every member direction and the Grove stops with the last ramp (R278). Every other Grove, every direction that
is no member, and every other block stay. -/
def Obligations.GroveCommandsComplete : Prop :=
  (∀ (s : State) (h : Hdr) (p : GroveSetP), Ready s h → groveSetValid p = true → groveSetRefusal s p = .ok →
    ∃ t, exec (.groveSet h p) s = .next t
      ∧ (p.op = 0 → t.groveOf p.grove = ⟨.defined, 0, p.ports, p.rings, (List.range p.count).map (· + p.first), [], [], none⟩)
      ∧ (p.op = 1 → t.groveOf p.grove = { s.groveOf p.grove with state := .defined, ctxs := (t.groveOf p.grove).ctxs }
          ∧ (∀ n, n < 1024 → ((t.groveOf p.grove).ctxs.contains n = true ↔
              (s.groveOf p.grove).ctxs.contains n = true ∨ (p.first ≤ n ∧ n < p.first + p.count))))
      ∧ (p.op = 2 → t.groveOf p.grove = GroveSt.init)
      ∧ (∀ g, g ≠ p.grove → t.groveOf g = s.groveOf g)
      ∧ RegsBut wbRegs s t ∧ { t with grove := s.grove, host := s.host, blz := s.blz, regs := s.regs } = s)
  ∧ (∀ (s : State) (h : Hdr) (g : Nat), Ready s h → g < 8 → groveStartRefusal s g = .ok → admitCheck s (groveStartEffect g s).st = none →
    let late := (groveMembers (s.groveOf g)).filter (fun m => !s.memberReady m)
    ∃ t, exec (.groveStart h g) s = .next t
      ∧ t.groveOf g = { s.groveOf g with state := .running, trig := s.time.ts, late := late, eps := [], stop := none }
      ∧ (∀ a, a ≠ g → t.groveOf a = s.groveOf a)
      ∧ (∀ k, k < 16 → bitN (s.groveOf g).ports.toNat k = true → (t.sapDir k).runOn = true)
      ∧ (∀ k, bitN (s.groveOf g).ports.toNat k = false → t.sapDir k = s.sapDir k)
      ∧ (∀ n, n ∈ (s.groveOf g).ctxs → (t.netCtx n).state ≠ .idle)
      ∧ (∀ n, n ∉ (s.groveOf g).ctxs → t.netCtx n = s.netCtx n)
      ∧ RegsBut wbRegs s t ∧ { t with grove := s.grove, sap := s.sap, net := { t.net with ctx := s.net.ctx }, host := s.host, blz := s.blz, regs := s.regs } = s)
  ∧ (∀ (s : State) (h : Hdr) (g : Nat), Ready s h → g < 8 → (s.groveOf g).state = .running → admitCheck s (groveStopEffect g s).st = none →
    ∃ t, exec (.groveStop h g) s = .next t
      ∧ (t.groveOf g).state = .stopping ∧ (t.groveOf g).late = [] ∧ (t.groveOf g).stop.isSome = true
      ∧ (∀ a, a ≠ g → t.groveOf a = s.groveOf a)
      ∧ (∀ k, k < 16 → bitN (s.groveOf g).ports.toNat k = true → (t.sapDir k).runOn = false)
      ∧ (∀ k, bitN (s.groveOf g).ports.toNat k = false → t.sapDir k = s.sapDir k)
      ∧ (∀ n, n ∈ (s.groveOf g).ctxs → (s.netCtx n).state ≠ .idle → (t.netCtx n).stopAt.isSome = true)
      ∧ (∀ n, n ∉ (s.groveOf g).ctxs → t.netCtx n = s.netCtx n)
      ∧ RegsBut wbRegs s t ∧ { t with grove := s.grove, sap := s.sap, net := { t.net with ctx := s.net.ctx }, host := s.host, blz := s.blz, regs := s.regs } = s)
  ∧ (∀ (s : State) (g : Nat) (m : Member), g < 8 → (s.groveOf g).state = .running → m ∈ (s.groveOf g).late → s.memberReady m = true →
    ∃ t, exec (.groveMemberJoin g m) s = .next t
      ∧ t.groveOf g = { s.groveOf g with late := (s.groveOf g).late.erase m } ∧ (∀ a, a ≠ g → t.groveOf a = s.groveOf a)
      ∧ (∀ p d, m = .port p d → (t.sapDir (sapKey p d)).runOn = true
          ∧ (t.sapDir (sapKey p d)).run = grGo (s.sapDir (sapKey p d)).run.prev 0x100000 (scSmute (s.sapCfg (sapKey p d))) false
          ∧ (∀ j, j ≠ sapKey p d → t.sapDir j = s.sapDir j))
      ∧ ((∀ p d, m ≠ .port p d) → t.sap = s.sap)
      ∧ t.blz = (s.log Src.SAP 0x800A 3 (wN g) (memberWord m) s.time.ts).blz
      ∧ RegsBut [] s t ∧ { t with grove := s.grove, sap := s.sap, blz := s.blz, regs := s.regs } = s)

/-- An accepted op 0 makes every word of each named context's shadow entry its active word and changes no other active word.
Op 1 arms each named listener and runs each named talker from the tick in force, and waits (R303). Op 2 ramps every named
running context to zero over 32 ticks, after which it stops. No context that is not named changes, no shadow entry changes,
and no other block but the host interface and Blaze. -/
def Obligations.StreamCtrlCompletes : Prop :=
  (∀ (s : State) (h : Hdr) (p : StreamCtrlP), Ready s h → streamCtrlValid p = true → p.op = 0 → streamCtrlRefusal s p = .ok →
    admitCheck s (streamCtrlEffect h p s).st = none →
    ∃ t, exec (.streamCtrl h p) s = .next t
      ∧ (∀ n i, p.first ≤ n → n < p.first + p.count → i < 16 → t.ctxWord n i = s.ctxShd n i)
      ∧ (∀ n i, (n < p.first ∨ p.first + p.count ≤ n) → i < 16 → t.ctxWord n i = s.ctxWord n i)
      ∧ t.net.shd = s.net.shd ∧ t.net.ctx = s.net.ctx
      ∧ RegsBut wbRegs s t ∧ { t with net := { t.net with act := s.net.act }, host := s.host, blz := s.blz, regs := s.regs } = s)
  ∧ (∀ (s : State) (h : Hdr) (p : StreamCtrlP), Ready s h → streamCtrlValid p = true → p.op = 1 → streamCtrlRefusal s p = .ok →
    admitCheck s (streamCtrlEffect h p s).st = none →
    ∃ t, exec (.streamCtrl h p) s = .next t
      ∧ (∀ n, p.first ≤ n → n < p.first + p.count →
          (t.netCtx n).state = (if cxTalker (s.ctxWord n) then .running else .armed) ∧ (t.netCtx n).start = s.time.ts
          ∧ (t.netCtx n).queue = [] ∧ (t.netCtx n).pktCnt = (s.netCtx n).pktCnt)
      ∧ (∀ n, (n < p.first ∨ p.first + p.count ≤ n) → t.netCtx n = s.netCtx n)
      ∧ t.host = { s.host with waits := s.host.waits ++ [⟨h, 0x0901, .stream p.first p.count, p.timeout, s.time.ts⟩] }
      ∧ RegsBut [] s t ∧ { t with net := { t.net with ctx := s.net.ctx }, host := s.host, blz := s.blz, regs := s.regs } = s)
  ∧ (∀ (s : State) (h : Hdr) (p : StreamCtrlP), Ready s h → streamCtrlValid p = true → p.op = 2 → streamCtrlRefusal s p = .ok →
    admitCheck s (streamCtrlEffect h p s).st = none →
    ∃ t, exec (.streamCtrl h p) s = .next t
      ∧ (∀ n, p.first ≤ n → n < p.first + p.count → (s.netCtx n).state ≠ .idle → (s.netCtx n).stopAt = none →
          t.netCtx n = { s.netCtx n with port := grGo (s.netCtx n).port.prev 0 32 false, stopAt := some (lastTick s.time.ts 32) })
      ∧ (∀ n, (n < p.first ∨ p.first + p.count ≤ n) → t.netCtx n = s.netCtx n)
      ∧ RegsBut wbRegs s t ∧ { t with net := { t.net with ctx := s.net.ctx }, host := s.host, blz := s.blz, regs := s.regs } = s)

/-- Of a MAC that receives: a frame with a bad checksum counts in NET_RX_DROP and nothing else. A frame of no stream goes to
the head buffer of the filter's ring, or counts as dropped where there is none. A stream packet whose fields do not match
its context counts in the context's DISC. A frame placed at tick t is stored for t, or counts as late when t has come, or as
early from W ticks on (R297). A listener after a realign hold mutes over 8 ticks; a loss is noted for the next boundary. No
other context changes. -/
def Obligations.NetPacketsComplete : Prop :=
  (∀ (s : State) (k : Packet), bitN (s.rd Reg.NET_CTRL).toNat (8 + k.mac) = true → s.macsStopped = false → k.fcsOk = false →
    exec (.netPacketRx k) s = .next ((s.advance k.dt).bump Reg.NET_RX_DROP))
  ∧ (∀ (s : State) (k : Packet), bitN (s.rd Reg.NET_CTRL).toNat (8 + k.mac) = true → s.macsStopped = false → k.fcsOk = true → k.isGptp = false → k.isStream = false →
      (s.ring (bitsOf (s.rd Reg.NET_RX_FILTER) 0 6)).nrx = [] →
    exec (.netPacketRx k) s = .next ((s.advance k.dt).bump Reg.NET_RX_DROP))
  ∧ (∀ (s : State) (k : Packet) (b : NetBuf) (l : List NetBuf), let r := bitsOf (s.rd Reg.NET_RX_FILTER) 0 6
      bitN (s.rd Reg.NET_CTRL).toNat (8 + k.mac) = true → s.macsStopped = false → k.fcsOk = true → k.isGptp = false → k.isStream = false →
      bitN (s.rd Reg.NET_RX_FILTER).toNat 31 = true → (s.ring r).state = .running → s.ringType r = 5 → s.dmaOn = true →
      (s.ring r).nrx = b :: l → (∀ c ∈ l, c.dead = false) → s.cplOf b.hdr.ring ≠ r →
    ∃ t, exec (.netPacketRx k) s = .next t
      ∧ (t.ring r).nrx = l ∧ (t.ring r).didx = ((s.ring r).didx + 1) % 65536
      ∧ RegsBut wbRegs s t ∧ { t with host := s.host, blz := s.blz, regs := s.regs } = s.advance k.dt)
  ∧ (∀ (s : State) (k : Packet) (n : Nat), bitN (s.rd Reg.NET_CTRL).toNat (8 + k.mac) = true → s.macsStopped = false → k.fcsOk = true → k.isGptp = false →
      k.isStream = true → s.listenerOf k = some n → s.clk.rc = none →
      (destMac (s.ctxWord n) ≠ k.dest ∨ cxFmt (s.ctxWord n) ≠ k.fmt ∨ (cxFmt (s.ctxWord n) ≠ 3 ∧ cxChans (s.ctxWord n) ≠ k.chans)
        ∨ cxRate (s.ctxWord n) ≠ k.rate) →
    ∃ t, exec (.netPacketRx k) s = .next t
      ∧ t.netCtx n = { s.netCtx n with pktCnt := bump32 (s.netCtx n).pktCnt, discC := bump32 (s.netCtx n).discC }
      ∧ (∀ m, m ≠ n → t.netCtx m = s.netCtx m) ∧ { t with net := { t.net with ctx := s.net.ctx } } = s.advance k.dt)
  ∧ (∀ (s : State) (k : Packet) (n : Nat), bitN (s.rd Reg.NET_CTRL).toNat (8 + k.mac) = true → s.macsStopped = false → k.fcsOk = true → k.isGptp = false →
      k.isStream = true → s.listenerOf k = some n → s.clk.rc = none →
    ∃ t, exec (.netPacketRx k) s = .next t ∧ (t.netCtx n).pktCnt = bump32 (s.netCtx n).pktCnt
      ∧ (∀ m, m ≠ n → t.netCtx m = s.netCtx m) ∧ RegsBut [] s t
      ∧ { t with net := { t.net with ctx := s.net.ctx }, clk := s.clk, blz := s.blz, regs := s.regs } = s.advance k.dt)
  ∧ (∀ (s : State) (n : Nat) (t : TS) (v : List Int), 0 ≤ tsDiff t (s.netCtx n).start →
      let ahead := tsDiff t s.time.ts
      let x := (s.placeFrame n t v).netCtx n
      (ahead ≤ 0 → x = { s.netCtx n with late := min ((s.netCtx n).late + 1) (2 ^ 32 - 1) })
      ∧ (earlyWin s.clk.rate ≤ ahead → 0 < ahead → x = { s.netCtx n with early := min ((s.netCtx n).early + 1) (2 ^ 32 - 1) })
      ∧ (0 < ahead → ahead < earlyWin s.clk.rate → x.queue = (s.netCtx n).queue.filter (fun f => decide (f.1 ≠ t)) ++ [(t, v)]
          ∧ { x with queue := (s.netCtx n).queue } = s.netCtx n)
      ∧ (∀ m, m ≠ n → (s.placeFrame n t v).netCtx m = s.netCtx m))
  ∧ (∀ (s : State) (n : Nat) (d : DT), (s.netCtx n).holdDt = some d → (s.netCtx n).state = .running ∨ (s.netCtx n).state = .lost →
      d.toNat + cxHold (s.ctxWord n) * 1000000 ≤ s.time.dt.toNat → s.leads 4 n = false →
    ∃ t, exec (.netRealign n) s = .next t
      ∧ (t.netCtx n).state = .realigning ∧ (t.netCtx n).port = grGo (s.netCtx n).port.prev 0 8 false ∧ (t.netCtx n).realRq = true
      ∧ (∀ m, m ≠ n → t.netCtx m = s.netCtx m)
      ∧ t.blz = (s.log Src.NET 0x9006 3 (wN n) (wI (s.netCtx n).holdE) 0).blz
      ∧ RegsBut [] s t ∧ { t with net := { t.net with ctx := s.net.ctx }, blz := s.blz, regs := s.regs } = s)
  ∧ (∀ (s : State) (n : Nat) (dt : DT), cxTalker (s.ctxWord n) = false → (s.netCtx n).state = .running ∨ (s.netCtx n).state = .realigning →
      (s.netCtx n).lastDt.toNat + cxLoss (s.ctxWord n) * 1000000 ≤ dt.toNat →
    ∃ t, exec (.netStreamLoss n dt) s = .next t
      ∧ t.netCtx n = { s.netCtx n with lossRq := true } ∧ (∀ m, m ≠ n → t.netCtx m = s.netCtx m)
      ∧ { t with net := { t.net with ctx := s.net.ctx } } = s.advance dt)

/-- A valid NTX descriptor on a link that is up queues its frame behind those that wait; one on a link that is down is
discarded as LOST and counts in NET_TX_DROP (R302). A valid NRX descriptor posts its buffer. The frame that leaves the MAC
leaves its ring's queue with a write-back. Link up, the link monitor and link down show the speed in NET_STATUS with a
record; a link that goes down discards its waiting frames. A PHY interrupt latches its bit. MDIO_GO starts an access,
MDIO_DONE ends it with the data of a read. -/
def Obligations.NetFramesAndLinks : Prop :=
  (∀ (s : State) (h : Hdr) (p : NtxP), headerOk s h [4] = true → h.chain = false → ntxFrameValid p = true → s.dmaAllowed p.addr p.len false = true →
      s.linkUp p.mac = true →
    ∃ t, exec (.ntxFrame h p) s = .next t
      ∧ (t.ring (ringOf h)).ntx = (s.ring (ringOf h)).ntx ++ [⟨h, p.addr, p.len, p.mac, p.tsreq, p.queue, false⟩]
      ∧ (t.ring (ringOf h)).didx = ((s.ring (ringOf h)).didx + 1) % 65536
      ∧ (∀ m, m ≠ ringOf h → t.ring m = s.ring m) ∧ { t with host := s.host } = s)
  ∧ (∀ (s : State) (h : Hdr) (p : NtxP), headerOk s h [4] = true → h.chain = false → ntxFrameValid p = true → s.dmaAllowed p.addr p.len false = true →
      s.linkUp p.mac = false →
    ∃ t, exec (.ntxFrame h p) s = .next t
      ∧ (t.ring (ringOf h)).ntx = (s.ring (ringOf h)).ntx ∧ t.rd Reg.NET_TX_DROP = satInc (s.rd Reg.NET_TX_DROP) 1
      ∧ RegsBut (Reg.NET_TX_DROP :: wbRegs) s t ∧ { t with host := s.host, blz := s.blz, regs := s.regs } = s)
  ∧ (∀ (s : State) (h : Hdr) (p : NrxP), headerOk s h [5] = true → h.chain = false → 1 ≤ p.len → p.len < 65536 → s.dmaAllowed p.addr p.len true = true →
      (∀ b ∈ (s.ring (ringOf h)).nrx, b.dead = false) →
    ∃ t, exec (.nrxBuf h p) s = .next t
      ∧ (t.ring (ringOf h)).nrx = (s.ring (ringOf h)).nrx ++ [⟨h, p.addr, p.len, 0, false, 0, false⟩]
      ∧ (∀ m, m ≠ ringOf h → t.ring m = s.ring m) ∧ { t with host := s.host } = s)
  ∧ (∀ (s : State) (r : Nat) (dt : DT) (b : NetBuf) (l : List NetBuf), (s.ring r).ntx = b :: l → ∃ t, exec (.ntxEgress r dt) s = .next t
      ∧ (t.ring r).ntx = l ∧ RegsBut wbRegs s t ∧ { t with host := s.host, blz := s.blz, regs := s.regs } = s.advance dt)
  ∧ (∀ (s : State) (mac speed : Nat), s.macOn mac = true → 1 ≤ speed → speed ≤ 3 → bitsOf (s.rd Reg.NET_STATUS) (4 * mac) 2 = 0 →
    ∃ t, exec (.netLinkUp mac speed) s = .next t ∧ exec (.mdioLinkMonitor mac speed) s = .next t
      ∧ bitsOf (t.rd Reg.NET_STATUS) (4 * mac) 2 = speed
      ∧ t.blz = (s.log Src.NET 0x9001 1 (wN mac) (wN speed) 0).blz
      ∧ RegsBut [Reg.NET_STATUS] s t ∧ { t with blz := s.blz, regs := s.regs } = s)
  ∧ (∀ (s : State) (mac : Nat), s.macOn mac = true → bitsOf (s.rd Reg.NET_STATUS) (4 * mac) 2 ≠ 0 →
    ∃ t, exec (.netLinkDown mac) s = .next t ∧ exec (.mdioLinkMonitor mac 0) s = .next t
      ∧ bitsOf (t.rd Reg.NET_STATUS) (4 * mac) 2 = 0
      ∧ (∀ r, ∀ b ∈ (t.ring r).ntx, b.mac ≠ mac) ∧ (∀ r, (t.ring r).ntx = (s.ring r).ntx.filter (fun b => b.mac != mac))
      ∧ RegsBut (Reg.NET_STATUS :: Reg.NET_TX_DROP :: wbRegs) s t ∧ { t with host := s.host, blz := s.blz, regs := s.regs } = s)
  ∧ (∀ (s : State) (mac : Nat) (dt : DT), mac < 2 → ∃ t, exec (.netPhyInt mac dt) s = .next t
      ∧ bitsOf (t.rd Reg.NET_STATUS) (16 + mac) 1 = 1
      ∧ t.blz = (s.logAt Src.NET 0x900B 1 dt (wN mac) 0 0).blz
      ∧ (s.pwr.sleep = none → t.pwr = s.pwr)
      ∧ RegsBut [Reg.NET_STATUS, Reg.WAK_LATCH] s t ∧ { t with pwr := s.pwr, blz := s.blz, regs := s.regs } = s.advance dt)
  ∧ (∀ (s : State) (data : BitVec 16), s.net.mdio = true → ∃ t, exec (.mdioDone data) s = .next t
      ∧ t.net = { s.net with mdio := false } ∧ t.fld Fl.NET_MDIO.GO = 0
      ∧ (s.flag Fl.NET_MDIO.OP = true → t.fld Fl.NET_MDIO.DATA = data.toNat)
      ∧ (s.flag Fl.NET_MDIO.OP = false → t.fld Fl.NET_MDIO.DATA = s.fld Fl.NET_MDIO.DATA)
      ∧ RegsBut [Reg.NET_MDIO] s t ∧ { t with net := s.net, regs := s.regs } = s)

/-- With BAR0 reachable and no lock, a 32-bit aligned write to a register without a rule of its own leaves each RW and RWL
field at the value written, clamped where its range says so; a value its range refuses leaves the field and sets
HST_ERR.MMIO_BAD; a W1C field keeps the bits not written as 1; a W1S field and all reserved bits stay (R11, R12). A write to
a reserved offset does nothing. A write of another size or alignment is discarded with MMIO_BAD (R310). In Glade an access
only wakes the device and changes no register but WAK_LATCH (R388). -/
def Obligations.RegisterFieldAccess : Prop :=
  (∀ (s : State) (off : Nat) (v : Word) (d : RegDef), Open s → off % 4 = 0 → regDef? off = some d → ownRule off = false →
    ∃ t, exec (.registerWrite off v true) s = .next t
      ∧ (∀ f ∈ d.flds, f.acc = .rw ∨ f.acc = .rwl →
          bitsOf (t.rd off) f.lo f.w = (match rangeNew f.rng (bitsOf v f.lo f.w) with | some n => n | none => bitsOf (s.rd off) f.lo f.w))
      ∧ (∀ f ∈ d.flds, f.acc = .w1c → ∀ i, i < f.w →
          bitN (t.rd off).toNat (f.lo + i) = (bitN (s.rd off).toNat (f.lo + i) && !bitN v.toNat (f.lo + i)))
      ∧ (∀ f ∈ d.flds, f.acc = .w1s → bitsOf (t.rd off) f.lo f.w = bitsOf (s.rd off) f.lo f.w)
      ∧ (∀ i, i < 32 → (∀ f ∈ d.flds, i < f.lo ∨ f.lo + f.w ≤ i) → bitN (t.rd off).toNat i = bitN (s.rd off).toNat i)
      ∧ ((∃ f ∈ d.flds, (f.acc = .rw ∨ f.acc = .rwl) ∧ rangeNew f.rng (bitsOf v f.lo f.w) = none) → t.fld Fl.HST_ERR.MMIO_BAD = 1)
      ∧ ((∀ f ∈ d.flds, (f.acc = .rw ∨ f.acc = .rwl) → rangeNew f.rng (bitsOf v f.lo f.w) ≠ none) → { t with regs := s.regs } = s)
      ∧ RegsBut [off, Reg.HST_ERR] s t ∧ { t with host := s.host, blz := s.blz, regs := s.regs } = s)
  ∧ (∀ (s : State) (off : Nat) (v : Word), s.barGate = 1 → off % 4 = 0 → regDef? off = none → exec (.registerWrite off v true) s = .next s)
  ∧ (∀ (s : State) (off : Nat) (v : Word), s.barGate = 1 → ∃ t, exec (.registerWrite off v false) s = .next t
      ∧ t.fld Fl.HST_ERR.MMIO_BAD = 1 ∧ t.blz = (s.log Src.HST 0xA008 3 (wN off) 0 0).blz
      ∧ RegsBut [Reg.HST_ERR] s t ∧ { t with host := s.host, blz := s.blz, regs := s.regs } = s)
  ∧ (∀ (s : State) (off : Nat) (v : Word) (a : Bool), s.pwr.state = .glade → ∃ t, exec (.registerWrite off v a) s = .next t
      ∧ RegsBut [Reg.WAK_LATCH] s t ∧ { t with pwr := s.pwr, regs := s.regs } = s)

/-- For every locked state, every offset but that of FLT_CTRL (whose DEV_RESET resets the device and ends the lock) and
every value: the write answers a next state in which every RWL field of every register has the value it had, the lock is
still set, and the host's writes of TWB_CTRL and TWB_ALERT_MASK have changed nothing. -/
def Obligations.SetupLockHolds : Prop :=
  ∀ (s : State) (off : Nat) (v : Word), s.barGate = 1 → s.locked = true → off ≠ Reg.FLT_CTRL →
    ∃ t, exec (.registerWrite off v true) s = .next t
      ∧ (∀ o d f, o % 4 = 0 → regDef? o = some d → f ∈ d.flds → f.acc = .rwl → bitsOf (t.rd o) f.lo f.w = bitsOf (s.rd o) f.lo f.w)
      ∧ t.locked = true ∧ t.rd Reg.TWB_CTRL = s.rd Reg.TWB_CTRL ∧ t.rd Reg.TWB_ALERT_MASK = s.rd Reg.TWB_ALERT_MASK

/-- RUN sets CLK_CTRL.RUN, or CFG_ERR for a rate the crystal does not give. LOCK sets the lock with its TS32 and record. A
ring that is off becomes enabling; a running one gets EN 0 and stops at the next boundary. A pin function that is free is
taken; a claim refused is reported in PIN_CLAIM, one with values out of range in HST_ERR too. GPIO_SET and GPIO_CLR set and
clear output bits. METER_ENABLE starts, refuses or stops reporting. RANGE_WRITE changes the range at once, or asks for the
sequence while the jack plays. Only the own register and those named change. -/
def Obligations.SetupRowsComplete : Prop :=
  (∀ (s : State) (v : Word), Open s → s.runSet = false → bitsOf v 12 4 ≤ 4 → bitsOf v 8 3 ≤ 5 → ∃ t, exec (.run v) s = .next t
    ∧ t.fld Fl.CLK_CTRL.FD_INIT = bitsOf v 8 3 ∧ t.fld Fl.CLK_CTRL.XTAL_SEL = bitsOf v 1 1
    ∧ (bitsOf v 1 1 = 0 ∨ family441 (bitsOf v 8 3) = true → t.runSet = true ∧ t.clk.cfgErr = false)
    ∧ (bitsOf v 1 1 ≠ 0 → family441 (bitsOf v 8 3) = false → t.runSet = false ∧ t.clk.cfgErr = true)
    ∧ RegsBut [Reg.CLK_CTRL, Reg.TIME_XO_RATIO] s t ∧ { t with clk := s.clk, regs := s.regs } = s)
  ∧ (∀ s : State, Open s → ∃ t, exec .lock s = .next t
      ∧ t.locked = true ∧ t.rd Reg.TOP_LOCK_TS32 = s.tsNow ∧ t.blz = (s.log Src.TOP 0x0001 2 s.tsNow 0 0).blz
      ∧ RegsBut [Reg.TOP_LOCK, Reg.TOP_LOCK_TS32] s t ∧ { t with blz := s.blz, regs := s.regs } = s)
  ∧ (∀ s : State, s.barGate = 1 → s.hwd.booted = false → exec .bootOrder s = .next { s with hwd := { s.hwd with order := true } })
  ∧ (∀ (s : State) (n : Nat) (v : Word), s.barGate = 1 → n < 64 → bitN v.toNat 31 = true → s.ringEn n = false → bitsOf v 0 4 ≤ 7 →
      4 ≤ bitsOf v 16 4 →
    ∃ t, exec (.ringEnable n v) s = .next t
      ∧ t.ringEn n = true ∧ t.ringType n = bitsOf v 0 4 ∧ t.ringSize n = 2 ^ bitsOf v 16 4 ∧ t.cplOf n = bitsOf v 25 6
      ∧ ((s.ring n).stop = false → (t.ring n).state = .enabling) ∧ (∀ m, m ≠ n → t.ring m = s.ring m)
      ∧ RegsBut [Reg.HST_RING_CFG n] s t ∧ { t with host := s.host, regs := s.regs } = s)
  ∧ (∀ (s : State) (n : Nat) (v : Word), s.barGate = 1 → n < 64 → bitN v.toNat 31 = false → s.ringEn n = true → s.ringType n ≠ 1 →
    ∃ t, exec (.ringDisable n v) s = .next t
      ∧ t.ringEn n = false ∧ (t.ring n).stop = true ∧ (t.ring n).state = (s.ring n).state ∧ t.ringType n = s.ringType n
      ∧ (∀ m, m ≠ n → t.ring m = s.ring m)
      ∧ RegsBut [Reg.HST_RING_CFG n] s t ∧ { t with host := s.host, regs := s.regs } = s)
  ∧ (∀ (s : State) (n : Nat) (v : Word), Open s → n < 16 → s.gpioCheck n v = .ok → ∃ t, exec (.gpioCfgWrite n v) s = .next t
      ∧ t.fld (Fl.PIN_GPIO_CFG.FUNC n) = bitsOf v 0 4 ∧ t.fld (Fl.PIN_GPIO_CFG.DIR n) = bitsOf v 4 1
      ∧ t.fld (Fl.PIN_GPIO_CFG.SEL n) = bitsOf v 16 8
      ∧ RegsBut [Reg.PIN_GPIO_CFG n] s t ∧ { t with pin := s.pin, regs := s.regs } = s)
  ∧ (∀ (s : State) (n : Nat) (v : Word), Open s → n < 16 → s.gpioCheck n v ≠ .ok → ∃ t, exec (.gpioCfgWrite n v) s = .next t
      ∧ t.rd Reg.PIN_CLAIM = wN (statusCode (s.gpioCheck n v) * 2 ^ 24 + Reg.PIN_GPIO_CFG n % 4096)
      ∧ t.rd Reg.PIN_CLAIMCNT = satInc (s.rd Reg.PIN_CLAIMCNT) 1
      ∧ (s.gpioCheck n v = .invalid → t.fld Fl.HST_ERR.MMIO_BAD = 1)
      ∧ (s.gpioCheck n v ≠ .invalid → RegsBut [Reg.PIN_CLAIM, Reg.PIN_CLAIMCNT] s t ∧ t.host = s.host)
      ∧ RegsBut [Reg.PIN_CLAIM, Reg.PIN_CLAIMCNT, Reg.HST_ERR] s t ∧ { t with host := s.host, blz := s.blz, regs := s.regs } = s)
  ∧ (∀ (s : State) (v : Word), Open s → ∃ t, exec (.sapxCfgWrite v) s = .next t
      ∧ (s.sapxCheck v = .ok → t.rd Reg.PIN_SAPX_CFG = v ∧ { t with regs := s.regs } = s ∧ RegsBut [Reg.PIN_SAPX_CFG] s t)
      ∧ (s.sapxCheck v ≠ .ok → t.rd Reg.PIN_CLAIM = wN (3 * 2 ^ 24 + Reg.PIN_SAPX_CFG % 4096)
          ∧ RegsBut [Reg.PIN_CLAIM, Reg.PIN_CLAIMCNT] s t ∧ { t with blz := s.blz, regs := s.regs } = s))
  ∧ (∀ (s : State) (v : Word), s.barGate = 1 → ∃ t u, exec (.gpioSet v) s = .next t ∧ exec (.gpioClr v) s = .next u
      ∧ t.rd Reg.PIN_GPIO_OUT = (s.rd Reg.PIN_GPIO_OUT ||| (v &&& 0xFFFF)) ∧ u.rd Reg.PIN_GPIO_OUT = (s.rd Reg.PIN_GPIO_OUT &&& ~~~v)
      ∧ RegsBut [Reg.PIN_GPIO_OUT] s t ∧ RegsBut [Reg.PIN_GPIO_OUT] s u ∧ { t with regs := s.regs } = s ∧ { u with regs := s.regs } = s)
  ∧ (∀ (s : State) (v : Word), s.barGate = 1 → s.net.mdio = false → ∃ t, exec (.mdioGo v) s = .next t
      ∧ t.net = { s.net with mdio := true } ∧ t.fld Fl.NET_MDIO.GO = 1 ∧ t.fld Fl.NET_MDIO.DATA = bitsOf v 0 16
      ∧ RegsBut [Reg.NET_MDIO] s t ∧ { t with net := s.net, regs := s.regs } = s)
  ∧ (∀ (s : State) (v : Word), s.barGate = 1 → ∃ t, exec (.netCtxSel v) s = .next t
      ∧ bitsOf (t.rd Reg.NET_CTX_SEL) 0 10 = bitsOf v 0 10 ∧ RegsBut [Reg.NET_CTX_SEL] s t ∧ { t with regs := s.regs } = s)
  ∧ (∀ (s : State) (v : Word), s.barGate = 1 → ∃ t, exec (.rangeWrite v) s = .next t
      ∧ t.fld Fl.AOUT_JACK_CFG.RANGE = bitsOf v 12 2
      ∧ (∀ j, j < 2 → bitN (s.fld Fl.AOUT_JACK_CFG.RANGE) j ≠ bitN (bitsOf v 12 2) j →
          (s.jackPlays j = true → bitN t.aout.rangeReq j = true ∧ (t.hpJack j) = s.hpJack j)
          ∧ (s.jackPlays j = false → (t.hpJack j).lo = bitN (bitsOf v 12 2) j))
      ∧ RegsBut [Reg.AOUT_JACK_CFG, Reg.AOUT_JACK_STAT 0, Reg.AOUT_JACK_STAT 1] s t ∧ { t with aout := s.aout, regs := s.regs } = s)
  ∧ (∀ (s : State) (v : Word), s.barGate = 1 → ∃ t, exec (.meterEnable v) s = .next t
      ∧ (bitN v.toNat 31 = true → s.thk.meter.on = false → s.dmaAllowed s.meterBase 8704 true = true →
          t.thk.meter = { s.thk.meter with on := true, done := 0, acc := [], changed := [] }
          ∧ t.fld Fl.THK_METER_CFG.EN = 1 ∧ t.fld Fl.THK_STATUS.METER_ERR = 0)
      ∧ (bitN v.toNat 31 = true → s.thk.meter.on = false → s.dmaAllowed s.meterBase 8704 true = false →
          t.thk.meter = s.thk.meter ∧ t.fld Fl.THK_METER_CFG.EN = 0 ∧ t.fld Fl.THK_STATUS.METER_ERR = 1)
      ∧ (bitN v.toNat 31 = false → t.thk.meter.on = false ∧ t.fld Fl.THK_METER_CFG.EN = 0)
      ∧ RegsBut [Reg.THK_METER_CFG, Reg.THK_STATUS] s t ∧ { t with thk := { t.thk with meter := s.thk.meter }, regs := s.regs } = s)

/-- CLIP_CLR zeroes every clip counter, PEAK_CLR the peaks. BLZ_RELEASE frees exactly the records at or before the number
that have been drained or need no drain, fatal ones only with REL_FATAL. BLZ_WIN_SEQ selects the earliest record at or after
the number. DRAIN_ENABLE starts on a running EVT ring, errs otherwise. AV_CLR is due at a boundary; DUMP_CLR drops the dump;
DUMP_NOW writes one, or counts when one is held; RANGER_RST reloads Ranger while both cores run. Reads of LO words latch
their HI words. An aperture write stores a Thicket node in the shadow bank, or is bad or discarded. -/
def Obligations.ControlRowsComplete : Prop :=
  (∀ (s : State) (v : Word), s.barGate = 1 → ∃ t, exec (.clipClr v) s = .next t
    ∧ (∀ b, b < 288 → t.rd (Reg.THK_CLIPCNT b) = 0)
    ∧ (∀ o, (o < 0x7800 ∨ 0x7C80 ≤ o) → logReg o = false → o ≠ Reg.THK_CTRL → o ∉ ctlRegs → t.rd o = s.rd o)
    ∧ { t with host := s.host, blz := s.blz, regs := s.regs } = s)
  ∧ (∀ (s : State) (v : Word), s.barGate = 1 → ∃ t, exec (.peakClr v) s = .next t
      ∧ (∀ e, e < 3 → bitsOf (t.rd (budReg e)) 16 16 = 0 ∧ bitsOf (t.rd (budReg e)) 0 16 = bitsOf (s.rd (budReg e)) 0 16)
      ∧ RegsBut (budReg 0 :: budReg 1 :: budReg 2 :: Reg.PWR_BUD_CTRL :: ctlRegs) s t
      ∧ { t with host := s.host, blz := s.blz, regs := s.regs } = s)
  ∧ (∀ (s : State) (seq : Word), s.barGate = 1 → ∃ t, exec (.blzRelease seq) s = .next t
      ∧ (∀ r, r ∈ t.blz.store ↔ r ∈ s.blz.store ∧ ¬ (0 ≤ seqDiff seq r.seq ∧ (s.delivered r = true ∨ s.flag Fl.BLZ_CTRL.DRAIN_EN = false)
          ∧ (r.ev.sev ≠ 6 ∨ s.flag Fl.BLZ_CTRL.REL_FATAL = true)))
      ∧ { t with blz := { t.blz with store := s.blz.store } } = s)
  ∧ (∀ (s : State) (seq : Word), s.barGate = 1 → ∃ t, exec (.blzWinSeq seq) s = .next t
      ∧ t.rd Reg.BLZ_WIN_SEQ = seq
      ∧ t.blz = { s.blz with win := (s.blz.store.find? (fun r => decide (0 ≤ seqDiff r.seq seq))).map (fun r => (r.slot, r.seq == seq)) }
      ∧ RegsBut [Reg.BLZ_WIN_SEQ] s t ∧ { t with blz := s.blz, regs := s.regs } = s)
  ∧ (∀ (s : State) (v : Word), s.barGate = 1 → ∃ t, exec (.drainEnable v) s = .next t
      ∧ (bitN v.toNat 31 = true → s.evtOk (bitsOf v 24 6) = true → t.blz.run = true ∧ t.blz.err = false ∧ t.rd Reg.BLZ_CTRL = v &&& 0xFF000000)
      ∧ (bitN v.toNat 31 = true → s.evtOk (bitsOf v 24 6) = false → t.blz = { s.blz with err := true } ∧ t.rd Reg.BLZ_CTRL = s.rd Reg.BLZ_CTRL)
      ∧ (bitN v.toNat 31 = false → t.blz = { s.blz with run := false } ∧ t.rd Reg.BLZ_CTRL = v &&& 0xFF000000)
      ∧ t.blz.store = s.blz.store ∧ RegsBut [Reg.BLZ_CTRL] s t ∧ { t with blz := s.blz, regs := s.regs } = s)
  ∧ (∀ s : State, s.barGate = 1 →
      exec .avClr s = .next { s with flt := { s.flt with avClr := true } } ∧ exec .dumpClr s = .next { s with flt := { s.flt with dump := none } }
      ∧ (coreRuns s.flt.coreA = true → coreRuns s.flt.coreB = true →
          exec .rangerRst s = .next (({ s with flt := { s.flt with reload := true } }).log Src.FLT 0xE006 3 0 0 0)))
  ∧ (∀ (s : State), s.barGate = 1 → s.flt.dump.isSome = true → exec .dumpNow s = .next (s.bump Reg.FLT_DUMP_SKIP))
  ∧ (∀ (s : State) (w : Nat), s.barGate = 1 → s.flt.dump = none → s.dumpWriter = some w → ∃ t, exec .dumpNow s = .next t
      ∧ (t.flt.dump.map (fun d => (d.cause, d.writer, d.dt, d.ts))) = some (7, w, s.time.dt, s.tsNow) ∧ t.fld Fl.TWB_ALERT.DUMP = 1
      ∧ { t.flt with dump := none } = s.flt
      ∧ RegsBut (Reg.TWB_ALERT :: wbRegs) s t
      ∧ { t with free := s.free, flt := s.flt, twb := s.twb, host := s.host, blz := s.blz, regs := s.regs } = s)
  ∧ (∀ s : State, s.barGate = 1 → ∃ t u, exec (.timeDtRead false) s = .next t ∧ exec (.timeTickRead false) s = .next u
      ∧ t.rd Reg.TIME_DT_HI = s.time.dt.extractLsb' 32 32 ∧ u.rd64 Reg.TIME_TICK_DT_LO Reg.TIME_TICK_DT_HI = s.tickDt
      ∧ RegsBut [Reg.TIME_DT_HI] s t ∧ RegsBut [Reg.TIME_TICK_DT_LO, Reg.TIME_TICK_DT_HI] s u
      ∧ { t with regs := s.regs } = s ∧ { u with regs := s.regs } = s)
  ∧ (∀ s : State, ∃ t u, exec (.timeDtRead true) s = .next t ∧ exec (.timeTickRead true) s = .next u
      ∧ t.twb.dtHi = s.time.dt.extractLsb' 32 32 ∧ u.twb.tickHi ++ u.twb.tickLo = s.tickDt
      ∧ { t with twb := s.twb } = s ∧ { u with twb := s.twb } = s)
  ∧ (∀ (s : State) (c : Nat), s.barGate = 1 → c < 4 → ∃ t, exec (.fltLoRead c) s = .next t
      ∧ t.rd (Reg.FLT_AV_GOOD_HI + 8 * c) = wN (s.avOf c / 2 ^ 32) ∧ RegsBut [Reg.FLT_AV_GOOD_HI + 8 * c] s t ∧ { t with regs := s.regs } = s)
  ∧ (∀ (s : State) (off : Nat) (w : Word), s.barGate = 1 → off % 4 = 0 → off < 0x90000 → off % 0x800 / 4 < 384 → ∃ t,
      exec (.apertureWrite off w none true) s = .next t
      ∧ (nodeWordOk w = true → s.shadowLock = false → smGet t.thk.shd (nodeKey (off % 0x800 / 4) (off / 0x800)) 0 = w
          ∧ (∀ k, k ≠ nodeKey (off % 0x800 / 4) (off / 0x800) → smGet t.thk.shd k 0 = smGet s.thk.shd k 0)
          ∧ { t with thk := { t.thk with shd := s.thk.shd } } = s)
      ∧ (nodeWordOk w = false → t.fld Fl.THK_AP_STATUS.BAD = 1 ∧ t.thk = s.thk)
      ∧ (nodeWordOk w = true → s.shadowLock = true → t.fld Fl.THK_AP_STATUS.DISCARD = 1 ∧ t.thk = s.thk)
      ∧ RegsBut [Reg.THK_AP_STATUS, Reg.THK_AP_FIRST] s t ∧ { t with thk := s.thk, blz := s.blz, regs := s.regs } = s)

/-- NOP writes back the tick in which it was picked up, its operand where it is timed, and changes nothing else; Firebreak
does not hold it. A failed ring-memory DMA puts a running ring into error as LOST with HST_ERR_RING, one of the consumer
page sets CP_FAIL; one of a stream's buffer, a frame, a frame buffer or a running transfer ends its descriptor with a LOST
write-back, and no DRAM byte outside the moved bytes changes. HST_NUDGE counts, or wakes like a BAR access in Glade. Link
down, bus master off and PERST_N set HST_ERR.LINK and TWB_ALERT.LINK and are logged, but not asleep, waking or in a held
entry; PERST_N also puts every ring off, clears DB_EN and every wait, and the commands under way then complete without a
write-back (R342). Asleep, PERST_N release, and in Glade a BAR access and, where armed, L1.2 exit start the exit. NET_PPS
raises the pin of its function for 10 ms; the pulse ends at its DT. -/
def Obligations.LinkEventsComplete : Prop :=
  (∀ (s : State) (h : Hdr) (k : TS), h.rsv = false → h.late ≠ 3 → s.ringType (ringOf h) = 0 → h.timed = false ∨ h.target = s.time.ts →
    exec (.nop ⟨h, k⟩) s = .next (State.finish h 0x0A01 false ⟨s, .ok, if h.timed then k else s.time.ts - 2, 0, 0, false, false⟩))
  ∧ (∀ (s : State) (moved : Nat) (rm : Bool) (data : List Byte), ∃ t, exec (.hostDmaFail 64 moved rm data) s = .next t
      ∧ t.fld Fl.HST_ERR.CP_FAIL = 1 ∧ RegsBut [Reg.HST_ERR] s t ∧ { t with host := s.host, regs := s.regs } = s)
  ∧ (∀ (s : State) (n moved : Nat) (data : List Byte), n < 64 → (s.ring n).state = .running → ∃ t, exec (.hostDmaFail n moved true data) s = .next t
      ∧ (t.ring n).state = .error ∧ (t.ring n).code = .lost ∧ t.fld Fl.HST_ERR.RING_ERR = 1
      ∧ (s.flag Fl.HST_ERR.RING_ERR = false → t.rd Reg.HST_ERR_RING = wN n)
      ∧ (s.ringType n ≠ 1 → ∀ m, m ≠ n → t.ring m = s.ring m)
      ∧ RegsBut wbRegs s t ∧ { t with host := s.host, blz := s.blz, regs := s.regs } = s)
  ∧ (∀ (s : State) (n moved : Nat) (data : List Byte) (d : StreamDesc), n < 64 →
      s.ringType n = 2 ∧ (s.ring n).queue.find? (fun x => !x.ended && !x.bufOk) = some d
        ∨ s.ringType n = 3 ∧ (s.ring n).queue.find? (fun x => !x.ended && (frameAt x s.time.ts).isSome) = some d →
    ∃ t, exec (.hostDmaFail n moved false data) s = .next t
      ∧ ((t.ring n).queue.filter (fun x => !x.ended)).length < ((s.ring n).queue.filter (fun x => !x.ended)).length
      ∧ WrittenBack .lost d.hdr s t ∧ RegsBut wbRegs s t ∧ { t with host := s.host, blz := s.blz, regs := s.regs } = s)
  ∧ (∀ (s : State) (n moved : Nat) (data : List Byte) (b : NetBuf) (l : List NetBuf), n < 64 →
      s.ringType n = 4 ∧ (s.ring n).ntx = b :: l ∨ s.ringType n = 5 ∧ (s.ring n).nrx = b :: l ∧ s.cplOf b.hdr.ring ≠ n →
    ∃ t, exec (.hostDmaFail n moved false data) s = .next t
      ∧ (s.ringType n = 4 → (t.ring n).ntx = l) ∧ (s.ringType n = 5 → (t.ring n).nrx.length ≤ l.length)
      ∧ WrittenBack .lost b.hdr s t ∧ RegsBut wbRegs s t ∧ { t with host := s.host, blz := s.blz, regs := s.regs } = s)
  ∧ (∀ (s : State) (n moved : Nat) (data : List Byte) (b : BlkXfer) (l : List BlkXfer), n < 64 → s.ringType n = 7 → (s.ring n).blk = b :: l →
      b.running = true → DramWf s → ∃ t, exec (.hostDmaFail n moved false data) s = .next t
      ∧ (t.ring n).blk.length ≤ l.length ∧ WrittenBack .lost b.hdr s t
      ∧ (∀ a, a < b.p.dram.toNat ∨ b.p.dram.toNat + moved ≤ a → memGet t.dram a = memGet s.dram a)
      ∧ RegsBut wbRegs s t ∧ { t with dram := s.dram, host := s.host, blz := s.blz, regs := s.regs } = s)
  ∧ (∀ (s : State) (dt : DT), (s.pwr.state = .awake ∨ s.pwr.state = .shade → exec (.hstNudge dt) s = .next ((s.advance dt).bump Reg.HST_NUDGE_CNT))
      ∧ (s.pwr.state = .glade → exec (.hstNudge dt) s = exec (.barAccessInGlade dt) s))
  ∧ (∀ (s : State) (l2 : Bool) (dt : DT), s.host.speed ≠ 0 → ∃ t, exec (.pcieLinkDown l2 dt) s = .next t
      ∧ t.host.speed = 0 ∧ t.host.width = 0 ∧ t.host.rings = s.host.rings
      ∧ (s.pwr.state ∉ [.glade, .clearing, .moss, .waking] → s.linkHold = false → t.fld Fl.HST_ERR.LINK = 1 ∧ t.fld Fl.TWB_ALERT.LINK = 1
          ∧ t.blz = (s.logAt Src.HST 0xA002 4 dt (wN 0) 0 0).blz)
      ∧ (s.pwr.state ∈ [.glade, .clearing, .moss, .waking] ∨ s.linkHold = true → t.regs = s.regs ∧ t.blz = s.blz)
      ∧ RegsBut [Reg.HST_ERR, Reg.TWB_ALERT] s t ∧ { t with host := s.host, twb := s.twb, blz := s.blz, regs := s.regs } = s.advance dt)
  ∧ (∀ (s : State) (dt : DT), s.host.bme = true → ∃ t, exec (.busMasterDisable dt) s = .next t
      ∧ t.host.bme = false ∧ t.host.rings = s.host.rings
      ∧ (s.pwr.state ∉ [.glade, .clearing, .moss, .waking] → s.linkHold = false → t.fld Fl.HST_ERR.LINK = 1 ∧ t.fld Fl.TWB_ALERT.LINK = 1
          ∧ t.blz = (s.logAt Src.HST 0xA002 4 dt (wN 1) 0 0).blz)
      ∧ (s.pwr.state ∈ [.glade, .clearing, .moss, .waking] ∨ s.linkHold = true → t.regs = s.regs ∧ t.blz = s.blz)
      ∧ RegsBut [Reg.HST_ERR, Reg.TWB_ALERT] s t ∧ { t with host := s.host, twb := s.twb, blz := s.blz, regs := s.regs } = s.advance dt)
  ∧ (∀ (s : State) (speed width : Nat) (dt : DT), 1 ≤ speed → speed ≤ 3 → 1 ≤ width → width ≤ 2 → s.host.perst = false →
    ∃ t, exec (.pcieLinkUp speed width dt) s = .next t
      ∧ t.host = { s.host with speed := speed, width := width } ∧ t.pwr = { s.pwr with wakeN := false }
      ∧ t.blz = ((s.advance dt).log Src.HST 0xA003 2 (wN speed) (wN width) 0).blz
      ∧ RegsBut [] s t ∧ { t with host := s.host, pwr := s.pwr, blz := s.blz, regs := s.regs } = s.advance dt)
  ∧ (∀ s : State, s.host.perst = false → exec .busMasterEnable s = .next { s with host := { s.host with bme := true } })
  ∧ (∀ (s : State) (dt : DT), s.host.perst = false → ∃ t, exec (.perstAssert dt) s = .next t
      ∧ t.host.perst = true ∧ t.host.speed = 0 ∧ t.host.bme = false ∧ t.fld Fl.HST_CTRL.DB_EN = 0
      ∧ (s.pwr.state ∉ [.glade, .clearing, .moss, .waking] → s.linkHold = false → t.fld Fl.HST_ERR.LINK = 1 ∧ t.fld Fl.TWB_ALERT.LINK = 1)
      ∧ (∀ n, (t.ring n).state = .off ∧ (t.ring n).queue = []) ∧ (∀ p ∈ s.host.rings, p.1 < 64 → t.ringEn p.1 = false)
      ∧ t.host.waits = [] ∧ t.host.heldWb = []
      ∧ (∀ p ∈ t.host.commit ++ t.host.pend ++ t.host.picked, ∀ (u : State) op st ts d r0 r1 r2 f, u.complete p.hdr op st ts d r0 r1 r2 f = u)
      ∧ t.dram = s.dram ∧ t.thk = s.thk ∧ t.blz.store = s.blz.store ∧ t.time = (s.advance dt).time ∧ t.pending = s.pending)
  ∧ (∀ (s : State) (dt : DT), s.host.perst = true →
      (s.pwr.sleep = none → exec (.perstRelease dt) s = .next ({ s.advance dt with host := { s.host with perst := false } }))
      ∧ (∀ z, s.pwr.sleep = some z → s.pwr.state ∈ [.glade, .clearing, .moss] → s.pwr.failed = false → ∃ t, exec (.perstRelease dt) s = .next t
          ∧ t.host = { s.host with perst := false } ∧ t.pwr.state = .waking ∧ t.pwr.step = 1 ∧ t.pwr.left = z.chosen
          ∧ bitN (t.rd Reg.WAK_LATCH).toNat 2 = true ∧ RegsBut [Reg.WAK_LATCH] s t))
  ∧ (∀ (s : State) (dt : DT) (z : SleepSt), s.pwr.state = .glade → s.pwr.sleep = some z → z.chosen = 2 → s.pwr.failed = false →
    ∃ t, exec (.barAccessInGlade dt) s = .next t
      ∧ t.pwr.state = .waking ∧ t.pwr.step = 1 ∧ t.pwr.left = 2 ∧ bitN (t.rd Reg.WAK_LATCH).toNat 2 = true
      ∧ (bitN z.arm.toNat 2 = true → exec (.pcieL12Exit dt) s = .next { t with pwr := { t.pwr with wake := some (wakeKeep s.pwr.wake ⟨2, 2, dt, false⟩) } })
      ∧ (bitN z.arm.toNat 2 = false → exec (.pcieL12Exit dt) s = .next (s.advance dt))
      ∧ RegsBut [Reg.WAK_LATCH] s t ∧ { t with pwr := s.pwr, regs := s.regs } = s.advance dt)
  ∧ (∀ (s : State) (dt : DT) (n : Nat), s.time.net.valid = true →
      mapRead s.time.net dt % 1000000000 ≤ 41 ∨ 1000000000 - 41 ≤ mapRead s.time.net dt % 1000000000 →
      (List.range 16).find? (fun m => s.fld (Fl.PIN_GPIO_CFG.FUNC m) == 3 && s.fld (Fl.PIN_GPIO_CFG.SEL m) == 0) = some n →
    ∃ t, exec (.netPps dt) s = .next t
      ∧ smGet? t.pin.high n = some (dt + 10000000) ∧ (∀ m, m ≠ n → smGet? t.pin.high m = smGet? s.pin.high m) ∧ { t with pin := s.pin } = s.advance dt)
  ∧ (∀ (s : State) (n : Nat) (dt d : DT), smGet? s.pin.high n = some d → d.toNat ≤ dt.toNat → ∃ t, exec (.gpioPulseEnd n dt) s = .next t
      ∧ smGet? t.pin.high n = none ∧ (∀ m, m ≠ n → smGet? t.pin.high m = smGet? s.pin.high m) ∧ { t with pin := s.pin } = s.advance dt)

/-- STATUS, IDENT, DT and ALERT answer their bytes after the status byte, the lowest byte first, in every power state. The
pointers read back what was written; while the core is down a read answers BUSY with 0xFF and a write sets LAST to BUSY.
REG_DATA answers the addressed register; the HWD block is DENIED, a misaligned or MSI-X offset INVALID, a write outside TWB
under the lock DENIED and counted. LOG_READ answers at most seven records of the store with consecutive numbers, DUMP_READ
at most 224 bytes or LOST. Every one disarms RECOVER; no other block changes. -/
def Obligations.TargetReadsComplete : Prop :=
  (∀ (s : State) (tx : Tx), s.twbOn = true → ∃ t u v w, exec (.status tx) s = .next t ∧ exec (.ident tx) s = .next u
    ∧ exec (.dt tx) s = .next v ∧ exec (.alert tx) s = .next w
    ∧ t.twb.resp = onWire s 0x00 (0 :: (s.twbBegin 0x00 tx.dt).statusBytes) ∧ u.twb.resp = onWire s 0x01 [0, 0x20, 0x93, 0x57, 0x4B]
    ∧ v.twb.resp = onWire s 0x02 (0 :: (List.range 8).map (fun i => (s.advance tx.dt).time.dt.extractLsb' (8 * i) 8))
    ∧ w.twb.resp = onWire s 0x03 (0 :: le32 (s.rd Reg.TWB_ALERT))
    ∧ (∀ x ∈ [t, u, v, w], x.twb.armed = none ∧ x.twb.last = s.twb.last ∧ { x with twb := s.twb } = s.advance tx.dt))
  ∧ (∀ (s : State) (x : Word) (tx : Tx), s.twbOn = true → s.twbCore = true → tx.complete = true →
      (s.pecBad 0x08 (le32 x) tx = false → ∃ t, exec (.regAddr (some x) tx) s = .next t ∧ t.twb.last = .ok ∧ t.twb.armed = none
        ∧ t.twb.regAddr = x ∧ t.twb.logPtr = s.twb.logPtr ∧ t.twb.dumpPtr = s.twb.dumpPtr ∧ { t with twb := s.twb } = s.advance tx.dt)
      ∧ (s.pecBad 0x0C (le32 x) tx = false → ∃ t, exec (.logPtr (some x) tx) s = .next t ∧ t.twb.last = .ok ∧ t.twb.armed = none
        ∧ t.twb.logPtr = x ∧ t.twb.regAddr = s.twb.regAddr ∧ t.twb.dumpPtr = s.twb.dumpPtr ∧ { t with twb := s.twb } = s.advance tx.dt)
      ∧ (s.pecBad 0x0D (le32 x) tx = false → ∃ t, exec (.dumpPtr (some x) tx) s = .next t ∧ t.twb.last = .ok ∧ t.twb.armed = none
        ∧ t.twb.dumpPtr = x ∧ t.twb.regAddr = s.twb.regAddr ∧ t.twb.logPtr = s.twb.logPtr ∧ { t with twb := s.twb } = s.advance tx.dt))
  ∧ (∀ (s : State) (tx : Tx), s.twbOn = true → s.twbCore = true →
    ∃ t u v, exec (.regAddr none tx) s = .next t ∧ exec (.logPtr none tx) s = .next u ∧ exec (.dumpPtr none tx) s = .next v
      ∧ t.twb.resp = onWire s 0x08 (0 :: le32 s.twb.regAddr) ∧ u.twb.resp = onWire s 0x0C (0 :: le32 s.twb.logPtr)
      ∧ v.twb.resp = onWire s 0x0D (0 :: le32 s.twb.dumpPtr)
      ∧ (∀ y ∈ [t, u, v], y.twb.armed = none ∧ { y with twb := s.twb } = s.advance tx.dt))
  ∧ (∀ (s : State) (x : Word) (tx : Tx), s.twbOn = true → s.twbCore = false →
    ∃ t u, exec (.regAddr none tx) s = .next t ∧ exec (.regAddr (some x) tx) s = .next u
      ∧ t.twb.resp = onWire s 0x08 [9, 0xFF, 0xFF, 0xFF, 0xFF] ∧ { t with twb := s.twb } = s.advance tx.dt
      ∧ (tx.complete = true → s.pecBad 0x08 (le32 x) tx = false →
          u.twb.last = .busy ∧ u.twb.regAddr = s.twb.regAddr ∧ { u with twb := s.twb } = s.advance tx.dt))
  ∧ (∀ (s : State) (x : Word) (tx : Tx), s.twbOn = true → s.twbCore = true → tx.complete = true → s.pecBad 0x09 (le32 x) tx = false →
    let off := s.twb.regAddr.toNat
    let w := (s.twbBegin 0x09 tx.dt).regWrite .target off x
    ∃ t, exec (.regData (some x) tx) s = .next t
      ∧ (twbOffBad off = true → t.twb.last = .invalid ∧ t.regs = s.regs)
      ∧ (twbOffBad off = false → inHwd off = true → t.twb.last = .denied ∧ t.regs = s.regs)
      ∧ (twbOffBad off = false → inHwd off = false → s.locked = true → inTwb off = false →
          t.twb.last = .denied ∧ t.rd Reg.TOP_LOCKED_WRCNT = satInc (s.rd Reg.TOP_LOCKED_WRCNT) 1 ∧ RegsBut [Reg.TOP_LOCKED_WRCNT] s t)
      ∧ (twbOffBad off = false → inHwd off = false → s.locked = false → ownRule off = false →
          t.twb.last = (if w.bad then .invalid else .ok) ∧ t.rd off = w.st.rd off ∧ RegsBut [off] s t
          ∧ t.twb.regAddr = (if t.flag Fl.TWB_CTRL.AINC then s.twb.regAddr + 4 else s.twb.regAddr)
          ∧ { t with twb := s.twb, regs := s.regs } = s.advance tx.dt))
  ∧ (∀ (s : State) (tx : Tx), s.twbOn = true → s.twbCore = true →
    let off := s.twb.regAddr.toNat
    ∃ t, exec (.regData none tx) s = .next t
      ∧ (twbOffBad off = true → ∃ x, t.twb.resp = onWire s 0x09 (5 :: le32 x) ∧ t.regs = s.regs)
      ∧ (twbOffBad off = false → inHwd off = true → t.twb.resp = onWire s 0x09 [6, 0, 0, 0, 0] ∧ t.regs = s.regs)
      ∧ (twbOffBad off = false → inHwd off = false → t.twb.resp = onWire s 0x09 (0 :: le32 ((s.twbBegin 0x09 tx.dt).targetRead off)))
      ∧ t.twb.regAddr = (if s.readDone tx && s.flag Fl.TWB_CTRL.AINC then s.twb.regAddr + 4 else s.twb.regAddr)
      ∧ RegsBut [Reg.FLT_AV_GOOD_HI, Reg.FLT_AV_BAD_HI, Reg.FLT_AV_EXT_HI, Reg.FLT_AV_HOST_HI] s t
      ∧ { t with twb := s.twb, free := s.free, regs := s.regs } = s.advance tx.dt)
  ∧ (∀ (s : State) (tx : Tx), s.twbOn = true → s.twbCore = true → ∃ t l skip next, exec (.logRead tx) s = .next t
      ∧ s.logRecords s.twb.logPtr = (l, skip) ∧ l.length ≤ 7 ∧ (∀ r ∈ l, r ∈ s.blz.store)
      ∧ (∀ i a b, l[i]? = some a → l[i + 1]? = some b → b.seq = a.seq + 1)
      ∧ next = (match l.getLast? with | some r => r.seq + 1 | none => s.twb.logPtr)
      ∧ t.twb.logPtr = (if s.readDone tx then next else s.twb.logPtr)
      ∧ t.twb.resp = onWire s 0x40 (byteN (8 + 32 * l.length) :: 0 :: (le32 next ++ [byteN l.length, byteN (wB skip), 0] ++ l.flatMap recBytes))
      ∧ { t with twb := s.twb } = s.advance tx.dt)
  ∧ (∀ (s : State) (tx : Tx), s.twbOn = true → s.twbCore = true → s.twbPower = 0 → ∃ t, exec (.dumpRead tx) s = .next t
      ∧ (s.dumpHeld = none → t.twb.resp = onWire s 0x41 (8 :: 10 :: (le32 s.twb.dumpPtr ++ [0, 0, 0])) ∧ t.twb.dumpPtr = s.twb.dumpPtr)
      ∧ (∀ d, s.dumpHeld = some d → let n := min 224 (d.total - s.twb.dumpPtr.toNat)
          t.twb.resp = onWire s 0x41 (byteN (n + 8) :: 0 :: (le32 s.twb.dumpPtr ++ [0, 0, 0] ++ (List.range n).map (fun i => d.byte (s.twb.dumpPtr.toNat + i))))
          ∧ t.twb.dumpPtr = (if s.readDone tx then s.twb.dumpPtr + wN n else s.twb.dumpPtr))
      ∧ { t with twb := s.twb } = s.advance tx.dt)

/-- WAKE starts the exit from Glade, Clearing or Moss and is logged; an address match does so where armed. ARM with 0x5A
arms for 10 ms, any other code or transaction disarms. RECOVER right after acts: 1 resets Ranger, 2 the host interface, 3
the device; one not armed, late, or with a bad action is refused, counted and logged, and changes nothing else. The alert
response answers the address, and a won one releases TWB_ALERT_N. An abandoned transaction, a released SDA and a bus timeout
are counted and disarm. -/
def Obligations.TargetCommandsComplete : Prop :=
  (∀ (s : State) (tx : Tx), s.twbOn = true → tx.complete = true → s.pecBad 0xA5 [] tx = false → ∃ t, exec (.wake tx) s = .next t
    ∧ t.twb = { (s.twbBegin 0xA5 tx.dt).twb with last := .ok }
    ∧ (s.pwr.sleep = none → { t with twb := s.twb } = s.advance tx.dt)
    ∧ (∀ z, s.pwr.sleep = some z → s.pwr.failed = false → s.pwr.state = .glade ∨ s.pwr.state = .clearing ∨ s.pwr.state = .moss →
        t.pwr.state = .waking ∧ t.pwr.left = z.chosen ∧ t.pwr.step = 1 ∧ bitN (t.rd Reg.WAK_LATCH).toNat 3 = true
        ∧ t.blz = (s.logAt Src.TWB 0xB006 1 tx.dt 0 (wN (pstateCode s.pwr.state)) 0).blz)
    ∧ RegsBut [Reg.WAK_LATCH] s t ∧ { t with twb := s.twb, pwr := s.pwr, blz := s.blz, regs := s.regs } = s.advance tx.dt)
  ∧ (∀ (s : State) (dt : DT) (z : SleepSt), s.twbOn = true → s.pwr.sleep = some z → s.pwr.failed = false → s.pwr.state = .glade →
    ∃ t, exec (.smbusAddressWake dt) s = .next t
      ∧ (bitN z.arm.toNat 3 = false → t = s.advance dt) ∧ (bitN z.arm.toNat 3 = true → t.pwr.state = .waking)
      ∧ RegsBut [Reg.WAK_LATCH] s t ∧ { t with pwr := s.pwr, blz := s.blz, regs := s.regs } = s.advance dt)
  ∧ (∀ (s : State) (code : BitVec 8) (tx : Tx), s.twbOn = true → tx.complete = true → s.pecBad 0xF1 [code] tx = false → ∃ t, exec (.arm code tx) s = .next t
      ∧ t.twb.armed = (if code = 0x5A then some (s.advance tx.dt).time.dt else none) ∧ t.twb.last = .ok
      ∧ { t with twb := s.twb } = s.advance tx.dt)
  ∧ (∀ (s : State) (dt a : DT), s.twb.armed = some a → a.toNat + 10000000 < dt.toNat → ∃ t, exec (.armExpire dt) s = .next t
      ∧ t.twb = { s.twb with armed := none, ranOut := true } ∧ { t with twb := s.twb } = s.advance dt)
  ∧ (∀ (s : State) (action : BitVec 8) (tx : Tx), s.twbOn = true → tx.complete = true → s.pecBad 0xF0 [action] tx = false →
      (s.twb.armed = none ∨ (∃ a, s.twb.armed = some a ∧ a.toNat + 10000000 < ((s.advance tx.dt).time.dt).toNat) ∨ action = 0 ∨ 3 < action.toNat) →
    ∃ t, exec (.recover action tx) s = .next t
      ∧ t.rd Reg.TWB_RCVCNT = satInc (s.rd Reg.TWB_RCVCNT) 1 ∧ t.twb.armed = none ∧ t.twb.recover = s.twb.recover
      ∧ RegsBut [Reg.TWB_RCVCNT] s t ∧ { t with twb := s.twb, blz := s.blz, regs := s.regs } = s.advance tx.dt)
  ∧ (∀ (s : State) (a : DT) (tx : Tx), s.twbOn = true → tx.complete = true → s.twb.armed = some a →
      ((s.advance tx.dt).time.dt).toNat ≤ a.toNat + 10000000 →
      (s.pecBad 0xF0 [1] tx = false → ∃ t, exec (.recover 1 tx) s = .next t
        ∧ t.flt.reload = true ∧ t.twb.last = .ok ∧ t.host = s.host ∧ t.dram = s.dram)
      ∧ (s.pecBad 0xF0 [2] tx = false → ∃ t, exec (.recover 2 tx) s = .next t ∧ t.twb.last = .ok
        ∧ t.host.waits = [] ∧ (∀ n, (t.ring n).state = .off) ∧ t.fld Fl.HST_CTRL.DB_EN = 0 ∧ t.thk = s.thk ∧ t.dram = s.dram
        ∧ t.time = (s.advance tx.dt).time)
      ∧ (s.pecBad 0xF0 [3] tx = false → ∃ t, exec (.recover 3 tx) s = .next t
        ∧ t.fld Fl.TOP_RESET.KIND = 2 ∧ t.dram = s.dram ∧ t.blz.store = s.blz.store ∧ t.time.running = false ∧ t.hwd.keys = []))
  ∧ (∀ (s : State) (won : Bool), s.twbOn = true → s.twb.alertN = true → s.flag Fl.TWB_CTRL.ARA_EN = true → ∃ t, exec (.alertResponse won) s = .next t
      ∧ t.twb = { s.twb with resp := [byteN (2 * (0x58 + s.twb.sel.toNat))], alertN := !won } ∧ { t with twb := s.twb } = s)
  ∧ (∀ (s : State) (cmd : BitVec 8) (dt : DT), s.twbOn = true →
    ∃ t u, exec (.twbAbandon cmd dt) s = .next t ∧ exec (.twbSdaRelease cmd) s = .next u
      ∧ (∀ y ∈ [t, u], y.rd Reg.TWB_ABANDONCNT = satInc (s.rd Reg.TWB_ABANDONCNT) 1 ∧ y.twb.armed = none ∧ y.twb.lastCmd = cmd
          ∧ RegsBut [Reg.TWB_ABANDONCNT] s y)
      ∧ { t with twb := s.twb, blz := s.blz, regs := s.regs } = s.advance dt
      ∧ { u with twb := s.twb, blz := s.blz, regs := s.regs } = s.advance s.time.dt)
  ∧ (∀ (s : State) (sda : Bool) (cmd : BitVec 8) (dt : DT), s.twbOn = true → ∃ t, exec (.twbBusTimeout sda cmd dt) s = .next t
      ∧ t.rd Reg.TWB_TOCNT = satInc (s.rd Reg.TWB_TOCNT) 1
      ∧ (sda = true ∨ cmd ≠ 0xFF → t.twb.armed = none ∧ t.rd Reg.TWB_ABANDONCNT = satInc (s.rd Reg.TWB_ABANDONCNT) 1)
      ∧ (sda = false → cmd = 0xFF → t.twb = s.twb)
      ∧ RegsBut [Reg.TWB_TOCNT, Reg.TWB_ABANDONCNT] s t ∧ { t with twb := s.twb, blz := s.blz, regs := s.regs } = s.advance dt)

/-- An accepted PERF_LEVEL that lowers moves the level at its boundary, one that raises sets P the stated ticks on, and at P
the level is the target; naming the level in force changes nothing (R384, R385). SLEEP chooses the deepest state that is
eligible, fits and is not barred by a running ramp, or none and completes at once; else the vote starts with the host rings
(R29, R390, R392). At its tick a turn votes yes and the next follows, or, when the state no longer fits or a ramp bars it
(reason 9) or its own condition holds, counts and logs the refusal and the rollback starts one tick later (R394, R395). The
converters first ramp for 32 ticks. The link's hold ends with the link away or after LINK_WAIT (R393). -/
def Obligations.PerfAndSleep : Prop :=
  (∀ (s : State) (h : Hdr) (level : Nat), Ready s h → perfLevelValid level = true → perfLevelRefusal s level = .ok →
    ∃ t, exec (.perfLevel h level) s = .next t
      ∧ (level = s.pwr.level → t.pwr = s.pwr)
      ∧ (s.pwr.level < level → t.pwr = { s.pwr with level := level, target := level, settle := true })
      ∧ (level < s.pwr.level → t.pwr = { s.pwr with target := level, raiseAt := some (s.time.ts + BitVec.ofNat 32 (raiseTk s.clk.rate)), settle := true })
      ∧ RegsBut wbRegs s t ∧ { t with pwr := s.pwr, host := s.host, blz := s.blz, regs := s.regs } = s)
  ∧ (∀ (s : State) (p : TS), s.pwr.raiseAt = some p → ∃ t, exec .levelRaiseSwitch s = .next t
      ∧ (0 ≤ tsDiff s.time.ts p → t = { s with pwr := { s.pwr with level := s.pwr.target, raiseAt := none } })
      ∧ (tsDiff s.time.ts p < 0 → t = s))
  ∧ (∀ s : State, exec .vsettleEnd s = .next { s with pwr := { s.pwr with settle := false } })
  ∧ (∀ (s : State) (h : Hdr) (p : SleepP), Ready s h → sleepValid s p = true → sleepRefusal s = .ok →
    let next := (s.nextKnown s.time.ts s.time.bdt (if p.hasUntil then some p.untilDt else none)).1
    let fits : Nat → Prop := fun c => s.stateEligible c p.maxState = true ∧ s.stateFits c (s.entryDt s.time.ts s.time.bdt 0) next = true
      ∧ s.rampBars c (s.entryDt s.time.ts s.time.bdt 0) s.time.ts s.time.bdt (s.convRamps true ++ s.engineRamps) = false
    ∃ t, exec (.sleep h p) s = .next t
      ∧ ((∀ c, 1 ≤ c → c ≤ 4 → ¬ fits c) → t.pwr = s.pwr ∧ t.lsn = s.lsn)
      ∧ (∀ c, 1 ≤ c → c ≤ 4 → fits c → (∀ d, c < d → d ≤ 4 → ¬ fits d) → t.pwr.state = .entering ∧ t.pwr.wake = none ∧
          ∃ z, t.pwr.sleep = some z ∧ z.hdr = h ∧ z.chosen = c ∧ z.t = s.time.ts ∧ z.turn = 1 ∧ z.hold = 0 ∧ z.holding = decide (3 ≤ c)
            ∧ z.early = decide (3 ≤ c) ∧ z.back = none ∧ z.arm = s.rd Reg.WAK_ARM ∧ z.armSap = s.rd Reg.WAK_SAP ∧ z.armGpio = s.rd Reg.WAK_GPIO)
      ∧ t.rd64 Reg.PWR_NEXT_LO Reg.PWR_NEXT_HI = next.getD 0xFFFFFFFFFFFFFFFF
      ∧ RegsBut (Reg.PWR_NEXT_LO :: Reg.PWR_NEXT_HI :: wbRegs) s t
      ∧ { t with pwr := s.pwr, lsn := s.lsn, host := s.host, blz := s.blz, regs := s.regs } = s)
  ∧ (∀ (s : State) (z : SleepSt), s.pwr.sleep = some z → s.pwr.state = .entering → z.holding = false → z.turn < 7 →
      (turnTk z.turn : Int) ≤ tsDiff s.time.ts (z.t + BitVec.ofNat 32 z.hold) → ¬ (z.turn = 5 ∧ z.convOn = true) →
    let n := s.nextKnown z.t z.tdt z.untilDt
    let y : SleepSt := { z with next := n.1, nextSrc := n.2 }
    let te := s.entryDt z.t z.tdt z.hold
    let r := if s.stateFits z.chosen te n.1 && !s.rampBars z.chosen te z.t z.tdt (s.convRamps false) then s.voteReason z else 9
    ∃ t, exec .sleepVoteTurn s = .next t
      ∧ (r = 0 → z.turn ≠ 5 → t.pwr = { s.pwr with sleep := some { y with turn := z.turn + 1 } } ∧ RegsBut [Reg.MEM_STATUS] s t
          ∧ (z.turn = 4 → t.inter = [] ∧ t.inter2 = [])
          ∧ { t with pwr := s.pwr, inter := s.inter, interOld := s.interOld, inter2 := s.inter2, regs := s.regs } = s)
      ∧ (r = 0 → z.turn = 5 → t.pwr = { s.pwr with sleep := some { y with convOn := true } }
          ∧ (∀ i, i < 12 → (t.aoutCh i).state = facGo (s.aoutCh i).state 0 32)
          ∧ { t with pwr := s.pwr, aout := s.aout, spk := s.spk } = s)
      ∧ (r ≠ 0 → t.pwr = { s.pwr with state := .rolling, sleep := some { y with back := some ⟨s.time.ts + 1, z.turn - 1, r, z.turn - 1⟩ } }
          ∧ t.rd Reg.PWR_ABORTCNT = satInc (s.rd Reg.PWR_ABORTCNT) 1
          ∧ t.rd (Reg.PWR_REFUSE (z.turn - 1)) = satInc (s.rd (Reg.PWR_REFUSE (z.turn - 1))) 1
          ∧ t.rd Reg.PWR_LAST_REFUSE = wN (z.turn - 1 + 256 * z.chosen + 65536 * r) ∧ t.rd Reg.PWR_LAST_REFUSE_TS32 = s.time.ts
          ∧ t.blz = (s.log Src.PWR 0x2004 2 (wN (z.turn - 1)) (wN r) (wN z.chosen)).blz
          ∧ RegsBut [Reg.PWR_ABORTCNT, Reg.PWR_REFUSE (z.turn - 1), Reg.PWR_LAST_REFUSE, Reg.PWR_LAST_REFUSE_TS32] s t
          ∧ { t with pwr := s.pwr, blz := s.blz, regs := s.regs } = s))
  ∧ (∀ (s : State) (z : SleepSt), s.pwr.sleep = some z → s.pwr.state = .entering → z.holding = false → z.turn = 5 → z.convOn = true →
      4 ≤ tsDiff s.time.ts (z.t + BitVec.ofNat 32 z.hold) →
    ∃ t, exec .sleepVoteTurn s = .next t
      ∧ (tsDiff s.time.ts (z.t + BitVec.ofNat 32 z.hold) < 36 → t = s)
      ∧ (36 ≤ tsDiff s.time.ts (z.t + BitVec.ofNat 32 z.hold) → t = { s with pwr := { s.pwr with sleep := some { z with turn := 6 } } }))
  ∧ (∀ (s : State) (z : SleepSt) (away : Bool), s.pwr.sleep = some z → z.holding = true →
      (away = true → s.host.speed = 0) → (away = false → z.tdt.toNat + s.fld Fl.PWR_SLEEP_CFG.LINK_WAIT * 1000000 ≤ s.time.dt.toNat) →
    exec (.sleepLinkHoldEnd away) s
      = .next { s with pwr := { s.pwr with sleep := some { z with holding := false, hold := (tsDiff s.time.ts z.t).toNat } } })

/-- Hardware entry counts, stops the house clock except for Shade, and erases keys before Clearing and Moss; its end leaves
the chosen state, or starts the exit if a source was latched (R392, R396). A GPIO, port or timer source that is armed
latches during entry, ends Shade, and starts the exit from a deeper state; one not armed does nothing (R398, R400). A step
of the exit that is ready starts the next; step 4 locks the PLL, places the boundary, keeps every register of a bank that
passed, and resets what no bank holds (R401, R406). A step four times over its limit restarts the exit, a second run stops
with WAKE_FAIL (R402). The wake boundary, at the DT of its virtual boundary, and the end of Shade report the wake. -/
def Obligations.EntryWakeAndExit : Prop :=
  (∀ (s : State) (z : SleepSt) (dt : DT), s.pwr.sleep = some z → s.pwr.state = .entering → z.turn = 7 → 1 ≤ z.chosen → z.chosen ≤ 4 →
      38 ≤ tsDiff s.time.ts (z.t + BitVec.ofNat 32 z.hold) →
    ∃ t, exec (.hardwareEntry dt) s = .next t
      ∧ t.pwr.sleep = some { z with turn := 8, entry := dt } ∧ t.pwr.state = .entering
      ∧ t.rd (Reg.PWR_ENTERCNT1 (z.chosen - 1)) = satInc (s.rd (Reg.PWR_ENTERCNT1 (z.chosen - 1))) 1
      ∧ (z.chosen = 1 → t.time = (s.advance dt).time ∧ t.clk = s.clk)
      ∧ (2 ≤ z.chosen → t.time.running = false ∧ t.time.ts = s.time.ts ∧ t.time.lastTs = s.time.ts ∧ t.time.lastDt = s.time.bdt
          ∧ t.clk = { s.clk with lock := false } ∧ t.pwr.saved = true)
      ∧ t.hwd.keys = (if 3 ≤ z.chosen then [] else s.hwd.keys) ∧ t.dram = (if z.chosen = 4 then [] else s.dram)
      ∧ (3 ≤ z.chosen → s.lsn.mode = .running → t.lsn.mode = .suspended) ∧ (z.chosen ≤ 2 → t.lsn = s.lsn)
      ∧ t.spk = { s.spk with bst := if z.chosen ≤ 2 then s.spk.pvdd else 0, target := 8000 }
      ∧ RegsBut ([Reg.PWR_ENTERCNT1 (z.chosen - 1), Reg.WAK_LSN_LAST_DT_LO, Reg.WAK_LSN_LAST_DT_HI, Reg.WAK_LSN_LAST_INFO, Reg.WAK_LSN_DETCNT] ++ wbRegs) s t
      ∧ { t with time := s.time, clk := s.clk, host := s.host, pwr := s.pwr, hwd := s.hwd, lsn := s.lsn, pin := s.pin, dram := s.dram, flt := s.flt, spk := s.spk, blz := s.blz, regs := s.regs } = s)
  ∧ (∀ (s : State) (z : SleepSt) (dt : DT), s.pwr.sleep = some z → s.pwr.state = .entering → z.turn = 8 →
      z.entry.toNat + 1000 * entryUs z.chosen ≤ dt.toNat →
    ∃ t, exec (.hardwareEntryEnd dt) s = .next t
      ∧ t.pwr.sleep = some { z with ready := true } ∧ t.pwr.stepDt = dt
      ∧ (s.pwr.wake.isSome = true → z.chosen ≠ 1 → t.pwr.state = .waking ∧ t.pwr.left = z.chosen ∧ t.pwr.step = 1 ∧ t.pwr.run = 1)
      ∧ (s.pwr.wake = none ∨ z.chosen = 1 → t.pwr.state = stateOf z.chosen) ∧ { t with pwr := s.pwr } = s.advance dt)
  ∧ (∀ (s : State) (z : SleepSt) (c : Instr) (bit num : Nat) (dt : DT), s.pwr.sleep = some z →
      (c = .gpioWakeLevel num dt ∧ bit = 9) ∨ (c = .sapWakeActivity num dt ∧ bit = 4) ∨ (c = .sapWakePattern num dt ∧ bit = 5)
        ∨ (c = .canopyTimer dt ∧ bit = z.nextSrc ∧ num = 0 ∧ 7 ≤ z.turn
            ∧ ∃ e, z.next = some e ∧ e.toNat ≤ dt.toNat + 1000 * (s.fld Fl.PWR_SLEEP_CFG.GUARD + exitUs z.chosen)) →
    ∃ t, exec c s = .next t
      ∧ (wakeActive z z.chosen bit num = false → t = s.advance dt)
      ∧ (s.pwr.state = .awake ∨ s.pwr.state = .rolling ∨ s.pwr.state = .waking → t = s.advance dt)
      ∧ (wakeActive z z.chosen bit num = true → s.pwr.state = .entering →
          t.pwr = { s.pwr with wake := some (wakeKeep s.pwr.wake ⟨bit, num, dt, true⟩) })
      ∧ (wakeActive z z.chosen bit num = true → s.pwr.state = .shade → s.pwr.wake = none → t.pwr =
          { s.pwr with wake := some ⟨bit, num, dt, false⟩, stepDt := dt, sleep := some { z with inNs := dt.toNat - s.pwr.stepDt.toNat } })
      ∧ (wakeActive z z.chosen bit num = true → s.pwr.state = .glade ∨ s.pwr.state = .clearing ∨ s.pwr.state = .moss → s.pwr.failed = false →
          t.pwr = { s.pwr with state := .waking, left := z.chosen, step := 1, run := 1, stepDt := dt, wake := some (wakeKeep s.pwr.wake ⟨bit, num, dt, false⟩), sleep := some { z with inNs := dt.toNat - s.pwr.stepDt.toNat } })
      ∧ (wakeActive z z.chosen bit num = true → s.pwr.state = .entering ∨ s.pwr.state = .shade ∨ s.pwr.state = .glade
          ∨ s.pwr.state = .clearing ∨ s.pwr.state = .moss → t.rd Reg.WAK_LATCH = wN (Nat.lor (s.rd Reg.WAK_LATCH).toNat (2 ^ bit)))
      ∧ RegsBut [Reg.WAK_LATCH] s t ∧ { t with pwr := s.pwr, regs := s.regs } = s.advance dt)
  ∧ (∀ (s : State) (bad : BitVec 12) (ue : Bool) (dt : DT), s.pwr.state = .waking → 1 ≤ s.pwr.step → s.pwr.step < 4 →
    ∃ t, exec (.exitStepReady bad ue dt) s = .next t
      ∧ t.pwr = { s.pwr with step := s.pwr.step + 1, stepDt := dt, lost := if s.pwr.step = 3 ∧ s.pwr.left = 3 ∧ ue = true then s.pwr.lost ||| 0x1000 else s.pwr.lost }
      ∧ { t with pwr := s.pwr } = s.advance dt)
  ∧ (∀ (s : State) (bad : BitVec 12) (ue : Bool) (dt : DT), s.pwr.state = .waking → s.pwr.step = 4 → s.pwr.left ≠ 0 → s.pwr.left ≤ 3 → s.pwr.lost = 0 →
    ∃ t, exec (.exitStepReady bad ue dt) s = .next t
      ∧ t.pwr.step = 5 ∧ t.pwr.lost = BitVec.ofNat 16 bad.toNat ∧ t.pwr.state = .waking ∧ t.clk.lock = true
      ∧ t.time.placed = some (s.time.ts + BitVec.ofNat 32 (virtCeil (s.advance dt) dt)) ∧ t.dram = s.dram
      ∧ (∀ o, o ≠ Reg.MEM_STATUS → logReg o = false → keptAside o = true → t.rd o = s.rd o)
      ∧ (∀ o b, o ≠ Reg.MEM_STATUS → logReg o = false → bankOf o = some b → bitN bad.toNat b = false → t.rd o = s.rd o)
      ∧ (∀ o, o ≠ Reg.MEM_STATUS → logReg o = false → keptAside o = false → (∀ b, bankOf o = some b → bitN bad.toNat b = true) →
          t.rd o = State.reset.rd o)
      ∧ (bad = 0 → s.pwr.left = 2 →
          { t with time := s.time, clk := s.clk, pwr := s.pwr, host := s.host, blz := s.blz, regs := s.regs } = s))
  ∧ (∀ (s : State) (bad : BitVec 12) (ue : Bool) (dt : DT), s.pwr.state = .waking → s.pwr.step = 4 → s.pwr.left = 0 →
    ∃ t, exec (.exitStepReady bad ue dt) s = .next t
      ∧ t.pwr = { s.pwr with state := .awake, step := 0, run := 0 } ∧ t.hwd.running = true ∧ t.hwd.booted = s.hwd.booted
      ∧ { t with pwr := s.pwr, hwd := s.hwd, twb := s.twb, blz := s.blz, free := s.free, regs := s.regs } = s.advance dt)
  ∧ (∀ (s : State) (dt : DT), s.pwr.state = .waking → 1 ≤ s.pwr.step → s.pwr.step ≤ 4 →
      s.pwr.stepDt.toNat + 4000 * stepUs s.pwr.left s.pwr.step ≤ dt.toNat →
    ∃ t, exec (.exitStepTimeout dt) s = .next t
      ∧ (s.pwr.run = 1 → t = { s.advance dt with pwr := { s.pwr with step := 1, run := 2, stepDt := dt } })
      ∧ (s.pwr.run ≠ 1 → t.pwr = { s.pwr with state := if s.pwr.left = 0 then .moss else stateOf s.pwr.left, step := 0, failed := true }
          ∧ t.fld Fl.FLT_FAULT.WAKE_FAIL = 1))
  ∧ (∀ (s : State) (z : SleepSt) (w : TS) (dt : DT), s.pwr.sleep = some z → 1 ≤ z.chosen → z.chosen ≤ 4 →
      s.pwr.state = .waking → s.pwr.step = 5 → s.time.running = false → s.time.placed = some w →
    let d := virtDt s (w - s.time.ts).toNat
    let e : WakeEv := s.pwr.wake.getD ⟨0, 0, d, false⟩
    ∃ t, exec (.wakeBoundary dt) s = .next t
      ∧ t.time.ts = w ∧ t.time.bdt = d ∧ t.time.running = true ∧ t.pwr.state = .awake ∧ t.pwr.sleep = none ∧ t.pwr.wake = none
      ∧ t.rd Reg.PWR_WAKE_STAT = wN (z.chosen + 8 * wB e.early + 16 * wB (s.pwr.run == 2) + 256 * e.bit + 65536 * s.pwr.lost.toNat)
      ∧ t.rd Reg.PWR_WAKE_TS32 = w ∧ t.rd64 Reg.PWR_WAKE_DT_LO Reg.PWR_WAKE_DT_HI = d
      ∧ t.rd64 Reg.PWR_WAKE_SRC_DT_LO Reg.PWR_WAKE_SRC_DT_HI = e.dt)
  ∧ (∀ (s : State) (z : SleepSt) (e : WakeEv) (dt : DT), s.pwr.sleep = some z → z.chosen = 1 → s.pwr.state = .shade → s.pwr.wake = some e →
      let d := (s.advance dt).boundaryDt dt
      s.pwr.stepDt.toNat + 12000 ≤ d.toNat →
    ∃ t, exec (.shadeExit e.bit dt) s = .next t
      ∧ t.time.ts = s.time.ts + 1 ∧ t.time.bdt = d ∧ t.time.running = true ∧ t.pwr.state = .awake ∧ t.pwr.sleep = none
      ∧ t.rd Reg.PWR_WAKE_TS32 = s.time.ts + 1 ∧ t.rd64 Reg.PWR_WAKE_DT_LO Reg.PWR_WAKE_DT_HI = d)

/-- A cold start leaves every register and block at its reset value, with the fuses and the select pins. RESET_N, a lost
core supply and DEV_RESET give a reset of code 1, 3 and 2, which keeps what Tables FT-6 and RG-2 keep and nothing else
(ResetLeaves). The device starts, at step 1 of the exit from Moss, once VSYS, the core supply and VIO2 are valid and RESET_N
is released. A VIO2 loss takes the link and nothing else of the audio; a DRAM supply loss clears READY, and the controller
is ready again once it is enabled with both rails (R543, R544). That the queue of waiting commands outlives a reset is the
model's own. -/
def Obligations.ResetsAndSupplies : Prop :=
  (∀ (s : State) (sel : BitVec 3), s.sup.canopy = false → ∃ t, exec (.coldStart sel) s = .next t
      ∧ t.regs = [] ∧ t.twb.sel = sel ∧ t.hwd = { HwdSt.reset with fuses := s.hwd.fuses } ∧ t.pending = s.pending
      ∧ { t with free := State.reset.free, pending := [], hwd := HwdSt.reset, twb := { t.twb with sel := TwbSt.reset.sel }, sup := { t.sup with resetN := SupSt.reset.resetN } }
          = State.reset)
  ∧ (∀ (s : State) (dt : DT), ∃ t, exec (.resetNAssert dt) s = .next t ∧ ResetLeaves 1 dt s t
      ∧ t.pwr = PwrSt.reset ∧ t.sup = { s.sup with resetN := true })
  ∧ (∀ (s : State) (dt : DT), s.sup.core = true → ∃ t, exec (.coreSupplyLoss dt) s = .next t ∧ ResetLeaves 3 dt s t
      ∧ t.pwr = PwrSt.reset ∧ t.sup = { s.sup with core := false })
  ∧ (∀ (s : State) (canopy : Bool), s.sup.core = true → ∃ t, exec (.vsysLoss canopy) s = .next t ∧ ResetLeaves 3 s.time.dt s t
      ∧ t.sup = { s.sup with vsys := false, core := false, canopy := s.sup.canopy && !canopy })
  ∧ (∀ (s : State) (dt : DT), s.barGate = 1 → ∃ t, exec (.devReset dt) s = .next t ∧ ResetLeaves 2 dt s t ∧ t.sup = s.sup
      ∧ (s.sup.canopy = true → s.sup.core = true → s.sup.vsys = true → s.sup.vio2 = true → s.sup.resetN = false →
          t.pwr = { PwrSt.reset with state := .waking, left := 0, step := 1, run := 1, stepDt := t.time.dt }))
  ∧ (∀ (s : State) (sel : BitVec 3) (dt : DT), s.sup.resetN = true → ∃ t, exec (.resetNRelease sel dt) s = .next t
      ∧ t.sup = { s.sup with resetN := false } ∧ t.twb = { s.twb with sel := sel }
      ∧ (s.sup.canopy = true → s.sup.core = true → s.sup.vsys = true → s.sup.vio2 = true → s.hwd.running = false → s.pwr.state = .awake →
          t.pwr = { s.pwr with state := .waking, left := 0, step := 1, run := 1, stepDt := (s.advance dt).time.dt })
      ∧ (s.sup.canopy = false ∨ s.sup.core = false ∨ s.sup.vsys = false ∨ s.sup.vio2 = false → t.pwr = s.pwr)
      ∧ { t with sup := s.sup, twb := s.twb, pwr := s.pwr } = s.advance dt)
  ∧ (∀ (s : State) (dt : DT), s.sup.canopy = true → ∃ t, exec (.coreSupplyReturn dt) s = .next t
      ∧ t.sup = { s.sup with core := true, vsys := true }
      ∧ (s.sup.vio2 = true → s.sup.resetN = false → s.hwd.running = false → s.pwr.state = .awake →
          t.pwr = { s.pwr with state := .waking, left := 0, step := 1, run := 1, stepDt := (s.advance dt).time.dt })
      ∧ (s.sup.resetN = true → t.pwr = s.pwr) ∧ { t with sup := s.sup, pwr := s.pwr } = s.advance dt)
  ∧ (∀ s : State, ∃ t, exec .vio2Loss s = .next t
      ∧ t.sup = { s.sup with vio2 := false, vio2Hi := false } ∧ t.host = { s.host with speed := 0, width := t.host.width, errNew := t.host.errNew }
      ∧ RegsBut [Reg.HST_ERR, Reg.TWB_ALERT] s t
      ∧ { t with sup := s.sup, host := s.host, twb := s.twb, blz := s.blz, regs := s.regs } = s)
  ∧ (∀ (s : State) (high : Bool), ∃ t, exec (.vio2Valid high) s = .next t
      ∧ t.sup = { s.sup with vio2 := true, vio2Hi := high } ∧ (s.hwd.running = true → t.pwr = s.pwr)
      ∧ { t with sup := s.sup, pwr := s.pwr } = s)
  ∧ (∀ (s : State) (q : Bool), ∃ t u, exec (.dramSupplyLoss q) s = .next t ∧ exec (.dramSupplyValid q) s = .next u
      ∧ t.sup = (if q then { s.sup with vddq := false } else { s.sup with vdd2 := false }) ∧ bitN (t.rd Reg.MEM_STATUS).toNat 0 = false
      ∧ u.sup = (if q then { s.sup with vddq := true } else { s.sup with vdd2 := true })
      ∧ (s.flag Fl.MEM_CFG.EN = true → u.sup.vdd2 = true → u.sup.vddq = true → u.rd Reg.MEM_STATUS = 1)
      ∧ (s.flag Fl.MEM_CFG.EN = false → u.rd Reg.MEM_STATUS = s.rd Reg.MEM_STATUS)
      ∧ RegsBut [Reg.MEM_STATUS] s t ∧ RegsBut [Reg.MEM_STATUS] s u
      ∧ { t with sup := s.sup, regs := s.regs } = s ∧ { u with sup := s.sup, regs := s.regs } = s)

/-- LISTEN_SET op 0 writes the control and mask words, runs, freezes or stops the path and empties the pre-roll only on a
change of source; op 1 copies the shadow image whole into the active one and restarts the counts only (R422, R428).
LISTEN_WAIT arms. PREROLL_READ copies the blocks from its DT on, at most as many as asked (R437). A hop's samples, zero
where the source is silent, join the window and give the level and the bands; the noise floor moves; in onset mode a flux at
the threshold, above the floor and past the hold is reported with its start DT (R424, R430), and none is otherwise; in
phrase mode the window and the counts move on and a class at its count is confirmed (R429). A block closes with its 256
codes and drops the oldest past 512 (R433). The path stops as R420 states. -/
def Obligations.ListeningCompletes : Prop :=
  (∀ (s : State) (h : Hdr) (p : ListenSetP), Ready s h → listenSetValid p = true → listenSetRefusal s p = .ok → p.op = 0 →
    ∃ t, exec (.listenSet h p) s = .next t
      ∧ t.rd Reg.WAK_LSN_CTRL = wN (p.source.toNat + 2 ^ 28 * p.mode + 2 ^ 30 * wB p.awake + 2 ^ 31 * wB p.en)
      ∧ t.rd Reg.WAK_LSN_MASK = wN p.wmask.toNat
      ∧ (p.en = false → t.lsn = { s.lsn with mode := .off, run := none, stopW := none })
      ∧ (p.en = true → t.lsn.mode = (if p.awake || s.pwr.sleep.isSome || (s.lsn.stopW.isSome && s.lsn.mode == .running) then .running else .frozen)
          ∧ t.lsn.blocks = (if bitsOf (s.rd Reg.WAK_LSN_CTRL) 0 16 = p.source.toNat then s.lsn.blocks else [])
          ∧ t.lsn.act = s.lsn.act ∧ t.lsn.valid = s.lsn.valid ∧ t.lsn.seq = s.lsn.seq)
      ∧ RegsBut (Reg.WAK_LSN_CTRL :: Reg.WAK_LSN_MASK :: wbRegs) s t
      ∧ { t with lsn := s.lsn, host := s.host, blz := s.blz, regs := s.regs } = s)
  ∧ (∀ (s : State) (h : Hdr) (p : ListenSetP), Ready s h → listenSetValid p = true → listenSetRefusal s p = .ok → p.op = 1 →
    ∃ t, exec (.listenSet h p) s = .next t
      ∧ t.lsn = { s.lsn with act := s.lsn.shd, valid := true, counts := [] }
      ∧ RegsBut wbRegs s t ∧ { t with lsn := s.lsn, host := s.host, blz := s.blz, regs := s.regs } = s)
  ∧ (∀ (s : State) (h : Hdr) (p : ListenWaitP), Ready s h → p.mask ≠ 0 → exec (.listenWait h p) s
      = .next { s with host := { s.host with waits := s.host.waits ++ [⟨h, 0x0C02, .listen p.mask, p.timeout, s.time.ts⟩] } })
  ∧ (∀ (s : State) (h : Hdr) (p : PrerollReadP), Ready s h → prerollReadValid p = true → s.dmaAllowed p.addr (144 * p.n) true = true →
    ∃ t l, exec (.prerollRead h p) s = .next t
      ∧ t.lsn = { s.lsn with copied := some (p.addr, l) } ∧ l.length ≤ p.n
      ∧ (p.from_ = 0 → l = s.lsn.blocks.take p.n)
      ∧ (p.from_ ≠ 0 → (∀ b ∈ l, b ∈ s.lsn.blocks ∧ p.from_.toNat < b.dt.toNat + 16000000)
          ∧ (l.length < p.n → ∀ b ∈ s.lsn.blocks, p.from_.toNat < b.dt.toNat + 16000000 → b ∈ l))
      ∧ RegsBut wbRegs s t ∧ { t with lsn := s.lsn, host := s.host, blz := s.blz, regs := s.regs } = s)
  ∧ (∀ (s : State) (x : HopIn), s.lsn.mode = .running → x.dt.toNat % s.hopNs = 0 → x.samples.length * sampleNs = s.hopNs →
      s.lsn.since.toNat + s.hopNs ≤ x.dt.toNat → x.dt.toNat + 11 * sampleNs ≤ x.done.toNat →
    let v := s.hopVal x
    let nf := noiseFloor s.lsn.nf v.level s.hopNs
    let f := fluxOf s.lsn.bands v.bands
    let start := x.dt - BitVec.ofNat 64 s.hopNs
    let hit := (s.fld Fl.WAK_LSN_ONSET.THR : Nat) / (2 : Rat) + adaptOf (s.fld Fl.WAK_LSN_ONSET.ADAPT) * s.lsn.m ≤ f
      ∧ -((s.fld Fl.WAK_LSN_ONSET.FLOOR : Nat) : Rat) ≤ v.level
      ∧ (∀ o, s.lsn.onset = some o → o.toNat + s.fld Fl.WAK_LSN_ONSET.HOLD * 1000000 ≤ start.toNat)
    ∃ t, exec (.lsnHop x) s = .next t
      ∧ t.lsn.nf = some nf ∧ t.rd Reg.WAK_LSN_NOISE = wN ((wI (roundAway (nf * 100))).toNat % 2 ^ 16)
      ∧ t.lsn.blocks = s.lsn.blocks ∧ t.lsn.act = s.lsn.act ∧ t.lsn.mode = .running
      ∧ t.lsn.win = ((gapped s.lsn.gaps x.dt x.samples).reverse ++ s.lsn.win).take 400
      ∧ (s.lsnPhrase = false → t.lsn.bands = some v.bands ∧ t.lsn.m = s.lsn.m + (f - s.lsn.m) / 128)
      ∧ (s.lsnPhrase = false → (∀ r, s.lsn.run = some r → r.conf = none) → hit →
          t.lsn.onset = some start ∧ t.lsn.mark = true ∧ t.rd Reg.WAK_LSN_DETCNT = satInc (s.rd Reg.WAK_LSN_DETCNT) 1
            ∧ t.rd64 Reg.WAK_LSN_LAST_DT_LO Reg.WAK_LSN_LAST_DT_HI = start ∧ (s.lsnWakes 0 = false → t.pwr = s.pwr))
      ∧ (s.lsnPhrase = false → (∀ r, s.lsn.run = some r → r.conf = none) → ¬ hit →
          t.lsn.onset = s.lsn.onset ∧ t.lsn.mark = s.lsn.mark ∧ t.rd Reg.WAK_LSN_DETCNT = s.rd Reg.WAK_LSN_DETCNT ∧ t.pwr = s.pwr)
      ∧ (s.lsnPhrase = true → t.lsn.feats = v.bands.map feature :: s.lsn.feats.take 95
          ∧ t.lsn.counts = countUp s.lsn.act s.lsn.counts (logits s.lsn.act (frames96 t.lsn.feats)))
      ∧ (s.lsnPhrase = true → ∀ r, s.lsn.run = some r → r.conf = none → nf + (s.fld Fl.WAK_LSN_VAD.MARGIN : Nat) / (2 : Rat) ≤ v.level →
          let c := bestClass (logits s.lsn.act (frames96 t.lsn.feats))
          (s.lsn.valid = true ∧ wImg s.lsn.act 6 ≤ t.lsn.counts.getD c 0 → ∃ y, t.lsn.run = some y ∧ y.start = r.start ∧ y.conf = some (c, x.dt))
          ∧ (s.lsn.valid = false → ∃ y, t.lsn.run = some y ∧ y.conf = none))
      ∧ RegsBut [Reg.WAK_LSN_NOISE, Reg.WAK_LSN_DETCNT, Reg.WAK_LSN_LAST_DT_LO, Reg.WAK_LSN_LAST_DT_HI, Reg.WAK_LSN_LAST_INFO, Reg.WAK_LATCH] s t
      ∧ { t with pwr := s.pwr, lsn := s.lsn, pin := s.pin, host := s.host, blz := s.blz, regs := s.regs } = s.advance x.done)
  ∧ (∀ (s : State) (samples : List Word) (dt : DT), s.lsn.mode = .running → samples.length = 256 → dt.toNat % 16000000 = 0 →
      s.lsn.since.toNat + 16000000 ≤ dt.toNat →
    ∃ t b, exec (.prerollBlock samples dt) s = .next t
      ∧ t.lsn.blocks.length = min 512 (s.lsn.blocks.length + 1) ∧ t.lsn.blocks.getLast? = some b ∧ b.dt = dt - 16000000#64
      ∧ b.seq = s.lsn.seq ∧ b.disc = s.lsn.disc ∧ b.codes.length = 256 ∧ (∀ c ∈ b.codes, c < 16)
      ∧ b.pred = s.lsn.pred ∧ b.idx = s.lsn.idx ∧ t.lsn.seq = (s.lsn.seq + 1) % 65536 ∧ t.lsn.disc = false
      ∧ (∀ y ∈ t.lsn.blocks, y = b ∨ y ∈ s.lsn.blocks) ∧ { t with lsn := s.lsn } = s.advance dt)
  ∧ (∀ (s : State) (w dt : DT), s.lsn.stopW = some w → s.lsn.mode = .running → dt.toNat % 16000000 = 0 → w.toNat + 1000000000 ≤ dt.toNat →
    ∃ t, exec (.lsnStop dt) s = .next t
      ∧ (s.lsn.run = none ∨ w.toNat + 10000000000 ≤ dt.toNat → t.lsn = { s.lsn with mode := .frozen, stopW := none, run := none })
      ∧ (∀ r, s.lsn.run = some r → dt.toNat < w.toNat + 10000000000 → t = s.advance dt)
      ∧ RegsBut [Reg.WAK_LSN_DETCNT, Reg.WAK_LSN_LAST_DT_LO, Reg.WAK_LSN_LAST_DT_HI, Reg.WAK_LSN_LAST_INFO] s t
      ∧ { t with lsn := s.lsn, pin := s.pin, host := s.host, blz := s.blz, regs := s.regs } = s.advance dt)

/-- Formalises 15_blaze_recorder.md R444. An event that arrives at the full queue of its source, with the core up: where an
entry has the same code, the newest such one gets COALESCED and a count one higher, shown in param2 and saturated, keeps the
rest of itself, and BLZ_COALCNT advances; otherwise the item of the lowest severity among the four and the arriving one is
dropped, the newest of equals, and BLZ_STAGE_DROP, the BLZ_DROP counter of its severity and the pending summary advance by
the number of events that it stands for. -/
def Obligations.FullStagingQueue : Prop :=
  (∀ (s : State) (e : Ev) (q : List Ev), s.coreDown = false → smGet s.blz.queues e.src [] = q → q.length = 4 →
    (∀ a x b, q = a ++ x :: b → x.code = e.code → (∀ y ∈ b, y.code ≠ e.code) →
      smGet (s.stage e).blz.queues e.src [] = a ++ { x with coal := true, cnt := (if x.coal then x.cnt else 1) + 1 } :: b
        ∧ (s.stage e).rd Reg.BLZ_COALCNT = satInc (s.rd Reg.BLZ_COALCNT) 1 ∧ (s.stage e).blz.drop = s.blz.drop
        ∧ (∀ o, o ≠ Reg.BLZ_COALCNT → (s.stage e).rd o = s.rd o))
    ∧ ((∀ y ∈ q, y.code ≠ e.code) → ∃ d rest n,
        ((d = e ∧ rest = q) ∨ (d.sev < e.sev ∧ ∃ a b, q = a ++ d :: b ∧ rest = a ++ b ++ [e] ∧ ∀ y ∈ b, d.sev < y.sev))
        ∧ (∀ y ∈ q, d.sev ≤ y.sev) ∧ n = (if d.coal then d.cnt else 1)
        ∧ smGet (s.stage e).blz.queues e.src [] = rest
        ∧ (s.stage e).rd Reg.BLZ_STAGE_DROP = satInc (s.rd Reg.BLZ_STAGE_DROP) n
        ∧ (s.stage e).rd (Reg.BLZ_DROP (min d.sev 6)) = satInc (s.rd (Reg.BLZ_DROP (min d.sev 6))) n
        ∧ (s.blz.drop = none → (s.stage e).blz.drop = some ⟨n, 2 ^ d.sev, d.sev, n, d.dt, d.epoch⟩)
        ∧ (∀ p, s.blz.drop = some p → ∃ r, (s.stage e).blz.drop = some r ∧ r.count = p.count + n ∧ r.stage = p.stage + n
            ∧ r.top = max p.top d.sev ∧ r.dt = p.dt ∧ r.epoch = p.epoch)))
  ∧ (∀ (seq : Word) (e : Ev), e.coal = true → (recBody seq e)[6]? = some (wN (min e.cnt 0xFFFFFFFF)))

/-- BLZ_MARK stages the host's record under the DT of its boundary (R457). The committer takes the earliest head, equal DTs
by the lower source, gives it the next number, places it in a free slot, else over the oldest record of lower severity, else
drops and counts it; a pending DROP summary that can be placed goes first (R443, R446, R447). With its chain value under the
sealing key the oldest SEAL due is written under its reserved number (R455). At the end of a limiter's second what it
gathered makes one record (R561). -/
def Obligations.BlazeCompletes : Prop :=
  (∀ (s : State) (h : Hdr) (p : BlzMarkP), Ready s h → p.sev ≤ 4 → ∃ t, exec (.blzMark h p) s = .next t
      ∧ (h.want = false → t.blz = (s.logAt Src.HST 0xD005 p.sev s.time.bdt p.p0 p.p1 p.p2).blz)
      ∧ (h.want = false → s.coreDown = false → (smGet s.blz.queues Src.HST []).length < 4 → smGet t.blz.queues Src.HST []
          = smGet s.blz.queues Src.HST [] ++ [⟨Src.HST, 0xD005, p.sev, s.time.bdt, s.time.epoch, p.p0, p.p1, p.p2, false, 1⟩])
      ∧ RegsBut wbRegs s t ∧ { t with host := s.host, blz := s.blz, regs := s.regs } = s)
  ∧ (∀ (s : State) (dt : DT) (src : Nat) (e : Ev) (rest : List Ev), s.blz.sealFirst = false → s.blz.boot = none → s.blz.drop = none →
      s.nextQueue = some (src, e) → smGet s.blz.queues src [] = e :: rest →
    ∃ t, exec (.blzCommit dt) s = .next t
      ∧ (∀ q ∈ s.blz.queues, ∀ x, q.2.head? = some x → e.dt.toNat < x.dt.toNat ∨ (e.dt = x.dt ∧ src ≤ q.1))
      ∧ ((∃ n, n < 4096 ∧ ∀ r ∈ s.blz.store, r.slot ≠ n) →
          (∃ n, n < 4096 ∧ (∀ r ∈ s.blz.store, r.slot ≠ n) ∧ ∀ r, r ∈ t.blz.store ↔ r = ⟨n, s.blz.seqNext, e⟩ ∨ r ∈ s.blz.store)
          ∧ t.blz.seqNext = (if s.blz.span.length < 63 then s.blz.seqNext + 1 else s.blz.seqNext + 2)
          ∧ smGet t.blz.queues src [] = rest ∧ (∀ m, m ≠ src → smGet t.blz.queues m [] = smGet s.blz.queues m [])
          ∧ RegsBut [Reg.TWB_ALERT] s t ∧ { t with free := s.free, twb := s.twb, blz := s.blz, regs := s.regs } = s.advance dt)
      ∧ ((∀ n, n < 4096 → ∃ r ∈ s.blz.store, r.slot = n) → ∀ a x b, s.blz.store = a ++ x :: b → (∀ r ∈ a, e.sev ≤ r.ev.sev) → x.ev.sev < e.sev →
          ⟨x.slot, s.blz.seqNext, e⟩ ∈ t.blz.store ∧ (∀ r ∈ s.blz.store, r ≠ x → r ∈ t.blz.store))
      ∧ ((∀ n, n < 4096 → ∃ r ∈ s.blz.store, r.slot = n) → (∀ r ∈ s.blz.store, e.sev ≤ r.ev.sev) →
          t.blz.store = s.blz.store ∧ t.blz.seqNext = s.blz.seqNext ∧ t.blz.drop.isSome = true
          ∧ t.rd (Reg.BLZ_DROP (min e.sev 6)) = satInc (s.rd (Reg.BLZ_DROP (min e.sev 6))) (if e.coal then e.cnt else 1)))
  ∧ (∀ (s : State) (dt : DT) (d : DropSum), s.blz.sealFirst = false → s.blz.boot = none → s.blz.drop = some d →
      (∃ n, n < 4096 ∧ ∀ r ∈ s.blz.store, r.slot ≠ n) →
    ∃ t n, exec (.blzCommit dt) s = .next t
      ∧ t.blz.drop = none ∧ t.blz.queues = s.blz.queues ∧ (∀ r, r ∈ t.blz.store ↔ r = ⟨n, s.blz.seqNext, dropEv d⟩ ∨ r ∈ s.blz.store)
      ∧ { t with free := s.free, twb := s.twb, blz := s.blz, regs := s.regs } = s.advance dt)
  ∧ (∀ (s : State) (dt : DT) (x : SealDue) (l : List SealDue) (k : DeviceKeys), s.blz.seals = x :: l → s.hwd.devKeys = some k → (∃ n, n < 4096 ∧ ∀ r ∈ s.blz.store, r.slot ≠ n) →
    ∃ t n e, exec (.blzSealWrite dt) s = .next t
      ∧ t.blz.prevSeal = sealChain k.sealing (s.blz.prevSeal.extractLsb' 0 96) (x.span.map (fun r => recBody r.seq r.ev))
          ((recBody x.seq ⟨Src.BLZ, 0xD002, 2, x.dt, x.epoch, 0, 0, 0, false, 1⟩).take 4)
      ∧ t.blz.seals = l ∧ t.blz.sealSeq = x.seq ∧ t.blz.seqNext = s.blz.seqNext
      ∧ (∀ r, r ∈ t.blz.store ↔ r = ⟨n, x.seq, e⟩ ∨ r ∈ s.blz.store)
      ∧ e.code = 0xD002 ∧ e.sev = 2 ∧ e.dt = x.dt ∧ e.p2 ++ e.p1 ++ e.p0 = t.blz.prevSeal.extractLsb' 0 96
      ∧ { t with free := s.free, twb := s.twb, blz := s.blz, regs := s.regs } = s.advance dt)
  ∧ (∀ (s : State) (code key : Nat) (dt : DT) (l : Limiter), s.blz.lims.find? (fun x => x.code == code && x.key == key) = some l →
    ∃ t, exec (.rateLimitSecondEnd code key dt) s = .next t
      ∧ (dt.toNat < l.since.toNat + 1000000000 → t = s.advance dt)
      ∧ (l.since.toNat + 1000000000 ≤ dt.toNat → l.first = none → t.blz.queues = s.blz.queues
          ∧ t.blz.lims = s.blz.lims.filter (fun x => !(x.code == code && x.key == key)))
      ∧ (∀ e, l.since.toNat + 1000000000 ≤ dt.toNat → l.first = some e → s.coreDown = false →
          (smGet s.blz.queues e.src []).length < 4 →
          smGet t.blz.queues e.src [] = smGet s.blz.queues e.src [] ++ [withCount e l.cp l.n]
          ∧ t.blz.lims = ⟨code, key, l.since + 1000000000#64, none, 0, l.cp⟩ :: s.blz.lims.filter (fun x => !(x.code == code && x.key == key)))
      ∧ RegsBut [] s t ∧ { t with blz := s.blz, regs := s.regs } = s.advance dt)

/-- In a window in which Ranger's counter moves and both cores report without lag, each running core's report is kept and
its missed count clears; without movement the count of standing windows advances and no core is judged (R464, R474). A fatal
exception of the active core beside a healthy standby promotes the standby, counts in FLT_COPPICE_CNT and reloads the failed
core (R465). The first pickup makes the restarted core active. A try without a heartbeat in 40 ms is repeated once; the
second sets COPPICE_FAIL and asks for Firebreak (R467). A reloaded core becomes standby, or stages the image again while
FW_ACTIVATE runs. That a third failure is counted per core is the model's reading (log entry 104). -/
def Obligations.HeartbeatsAndFailures : Prop :=
  (∀ (s : State) (a b : TS) (dt : DT), dt.toNat % 1000000 = 0 → s.coreDown = false → s.flt.reload = false →
      (s.time.running = true → tsDiff s.time.ts a ≤ 64 ∧ tsDiff s.time.ts b ≤ 64) →
    ∃ t, exec (.heartbeatWindow (some a) (some b) true dt) s = .next t
      ∧ (coreRuns s.flt.coreA = true → t.flt.coreA = { s.flt.coreA with miss := 0, last := a, beat := true })
      ∧ (coreRuns s.flt.coreB = true → t.flt.coreB = { s.flt.coreB with miss := 0, last := b, beat := true })
      ∧ t.flt.alive = true ∧ t.flt.stuck = 0 ∧ t.flt.counter = s.flt.counter + 1 ∧ t.flt.lost = false
      ∧ RegsBut [Reg.FLT_FAULT] s t ∧ { t with flt := s.flt, regs := s.regs } = s.advance dt)
  ∧ (∀ (s : State) (a b : Option TS) (dt : DT), dt.toNat % 1000000 = 0 → s.coreDown = false →
    ∃ t, exec (.heartbeatWindow a b false dt) s = .next t
      ∧ t.flt = { s.flt with alive := if 4 ≤ s.flt.stuck + 1 then false else s.flt.alive, stuck := s.flt.stuck + 1 }
      ∧ { t with flt := s.flt } = s.advance dt)
  ∧ (∀ (s : State) (c : Nat) (memory : Bool) (dt : DT), c < 2 → (s.core c).run = .active → (s.core (1 - c)).run = .standby →
      s.flt.lost = false → (recentFails (s.core c).fails dt).length < 2 →
    ∃ t, exec (.coreException c memory dt) s = .next t
      ∧ t.flt.activeB = decide (c = 0) ∧ (t.core (1 - c)).run = .resuming ∧ (t.core c).run = .reloading
      ∧ t.flt.coppice = some ⟨dt, dt, 1, 1 - c, false⟩ ∧ t.rd Reg.FLT_COPPICE_CNT = satInc (s.rd Reg.FLT_COPPICE_CNT) 1
      ∧ (t.core c).fails = dt :: recentFails (s.core c).fails dt)
  ∧ (∀ (s : State) (k : Coppice) (dt : DT), s.flt.coppice = some k → (s.core k.core).run = .resuming → k.core < 2 →
    ∃ t, exec (.coppiceFirstPickup dt) s = .next t
      ∧ (t.core k.core).run = .active ∧ (t.core k.core).miss = 0 ∧ t.flt.activeB = decide (k.core = 1) ∧ t.flt.coppice = none ∧ t.flt.hung = false)
  ∧ (∀ (s : State) (k : Coppice) (dt : DT), s.flt.coppice = some k → k.core < 2 → k.alone = true → (s.core k.core).beat = false →
      k.start.toNat + 40000000 ≤ dt.toNat → s.flt.lost = false →
    ∃ t, exec (.coppiceRetry dt) s = .next t
      ∧ (k.tries < 2 → t.flt.coppice = some { k with tries := k.tries + 1, start := dt } ∧ { t with flt := s.flt } = s.advance dt)
      ∧ (2 ≤ k.tries → t.flt.coppice = none ∧ (t.core k.core).run = .failed ∧ t.fld Fl.FLT_FAULT.COPPICE_FAIL = 1
          ∧ t.flt.fireRq = some (s.flt.fireRq.getD 2)))
  ∧ (∀ (s : State) (c : Nat), c < 2 → (s.core c).run = .reloading → (c = 1 → (s.core 0).run ≠ .reloading) →
    ∃ t, exec .standbyReady s = .next t
      ∧ (s.flt.load = none → t.core c = { s.core c with run := .standby, miss := 0, beat := false, slot := (s.core (1 - c)).slot })
      ∧ (∀ l, s.flt.load = some l → t.core c = { s.core c with run := .staging, miss := 0, beat := false, slot := l.slot })
      ∧ t.core (1 - c) = s.core (1 - c) ∧ { t with flt := s.flt } = s)
  ∧ (∀ (s : State), s.flt.reload = true → ∃ t, exec .rangerReloadDone s = .next t
      ∧ t.flt = { s.flt with reload := false, stuck := 0 } ∧ { t with flt := s.flt } = s)

/-- After four consecutive heartbeat windows without movement, a Ranger not yet lost is lost: FLT_FAULT.RANGER_LOSS is set,
no Coppice goes on, and unless Firebreak is engaged already its engagement is asked for. Until then nothing happens: with
fewer windows the state is the same but for the device time. The cores, the commands held and device DRAM stay. -/
def Obligations.RangerLossEngagesFirebreak : Prop :=
  (∀ (s : State) (dt : DT), 4 ≤ s.flt.stuck → s.flt.lost = false → ∃ t, exec (.rangerLoss dt) s = .next t
      ∧ t.flt.lost = true ∧ t.flt.alive = false ∧ t.flt.coppice = none ∧ t.fld Fl.FLT_FAULT.RANGER_LOSS = 1
      ∧ (s.flt.fire = false → ∃ c, t.flt.fireRq = some c) ∧ t.flt.coreA = s.flt.coreA ∧ t.flt.coreB = s.flt.coreB
      ∧ t.flt.held = s.flt.held ∧ t.dram = s.dram ∧ t.host.commit = s.host.commit ∧ t.host.pend = s.host.pend)
  ∧ (∀ (s : State) (dt : DT), s.flt.stuck < 4 → exec (.rangerLoss dt) s = .next (s.advance dt))

/-- An accepted FW_ACTIVATE loads its image into the slot that is not in use, on the standby, and defers its write-back
(R468). The handover, while Ranger is not lost, gives the staged core the active role, starts probation and puts the new
version in FLT_FW_VER. After 10 s without a failure probation ends and the anti-rollback counter never decreases (R469,
R493). FIREBREAK_CTRL op 0 asks for the engagement at the next boundary; op 1 with nothing held releases it; op 0 while
engaged and op 1 while not change nothing (R470, R472, R473). -/
def Obligations.FirmwareAndFirebreak : Prop :=
  (∀ (s : State) (h : Hdr) (p : FwActivateP), Ready s h → fwActivateValid p = true → fwActivateRefusal s p = .ok →
    ∃ t, exec (.fwActivate h p) s = .next t
      ∧ (t.core (1 - s.activeCore)).run = .staging ∧ t.core s.activeCore = s.core s.activeCore
      ∧ t.flt.load = some ⟨h, p.image, 1 - (s.core s.activeCore).slot⟩
      ∧ t.fwOf (1 - (s.core s.activeCore).slot) = ⟨p.image.version, p.image.arb⟩ ∧ { t with flt := s.flt } = s)
  ∧ (∀ (s : State) (l : FwLoad), s.flt.load = some l → (s.core (1 - s.activeCore)).run = .staging → (s.core s.activeCore).run = .active → s.flt.lost = false →
    ∃ t, exec .fwHandover s = .next t
      ∧ t.activeCore = 1 - s.activeCore ∧ (t.core (1 - s.activeCore)).run = .active
      ∧ (t.core s.activeCore).run = .reloading ∧ t.flt.load = none ∧ t.flt.prob = some ⟨s.time.bdt, l.slot, (s.core s.activeCore).slot⟩
      ∧ t.rd Reg.FLT_FW_VER = l.image.version ∧ RegsBut (Reg.FLT_FW_VER :: wbRegs) s t
      ∧ { t with flt := s.flt, host := s.host, blz := s.blz, regs := s.regs } = s)
  ∧ (∀ (s : State) (p : Probation) (dt : DT), s.flt.prob = some p → p.since.toNat + 10000000000 ≤ dt.toNat →
    ∃ t, exec (.fwProbationEnd dt) s = .next t
      ∧ t.flt = { s.flt with prob := none }
      ∧ t.hwd = { s.hwd with fuses := { s.hwd.fuses with arb := max s.hwd.fuses.arb (s.fwOf p.slot).arb } }
      ∧ RegsBut [] s t ∧ { t with flt := s.flt, hwd := s.hwd, blz := s.blz, regs := s.regs } = s.advance dt)
  ∧ (∀ (s : State) (h : Hdr) (op : Nat), h.rsv = false → h.late ≠ 3 → s.ringType (ringOf h) = 0 → (h.timed = false ∨ h.target = s.time.ts) →
      op < 2 → firebreakRefusal s op = .ok → s.flt.freed = [] → (op = 1 → s.flt.fire = true → s.fireDue = []) →
    ∃ t, exec (.firebreakCtrl h op) s = .next t
      ∧ (op = 0 → s.flt.fire = false → t.flt = { s.flt with fireRq := some 0 })
      ∧ (op = 1 → s.flt.fire = true → t.flt.fire = false ∧ t.flt.fireRq = none ∧ t.flt.held = [])
      ∧ (op = 0 → s.flt.fire = true → t.flt = s.flt) ∧ (op = 1 → s.flt.fire = false → t.flt = s.flt)
      ∧ RegsBut wbRegs s t ∧ { t with flt := s.flt, host := s.host, blz := s.blz, regs := s.regs } = s)

/-- A timed command of the commit set whose target is the tick in force, alone in its group, that neither Firebreak nor a
rate change holds and that no refusal at its boundary meets, leaves the commit set and the pending store and has its own
effect, with its write-back unless that comes later; what a release of Firebreak frees then commits too (R472). Stated for
every command but ROUTE_SET and TRAIL_COMMIT, whose releases and claims are matched over the whole commit set (R202). -/
def Obligations.TimedCommitRunsItsCommand : Prop :=
  ∀ (s : State) (p : Picked) (ring tag : Nat),
    (s.host.commit ++ s.host.pend).find? (fun q => q.hdr.ring == ring && q.hdr.tag.toNat == tag && q.hdr.timed
        && decide (tsDiff q.hdr.target s.time.ts ≤ 0)) = some p →
    (s.host.commit ++ s.host.pend).filter (fun q => q.grp == p.grp) = [p] → s.host.commit.contains p = true →
    p.hdr.target = s.time.ts → s.flt.fire = false → s.clk.rc = none →
    s.trl.relSel = [] → s.trl.relTrl = [] → s.trl.clmTrl = [] → s.thk.fresh = [] →
    (∀ q, p.cmd ≠ .routeSet q) → (∀ q, p.cmd ≠ .trailCommit q) →
    let u : State := { s with host := { s.host with commit := s.host.commit.filter (fun q => q.grp != p.grp), pend := s.host.pend.filter (fun q => q.grp != p.grp) } }
    boundaryRefusal u p.cmd (cmdSpec u p.hdr p.k p.cmd).refusal = none →
    ∃ t, exec (.timedCommit ring tag) s = .next t
      ∧ t = (State.finish p.hdr (opcodeOf p.cmd) false { (cmdSpec u p.hdr p.k p.cmd).eff u with st := ((cmdSpec u p.hdr p.k p.cmd).eff u).st.claimClear }).releaseFreed

/-- An image that passes starts both cores on slot A; one that fails sets HWD_BOOT_STAT and starts none (R491). A
configuration that passes makes its writes in order, then the lock where LOCK is set, then its hash; one that fails applies
nothing (R494, R495). KEY_LOAD fills the slot named and no other; KEY_CLEAR empties the slot named, or all (R496, R498).
ATTEST op 0 takes the statement at its boundary, signed with the identity key; op 1 hands out the sealing key. DEBUG_UNLOCK
opens the port in the token's scope until its expiry and erases every key; a token that fails a check opens nothing and
leaves the keys; the port locks at the expiry (R504, R505). The crypto checks come with the command. -/
def Obligations.HeartwoodCompletes : Prop :=
  (∀ (s : State) (i : ImageFacts), s.hwd.order = true → s.hwd.running = true → s.hwd.booted = false → ∃ t, exec (.hwdBootDone i) s = .next t
      ∧ (s.bootCheck i = .ok → t.hwd = { s.hwd with booted := true, order := false } ∧ (t.core 0).run = .active ∧ (t.core 1).run = .standby
          ∧ t.activeCore = 0 ∧ t.fwOf 0 = ⟨i.version, i.arb⟩ ∧ t.rd Reg.HWD_BOOT_STAT = 0 ∧ t.rd Reg.FLT_FW_VER = i.version)
      ∧ (s.bootCheck i ≠ .ok → t.hwd = { s.hwd with order := false } ∧ t.flt = s.flt ∧ t.rd Reg.FLT_FW_VER = s.rd Reg.FLT_FW_VER
          ∧ t.rd Reg.HWD_BOOT_STAT = wN (statusCode (s.bootCheck i)))
      ∧ RegsBut [Reg.HWD_BOOT_STAT, Reg.FLT_FW_VER] s t ∧ { t with hwd := s.hwd, flt := s.flt, blz := s.blz, regs := s.regs } = s)
  ∧ (∀ (s : State) (i : ImageFacts), s.barGate = 1 → s.runSet = false →
      s.dmaAllowed (s.rd64 Reg.HWD_CFG_ADDR_LO Reg.HWD_CFG_ADDR_HI) (s.rd Reg.HWD_CFG_LEN).toNat false = true →
    let u := i.entries.foldl State.cfgWrite s
    ∃ t, exec (.cfgOrder i) s = .next t
      ∧ (s.cfgCheck i ≠ .ok → t = s)
      ∧ (s.cfgCheck i = .ok → (∀ n, n < 8 → t.rd (Reg.HWD_CFG_HASH n) = i.hash.extractLsb' (32 * n) 32) ∧ (i.lock = true → t.locked = true)
          ∧ (i.lock = false → t.locked = u.locked) ∧ RegsBut (Reg.TOP_LOCK :: Reg.TOP_LOCK_TS32 :: (List.range 8).map Reg.HWD_CFG_HASH) u t
          ∧ { t with blz := u.blz, regs := u.regs } = u))
  ∧ (∀ (s : State) (h : Hdr) (p : ConfigLoadP), Ready s h → s.dmaAllowed p.addr p.len false = true → s.cfgCheck p.image = .ok →
      admitCheck s (configLoadEffect p s).st = none →
    let u := p.image.entries.foldl State.cfgWrite s
    ∃ t, exec (.configLoad h p) s = .next t
      ∧ (∀ n, n < 8 → t.rd (Reg.HWD_CFG_HASH n) = p.image.hash.extractLsb' (32 * n) 32) ∧ (p.image.lock = true → t.locked = true)
      ∧ RegsBut (Reg.TOP_LOCK :: Reg.TOP_LOCK_TS32 :: ((List.range 8).map Reg.HWD_CFG_HASH ++ wbRegs)) u t
      ∧ { t with host := u.host, blz := u.blz, regs := u.regs } = u)
  ∧ (∀ (s : State) (h : Hdr) (p : KeyLoadP), Ready s h → keyLoadValid s p = true → keyLoadHost s p = true → ∃ t, exec (.keyLoad h p) s = .next t
      ∧ (keyLoadRefusal s p = .ok → smGet? t.hwd.keys p.slot = some ⟨p.key, p.nonce, p.lib, p.base, p.blocks⟩
          ∧ (∀ k, k ≠ p.slot → smGet? t.hwd.keys k = smGet? s.hwd.keys k) ∧ { t.hwd with keys := s.hwd.keys } = s.hwd)
      ∧ (keyLoadRefusal s p ≠ .ok → t.hwd = s.hwd)
      ∧ (s.hwd.unlocked ≠ none ∨ p.opens = false → t.hwd = s.hwd)
      ∧ RegsBut wbRegs s t ∧ { t with hwd := s.hwd, host := s.host, blz := s.blz, regs := s.regs } = s)
  ∧ (∀ (s : State) (h : Hdr) (slot : Nat), Ready s h → keyClearValid slot = true → keyClearRefusal s slot = .ok →
    ∃ t, exec (.keyClear h slot) s = .next t
      ∧ (∀ k, smGet? t.hwd.keys k = if slot = 0xFFFF ∨ slot = k then none else smGet? s.hwd.keys k)
      ∧ { t.hwd with keys := s.hwd.keys } = s.hwd
      ∧ RegsBut wbRegs s t ∧ { t with hwd := s.hwd, host := s.host, blz := s.blz, regs := s.regs } = s)
  ∧ (∀ (s : State) (h : Hdr) (p : AttestP), Ready s h → p.op < 2 → attestHost s p = true → attestRefusal s p = .ok →
    ∃ t, exec (.attest h p) s = .next t
      ∧ (p.op = 0 → t.hwd = { s.hwd with stmt := some (s.statement p) } ∧ t.free = s.free + 1)
      ∧ (p.op = 1 → t.hwd = { s.hwd with exported := some (p.addr, p.keyHash, s.sealingKey) } ∧ t.free = s.free)
      ∧ RegsBut wbRegs s t ∧ { t with hwd := s.hwd, free := s.free, host := s.host, blz := s.blz, regs := s.regs } = s)
  ∧ (∀ (s : State) (h : Hdr) (p : DebugUnlockP), Ready s h → s.dmaAllowed p.addr 256 false = true → ∃ t, exec (.debugUnlock h p) s = .next t
      ∧ (s.tokenFails p = none → t.hwd.unlocked = some (p.expiry, p.scope) ∧ t.hwd.keys = [] ∧ (s.hwd.keys ≠ [] → t.hwd.keysLost = true))
      ∧ (s.tokenFails p ≠ none → t.hwd.unlocked = s.hwd.unlocked ∧ t.hwd.keys = s.hwd.keys)
      ∧ t.hwd.running = s.hwd.running ∧ t.hwd.fuses = s.hwd.fuses
      ∧ RegsBut wbRegs s t ∧ { t with hwd := s.hwd, free := s.free, host := s.host, blz := s.blz, regs := s.regs } = s)
  ∧ (∀ (s : State) (e : DT) (k : BitVec 8) (dt : DT), s.hwd.unlocked = some (e, k) → ∃ t, exec (.debugExpire dt) s = .next t
      ∧ (e.toNat ≤ dt.toNat → t = { s.advance dt with hwd := { s.hwd with unlocked := none } }) ∧ (dt.toNat < e.toNat → t = s.advance dt))

/-- For every command c, every rest of the queue and every state whose queue is c and then that rest, the step is exec of c
on the state with the rest. With no command waiting, the step answers the same state. The queue of waiting commands and the
idle step are the model's own (log entry 1), not the manual's. -/
def Obligations.StepTakesFront : Prop :=
  (∀ (s : State) (c : Instr) (l : List Instr), s.pending = c :: l → step s = exec c { s with pending := l })
  ∧ (∀ s : State, s.pending = [] → step s = .next s)

/-- Formalises 00_scope.md R6. For every state, whatever waits in its queue but a cold start at its front: the step answers
a next state, and device time there is no less than before. The only event that may set DT back is the cold reset, with
which DT starts at zero. -/
def Obligations.DtNeverDecreases : Prop :=
  ∀ s : State, (∀ k, s.pending.head? ≠ some (.coldStart k)) → ∃ t, step s = .next t ∧ s.time.dt.toNat ≤ t.time.dt.toNat

/-- For every state whose device DRAM is in canonical form, if the step answers a next state, device DRAM is in canonical
form there. The form is the model's own (log entry 7): a list of addresses and bytes, strictly rising, with no entry that
equals what an unlisted address reads as, so that equal contents are equal data. -/
def Obligations.DramInvariant : Prop :=
  ∀ s t : State, DramWf s → step s = .next t → DramWf t

/-- For every state, if the step answers a next state, what waits there is what waited before less the command at the front;
so a queue of well-formed commands stays one. The queue is the model's own (log entry 1). -/
def Obligations.QueueInvariant : Prop :=
  (∀ s t : State, step s = .next t → t.pending = s.pending.tail) ∧ (∀ s t : State, QueueWf s → step s = .next t → QueueWf t)

/-- The reset state has an empty queue and no byte of device DRAM listed, so it meets both invariants. Device time, the tick
count and the time epoch are zero and the house clock stands (R46, R409); the next record has number 0 (R442); the set-up
lock is clear; TOP_ID reads 0x4B579320 (R1). That RESET_N is asserted and the rails are not yet valid there is the model's
choice (log entry 5). -/
def Obligations.ResetState : Prop :=
  QueueWf State.reset ∧ DramWf State.reset ∧ State.reset.time.dt = 0 ∧ State.reset.time.ts = 0 ∧ State.reset.time.epoch = 0
  ∧ State.reset.time.running = false ∧ State.reset.blz.seqNext = 0 ∧ State.reset.blz.store = [] ∧ State.reset.locked = false
  ∧ State.reset.readReg Reg.TOP_ID = 0x4B579320 ∧ State.reset.sup.resetN = true

/-- For BLZ_MARK, which nothing else holds back, on a CMD ring at the boundary k+2: the reserved policy is INVALID; on its
target it runs with OK; late, policy 0 runs it with LATE, policy 1 expires it, policy 2 runs it with LATE while L is at most
the late window in force on the ring and expires it beyond (R62, R63); an expired one has no other effect (R64). Early by at
most 2^30 ticks it enters the pending store while that has room (R65), further away it is INVALID. -/
def Obligations.LatePolicy : Prop :=
  ∀ (s : State) (h : Hdr) (p : BlzMarkP), h.rsv = false → s.ringType (ringOf h) = 0 → p.sev ≤ 4 → h.timed = true →
    let L := tsDiff s.time.ts h.target
    let w := s.lateWin (ringOf h)
    ∃ t, exec (.blzMark h p) s = .next t
      ∧ (h.late = 3 → t = s.rejectStaged h 0x0D01 .invalid)
      ∧ (h.late < 3 → L = 0 → t = State.finish h 0x0D01 false (okDone (s.logAt Src.HST 0xD005 p.sev s.time.bdt p.p0 p.p1 p.p2)))
      ∧ (h.late < 3 → 0 < L → h.late = 0 ∨ (h.late = 2 ∧ L ≤ w) →
          t = State.finish h 0x0D01 true (okDone (s.logAt Src.HST 0xD005 p.sev s.time.bdt p.p0 p.p1 p.p2)))
      ∧ (h.late < 3 → 0 < L → h.late = 1 ∨ (h.late = 2 ∧ w < L) → t = s.rejectStaged h 0x0D01 .expired
          ∧ RegsBut wbRegs s t ∧ { t with host := s.host, blz := s.blz, regs := s.regs } = s)
      ∧ (h.late < 3 → L < 0 → -(2 ^ 30) ≤ L → s.host.pend.length < 8192 →
          t.host.pend = s.host.pend ++ [⟨h, .blzMark p, s.time.ts - 2, s.host.grp, false⟩]
          ∧ { t with host := { t.host with pend := s.host.pend, grp := s.host.grp } } = s)
      ∧ (h.late < 3 → L < -(2 ^ 30) → t = s.rejectStaged h 0x0D01 .invalid)
end

