-- ==== Sys2Proof/Laws/State.lean ====
section
/-! SUPPORT. What each named update of the state leaves alone, one lemma an update, every field true by `rfl`; and what it
changes. -/
namespace Sys2Proof.Machine

variable (s : State)

@[simp] theorem wr_keeps (off : Nat) (v : Word) :
    (s.wr off v).time = s.time ∧ (s.wr off v).clk = s.clk ∧ (s.wr off v).host = s.host ∧ (s.wr off v).adm = s.adm ∧
    (s.wr off v).ain = s.ain ∧ (s.wr off v).aout = s.aout ∧ (s.wr off v).spk = s.spk ∧ (s.wr off v).thk = s.thk ∧
    (s.wr off v).sel = s.sel ∧ (s.wr off v).trl = s.trl ∧ (s.wr off v).fx = s.fx ∧ (s.wr off v).clip = s.clip ∧
    (s.wr off v).sap = s.sap ∧ (s.wr off v).grove = s.grove ∧ (s.wr off v).net = s.net ∧
    (s.wr off v).loop = s.loop ∧ (s.wr off v).dram = s.dram ∧ (s.wr off v).step = s.step ∧
    (s.wr off v).hwd = s.hwd ∧ (s.wr off v).flt = s.flt ∧ (s.wr off v).twb = s.twb ∧ (s.wr off v).pwr = s.pwr ∧
    (s.wr off v).blz = s.blz ∧ (s.wr off v).lsn = s.lsn ∧ (s.wr off v).sup = s.sup ∧ (s.wr off v).pin = s.pin ∧
    (s.wr off v).inter = s.inter ∧ (s.wr off v).interOld = s.interOld ∧ (s.wr off v).inter2 = s.inter2 ∧
    (s.wr off v).free = s.free ∧ (s.wr off v).pending = s.pending := by
  repeat' constructor

@[simp] theorem setFld_keeps (f : Field) (v : Nat) :
    (s.setFld f v).time = s.time ∧ (s.setFld f v).clk = s.clk ∧ (s.setFld f v).host = s.host ∧
    (s.setFld f v).adm = s.adm ∧ (s.setFld f v).ain = s.ain ∧ (s.setFld f v).aout = s.aout ∧
    (s.setFld f v).spk = s.spk ∧ (s.setFld f v).thk = s.thk ∧ (s.setFld f v).sel = s.sel ∧
    (s.setFld f v).trl = s.trl ∧ (s.setFld f v).fx = s.fx ∧ (s.setFld f v).clip = s.clip ∧
    (s.setFld f v).sap = s.sap ∧ (s.setFld f v).grove = s.grove ∧ (s.setFld f v).net = s.net ∧
    (s.setFld f v).loop = s.loop ∧ (s.setFld f v).dram = s.dram ∧ (s.setFld f v).step = s.step ∧
    (s.setFld f v).hwd = s.hwd ∧ (s.setFld f v).flt = s.flt ∧ (s.setFld f v).twb = s.twb ∧
    (s.setFld f v).pwr = s.pwr ∧ (s.setFld f v).blz = s.blz ∧ (s.setFld f v).lsn = s.lsn ∧
    (s.setFld f v).sup = s.sup ∧ (s.setFld f v).pin = s.pin ∧ (s.setFld f v).inter = s.inter ∧
    (s.setFld f v).interOld = s.interOld ∧ (s.setFld f v).inter2 = s.inter2 ∧ (s.setFld f v).free = s.free ∧
    (s.setFld f v).pending = s.pending := by
  repeat' constructor

@[simp] theorem orFld_keeps (f : Field) (v : Nat) :
    (s.orFld f v).time = s.time ∧ (s.orFld f v).clk = s.clk ∧ (s.orFld f v).host = s.host ∧
    (s.orFld f v).adm = s.adm ∧ (s.orFld f v).ain = s.ain ∧ (s.orFld f v).aout = s.aout ∧
    (s.orFld f v).spk = s.spk ∧ (s.orFld f v).thk = s.thk ∧ (s.orFld f v).sel = s.sel ∧ (s.orFld f v).trl = s.trl ∧
    (s.orFld f v).fx = s.fx ∧ (s.orFld f v).clip = s.clip ∧ (s.orFld f v).sap = s.sap ∧
    (s.orFld f v).grove = s.grove ∧ (s.orFld f v).net = s.net ∧ (s.orFld f v).loop = s.loop ∧
    (s.orFld f v).dram = s.dram ∧ (s.orFld f v).step = s.step ∧ (s.orFld f v).hwd = s.hwd ∧
    (s.orFld f v).flt = s.flt ∧ (s.orFld f v).twb = s.twb ∧ (s.orFld f v).pwr = s.pwr ∧ (s.orFld f v).blz = s.blz ∧
    (s.orFld f v).lsn = s.lsn ∧ (s.orFld f v).sup = s.sup ∧ (s.orFld f v).pin = s.pin ∧
    (s.orFld f v).inter = s.inter ∧ (s.orFld f v).interOld = s.interOld ∧ (s.orFld f v).inter2 = s.inter2 ∧
    (s.orFld f v).free = s.free ∧ (s.orFld f v).pending = s.pending := by
  repeat' constructor

@[simp] theorem bumpBy_keeps (off n : Nat) :
    (s.bumpBy off n).time = s.time ∧ (s.bumpBy off n).clk = s.clk ∧ (s.bumpBy off n).host = s.host ∧
    (s.bumpBy off n).adm = s.adm ∧ (s.bumpBy off n).ain = s.ain ∧ (s.bumpBy off n).aout = s.aout ∧
    (s.bumpBy off n).spk = s.spk ∧ (s.bumpBy off n).thk = s.thk ∧ (s.bumpBy off n).sel = s.sel ∧
    (s.bumpBy off n).trl = s.trl ∧ (s.bumpBy off n).fx = s.fx ∧ (s.bumpBy off n).clip = s.clip ∧
    (s.bumpBy off n).sap = s.sap ∧ (s.bumpBy off n).grove = s.grove ∧ (s.bumpBy off n).net = s.net ∧
    (s.bumpBy off n).loop = s.loop ∧ (s.bumpBy off n).dram = s.dram ∧ (s.bumpBy off n).step = s.step ∧
    (s.bumpBy off n).hwd = s.hwd ∧ (s.bumpBy off n).flt = s.flt ∧ (s.bumpBy off n).twb = s.twb ∧
    (s.bumpBy off n).pwr = s.pwr ∧ (s.bumpBy off n).blz = s.blz ∧ (s.bumpBy off n).lsn = s.lsn ∧
    (s.bumpBy off n).sup = s.sup ∧ (s.bumpBy off n).pin = s.pin ∧ (s.bumpBy off n).inter = s.inter ∧
    (s.bumpBy off n).interOld = s.interOld ∧ (s.bumpBy off n).inter2 = s.inter2 ∧ (s.bumpBy off n).free = s.free ∧
    (s.bumpBy off n).pending = s.pending := by
  repeat' constructor

@[simp] theorem bump_keeps (off : Nat) :
    (s.bump off).time = s.time ∧ (s.bump off).clk = s.clk ∧ (s.bump off).host = s.host ∧ (s.bump off).adm = s.adm ∧
    (s.bump off).ain = s.ain ∧ (s.bump off).aout = s.aout ∧ (s.bump off).spk = s.spk ∧ (s.bump off).thk = s.thk ∧
    (s.bump off).sel = s.sel ∧ (s.bump off).trl = s.trl ∧ (s.bump off).fx = s.fx ∧ (s.bump off).clip = s.clip ∧
    (s.bump off).sap = s.sap ∧ (s.bump off).grove = s.grove ∧ (s.bump off).net = s.net ∧
    (s.bump off).loop = s.loop ∧ (s.bump off).dram = s.dram ∧ (s.bump off).step = s.step ∧
    (s.bump off).hwd = s.hwd ∧ (s.bump off).flt = s.flt ∧ (s.bump off).twb = s.twb ∧ (s.bump off).pwr = s.pwr ∧
    (s.bump off).blz = s.blz ∧ (s.bump off).lsn = s.lsn ∧ (s.bump off).sup = s.sup ∧ (s.bump off).pin = s.pin ∧
    (s.bump off).inter = s.inter ∧ (s.bump off).interOld = s.interOld ∧ (s.bump off).inter2 = s.inter2 ∧
    (s.bump off).free = s.free ∧ (s.bump off).pending = s.pending := by
  repeat' constructor

@[simp] theorem bumpFld_keeps (f : Field) :
    (s.bumpFld f).time = s.time ∧ (s.bumpFld f).clk = s.clk ∧ (s.bumpFld f).host = s.host ∧
    (s.bumpFld f).adm = s.adm ∧ (s.bumpFld f).ain = s.ain ∧ (s.bumpFld f).aout = s.aout ∧
    (s.bumpFld f).spk = s.spk ∧ (s.bumpFld f).thk = s.thk ∧ (s.bumpFld f).sel = s.sel ∧ (s.bumpFld f).trl = s.trl ∧
    (s.bumpFld f).fx = s.fx ∧ (s.bumpFld f).clip = s.clip ∧ (s.bumpFld f).sap = s.sap ∧
    (s.bumpFld f).grove = s.grove ∧ (s.bumpFld f).net = s.net ∧ (s.bumpFld f).loop = s.loop ∧
    (s.bumpFld f).dram = s.dram ∧ (s.bumpFld f).step = s.step ∧ (s.bumpFld f).hwd = s.hwd ∧
    (s.bumpFld f).flt = s.flt ∧ (s.bumpFld f).twb = s.twb ∧ (s.bumpFld f).pwr = s.pwr ∧ (s.bumpFld f).blz = s.blz ∧
    (s.bumpFld f).lsn = s.lsn ∧ (s.bumpFld f).sup = s.sup ∧ (s.bumpFld f).pin = s.pin ∧
    (s.bumpFld f).inter = s.inter ∧ (s.bumpFld f).interOld = s.interOld ∧ (s.bumpFld f).inter2 = s.inter2 ∧
    (s.bumpFld f).free = s.free ∧ (s.bumpFld f).pending = s.pending := by
  repeat' constructor

@[simp] theorem wr64_keeps (lo hi : Nat) (v : BitVec 64) :
    (s.wr64 lo hi v).time = s.time ∧ (s.wr64 lo hi v).clk = s.clk ∧ (s.wr64 lo hi v).host = s.host ∧
    (s.wr64 lo hi v).adm = s.adm ∧ (s.wr64 lo hi v).ain = s.ain ∧ (s.wr64 lo hi v).aout = s.aout ∧
    (s.wr64 lo hi v).spk = s.spk ∧ (s.wr64 lo hi v).thk = s.thk ∧ (s.wr64 lo hi v).sel = s.sel ∧
    (s.wr64 lo hi v).trl = s.trl ∧ (s.wr64 lo hi v).fx = s.fx ∧ (s.wr64 lo hi v).clip = s.clip ∧
    (s.wr64 lo hi v).sap = s.sap ∧ (s.wr64 lo hi v).grove = s.grove ∧ (s.wr64 lo hi v).net = s.net ∧
    (s.wr64 lo hi v).loop = s.loop ∧ (s.wr64 lo hi v).dram = s.dram ∧ (s.wr64 lo hi v).step = s.step ∧
    (s.wr64 lo hi v).hwd = s.hwd ∧ (s.wr64 lo hi v).flt = s.flt ∧ (s.wr64 lo hi v).twb = s.twb ∧
    (s.wr64 lo hi v).pwr = s.pwr ∧ (s.wr64 lo hi v).blz = s.blz ∧ (s.wr64 lo hi v).lsn = s.lsn ∧
    (s.wr64 lo hi v).sup = s.sup ∧ (s.wr64 lo hi v).pin = s.pin ∧ (s.wr64 lo hi v).inter = s.inter ∧
    (s.wr64 lo hi v).interOld = s.interOld ∧ (s.wr64 lo hi v).inter2 = s.inter2 ∧ (s.wr64 lo hi v).free = s.free ∧
    (s.wr64 lo hi v).pending = s.pending := by
  repeat' constructor

@[simp] theorem advance_keeps (t : DT) :
    (s.advance t).regs = s.regs ∧ (s.advance t).clk = s.clk ∧ (s.advance t).host = s.host ∧
    (s.advance t).adm = s.adm ∧ (s.advance t).ain = s.ain ∧ (s.advance t).aout = s.aout ∧
    (s.advance t).spk = s.spk ∧ (s.advance t).thk = s.thk ∧ (s.advance t).sel = s.sel ∧ (s.advance t).trl = s.trl ∧
    (s.advance t).fx = s.fx ∧ (s.advance t).clip = s.clip ∧ (s.advance t).sap = s.sap ∧
    (s.advance t).grove = s.grove ∧ (s.advance t).net = s.net ∧ (s.advance t).loop = s.loop ∧
    (s.advance t).dram = s.dram ∧ (s.advance t).step = s.step ∧ (s.advance t).hwd = s.hwd ∧
    (s.advance t).flt = s.flt ∧ (s.advance t).twb = s.twb ∧ (s.advance t).pwr = s.pwr ∧ (s.advance t).blz = s.blz ∧
    (s.advance t).lsn = s.lsn ∧ (s.advance t).sup = s.sup ∧ (s.advance t).pin = s.pin ∧
    (s.advance t).inter = s.inter ∧ (s.advance t).interOld = s.interOld ∧ (s.advance t).inter2 = s.inter2 ∧
    (s.advance t).free = s.free ∧ (s.advance t).pending = s.pending := by
  repeat' constructor

@[simp] theorem setRing_keeps (n : Nat) (r : Ring) :
    (s.setRing n r).regs = s.regs ∧ (s.setRing n r).time = s.time ∧ (s.setRing n r).clk = s.clk ∧
    (s.setRing n r).adm = s.adm ∧ (s.setRing n r).ain = s.ain ∧ (s.setRing n r).aout = s.aout ∧
    (s.setRing n r).spk = s.spk ∧ (s.setRing n r).thk = s.thk ∧ (s.setRing n r).sel = s.sel ∧
    (s.setRing n r).trl = s.trl ∧ (s.setRing n r).fx = s.fx ∧ (s.setRing n r).clip = s.clip ∧
    (s.setRing n r).sap = s.sap ∧ (s.setRing n r).grove = s.grove ∧ (s.setRing n r).net = s.net ∧
    (s.setRing n r).loop = s.loop ∧ (s.setRing n r).dram = s.dram ∧ (s.setRing n r).step = s.step ∧
    (s.setRing n r).hwd = s.hwd ∧ (s.setRing n r).flt = s.flt ∧ (s.setRing n r).twb = s.twb ∧
    (s.setRing n r).pwr = s.pwr ∧ (s.setRing n r).blz = s.blz ∧ (s.setRing n r).lsn = s.lsn ∧
    (s.setRing n r).sup = s.sup ∧ (s.setRing n r).pin = s.pin ∧ (s.setRing n r).inter = s.inter ∧
    (s.setRing n r).interOld = s.interOld ∧ (s.setRing n r).inter2 = s.inter2 ∧ (s.setRing n r).free = s.free ∧
    (s.setRing n r).pending = s.pending := by
  repeat' constructor

@[simp] theorem updRing_keeps (n : Nat) (f : Ring → Ring) :
    (s.updRing n f).regs = s.regs ∧ (s.updRing n f).time = s.time ∧ (s.updRing n f).clk = s.clk ∧
    (s.updRing n f).adm = s.adm ∧ (s.updRing n f).ain = s.ain ∧ (s.updRing n f).aout = s.aout ∧
    (s.updRing n f).spk = s.spk ∧ (s.updRing n f).thk = s.thk ∧ (s.updRing n f).sel = s.sel ∧
    (s.updRing n f).trl = s.trl ∧ (s.updRing n f).fx = s.fx ∧ (s.updRing n f).clip = s.clip ∧
    (s.updRing n f).sap = s.sap ∧ (s.updRing n f).grove = s.grove ∧ (s.updRing n f).net = s.net ∧
    (s.updRing n f).loop = s.loop ∧ (s.updRing n f).dram = s.dram ∧ (s.updRing n f).step = s.step ∧
    (s.updRing n f).hwd = s.hwd ∧ (s.updRing n f).flt = s.flt ∧ (s.updRing n f).twb = s.twb ∧
    (s.updRing n f).pwr = s.pwr ∧ (s.updRing n f).blz = s.blz ∧ (s.updRing n f).lsn = s.lsn ∧
    (s.updRing n f).sup = s.sup ∧ (s.updRing n f).pin = s.pin ∧ (s.updRing n f).inter = s.inter ∧
    (s.updRing n f).interOld = s.interOld ∧ (s.updRing n f).inter2 = s.inter2 ∧ (s.updRing n f).free = s.free ∧
    (s.updRing n f).pending = s.pending := by
  repeat' constructor

@[simp] theorem ringAdv_keeps (n k : Nat) :
    (s.ringAdv n k).regs = s.regs ∧ (s.ringAdv n k).time = s.time ∧ (s.ringAdv n k).clk = s.clk ∧
    (s.ringAdv n k).adm = s.adm ∧ (s.ringAdv n k).ain = s.ain ∧ (s.ringAdv n k).aout = s.aout ∧
    (s.ringAdv n k).spk = s.spk ∧ (s.ringAdv n k).thk = s.thk ∧ (s.ringAdv n k).sel = s.sel ∧
    (s.ringAdv n k).trl = s.trl ∧ (s.ringAdv n k).fx = s.fx ∧ (s.ringAdv n k).clip = s.clip ∧
    (s.ringAdv n k).sap = s.sap ∧ (s.ringAdv n k).grove = s.grove ∧ (s.ringAdv n k).net = s.net ∧
    (s.ringAdv n k).loop = s.loop ∧ (s.ringAdv n k).dram = s.dram ∧ (s.ringAdv n k).step = s.step ∧
    (s.ringAdv n k).hwd = s.hwd ∧ (s.ringAdv n k).flt = s.flt ∧ (s.ringAdv n k).twb = s.twb ∧
    (s.ringAdv n k).pwr = s.pwr ∧ (s.ringAdv n k).blz = s.blz ∧ (s.ringAdv n k).lsn = s.lsn ∧
    (s.ringAdv n k).sup = s.sup ∧ (s.ringAdv n k).pin = s.pin ∧ (s.ringAdv n k).inter = s.inter ∧
    (s.ringAdv n k).interOld = s.interOld ∧ (s.ringAdv n k).inter2 = s.inter2 ∧ (s.ringAdv n k).free = s.free ∧
    (s.ringAdv n k).pending = s.pending := by
  repeat' constructor

@[simp] theorem armWait_keeps (h : Hdr) (op : Nat) (k : WaitKind) (t : TS) :
    (s.armWait h op k t).regs = s.regs ∧ (s.armWait h op k t).time = s.time ∧ (s.armWait h op k t).clk = s.clk ∧
    (s.armWait h op k t).adm = s.adm ∧ (s.armWait h op k t).ain = s.ain ∧ (s.armWait h op k t).aout = s.aout ∧
    (s.armWait h op k t).spk = s.spk ∧ (s.armWait h op k t).thk = s.thk ∧ (s.armWait h op k t).sel = s.sel ∧
    (s.armWait h op k t).trl = s.trl ∧ (s.armWait h op k t).fx = s.fx ∧ (s.armWait h op k t).clip = s.clip ∧
    (s.armWait h op k t).sap = s.sap ∧ (s.armWait h op k t).grove = s.grove ∧ (s.armWait h op k t).net = s.net ∧
    (s.armWait h op k t).loop = s.loop ∧ (s.armWait h op k t).dram = s.dram ∧ (s.armWait h op k t).step = s.step ∧
    (s.armWait h op k t).hwd = s.hwd ∧ (s.armWait h op k t).flt = s.flt ∧ (s.armWait h op k t).twb = s.twb ∧
    (s.armWait h op k t).pwr = s.pwr ∧ (s.armWait h op k t).blz = s.blz ∧ (s.armWait h op k t).lsn = s.lsn ∧
    (s.armWait h op k t).sup = s.sup ∧ (s.armWait h op k t).pin = s.pin ∧ (s.armWait h op k t).inter = s.inter ∧
    (s.armWait h op k t).interOld = s.interOld ∧ (s.armWait h op k t).inter2 = s.inter2 ∧
    (s.armWait h op k t).free = s.free ∧ (s.armWait h op k t).pending = s.pending := by
  repeat' constructor

@[simp] theorem completeOpen_keeps (h : Hdr) (op : Nat) (st : Status) (ts : TS) (dt : DT) (r0 r1 r2 : Word) (force : Bool) :
    (s.completeOpen h op st ts dt r0 r1 r2 force).regs = s.regs ∧
    (s.completeOpen h op st ts dt r0 r1 r2 force).time = s.time ∧
    (s.completeOpen h op st ts dt r0 r1 r2 force).clk = s.clk ∧
    (s.completeOpen h op st ts dt r0 r1 r2 force).adm = s.adm ∧
    (s.completeOpen h op st ts dt r0 r1 r2 force).ain = s.ain ∧
    (s.completeOpen h op st ts dt r0 r1 r2 force).aout = s.aout ∧
    (s.completeOpen h op st ts dt r0 r1 r2 force).spk = s.spk ∧
    (s.completeOpen h op st ts dt r0 r1 r2 force).thk = s.thk ∧
    (s.completeOpen h op st ts dt r0 r1 r2 force).sel = s.sel ∧
    (s.completeOpen h op st ts dt r0 r1 r2 force).trl = s.trl ∧
    (s.completeOpen h op st ts dt r0 r1 r2 force).fx = s.fx ∧
    (s.completeOpen h op st ts dt r0 r1 r2 force).clip = s.clip ∧
    (s.completeOpen h op st ts dt r0 r1 r2 force).sap = s.sap ∧
    (s.completeOpen h op st ts dt r0 r1 r2 force).grove = s.grove ∧
    (s.completeOpen h op st ts dt r0 r1 r2 force).net = s.net ∧
    (s.completeOpen h op st ts dt r0 r1 r2 force).loop = s.loop ∧
    (s.completeOpen h op st ts dt r0 r1 r2 force).dram = s.dram ∧
    (s.completeOpen h op st ts dt r0 r1 r2 force).step = s.step ∧
    (s.completeOpen h op st ts dt r0 r1 r2 force).hwd = s.hwd ∧
    (s.completeOpen h op st ts dt r0 r1 r2 force).flt = s.flt ∧
    (s.completeOpen h op st ts dt r0 r1 r2 force).twb = s.twb ∧
    (s.completeOpen h op st ts dt r0 r1 r2 force).pwr = s.pwr ∧
    (s.completeOpen h op st ts dt r0 r1 r2 force).blz = s.blz ∧
    (s.completeOpen h op st ts dt r0 r1 r2 force).lsn = s.lsn ∧
    (s.completeOpen h op st ts dt r0 r1 r2 force).sup = s.sup ∧
    (s.completeOpen h op st ts dt r0 r1 r2 force).pin = s.pin ∧
    (s.completeOpen h op st ts dt r0 r1 r2 force).inter = s.inter ∧
    (s.completeOpen h op st ts dt r0 r1 r2 force).interOld = s.interOld ∧
    (s.completeOpen h op st ts dt r0 r1 r2 force).inter2 = s.inter2 ∧
    (s.completeOpen h op st ts dt r0 r1 r2 force).free = s.free ∧
    (s.completeOpen h op st ts dt r0 r1 r2 force).pending = s.pending := by
  repeat' constructor

@[simp] theorem put_keeps (a : Nat) (v : Smp) :
    (s.put a v).regs = s.regs ∧ (s.put a v).time = s.time ∧ (s.put a v).clk = s.clk ∧ (s.put a v).host = s.host ∧
    (s.put a v).adm = s.adm ∧ (s.put a v).ain = s.ain ∧ (s.put a v).aout = s.aout ∧ (s.put a v).spk = s.spk ∧
    (s.put a v).thk = s.thk ∧ (s.put a v).sel = s.sel ∧ (s.put a v).trl = s.trl ∧ (s.put a v).fx = s.fx ∧
    (s.put a v).clip = s.clip ∧ (s.put a v).sap = s.sap ∧ (s.put a v).grove = s.grove ∧ (s.put a v).net = s.net ∧
    (s.put a v).loop = s.loop ∧ (s.put a v).dram = s.dram ∧ (s.put a v).step = s.step ∧ (s.put a v).hwd = s.hwd ∧
    (s.put a v).flt = s.flt ∧ (s.put a v).twb = s.twb ∧ (s.put a v).pwr = s.pwr ∧ (s.put a v).blz = s.blz ∧
    (s.put a v).lsn = s.lsn ∧ (s.put a v).sup = s.sup ∧ (s.put a v).pin = s.pin ∧ (s.put a v).inter = s.inter ∧
    (s.put a v).interOld = s.interOld ∧ (s.put a v).free = s.free ∧ (s.put a v).pending = s.pending := by
  repeat' constructor

@[simp] theorem place_keeps (a : Nat) (v : Smp) :
    (s.place a v).regs = s.regs ∧ (s.place a v).time = s.time ∧ (s.place a v).clk = s.clk ∧
    (s.place a v).host = s.host ∧ (s.place a v).adm = s.adm ∧ (s.place a v).ain = s.ain ∧
    (s.place a v).aout = s.aout ∧ (s.place a v).spk = s.spk ∧ (s.place a v).thk = s.thk ∧
    (s.place a v).sel = s.sel ∧ (s.place a v).trl = s.trl ∧ (s.place a v).fx = s.fx ∧ (s.place a v).clip = s.clip ∧
    (s.place a v).sap = s.sap ∧ (s.place a v).grove = s.grove ∧ (s.place a v).net = s.net ∧
    (s.place a v).loop = s.loop ∧ (s.place a v).dram = s.dram ∧ (s.place a v).step = s.step ∧
    (s.place a v).hwd = s.hwd ∧ (s.place a v).flt = s.flt ∧ (s.place a v).twb = s.twb ∧ (s.place a v).pwr = s.pwr ∧
    (s.place a v).blz = s.blz ∧ (s.place a v).lsn = s.lsn ∧ (s.place a v).sup = s.sup ∧ (s.place a v).pin = s.pin ∧
    (s.place a v).interOld = s.interOld ∧ (s.place a v).inter2 = s.inter2 ∧ (s.place a v).free = s.free ∧
    (s.place a v).pending = s.pending := by
  repeat' constructor

end Sys2Proof.Machine
end

