-- ==== Sys2Proof/Laws/Ops.lean ====
section
/-! SUPPORT. What the shared operations do: sparse tables, fields of a word, registers. -/
namespace Sys2Proof.Machine

/-! ## Sparse tables -/

@[simp] theorem smGet?_nil {α : Type} (k : Nat) : smGet? ([] : SMap α) k = none := rfl

theorem smGet?_set {α : Type} (m : SMap α) (k : Nat) (v : α) (j : Nat) :
    smGet? (smSet m k v) j = if j = k then some v else smGet? m j := by
  induction m with
  | nil => simp [smSet, smGet?, eq_comm]
  | cons p r ih =>
    obtain ⟨k', v'⟩ := p
    unfold smSet
    split
    · simp only [smGet?, eq_comm]
    · split
      · subst k'; simp only [smGet?]
        by_cases h : j = k
        · simp [h]
        · have h' : ¬ k = j := fun e => h e.symm
          simp [h, h']
      · simp only [smGet?, ih]
        by_cases h1 : k' = j
        · have : ¬ j = k := by omega
          simp [h1, this]
        · simp [h1]

@[simp] theorem smGet?_set_self {α : Type} (m : SMap α) (k : Nat) (v : α) : smGet? (smSet m k v) k = some v := by
  simp [smGet?_set]

theorem smGet_set {α : Type} (m : SMap α) (k : Nat) (v : α) (j : Nat) (d : α) :
    smGet (smSet m k v) j d = if j = k then v else smGet m j d := by
  unfold smGet; rw [smGet?_set]; split <;> rfl

@[simp] theorem smGet_set_self {α : Type} (m : SMap α) (k : Nat) (v d : α) : smGet (smSet m k v) k d = v := by
  simp [smGet_set]

theorem smGet_set_ne {α : Type} (m : SMap α) {k j : Nat} (h : j ≠ k) (v d : α) :
    smGet (smSet m k v) j d = smGet m j d := by
  simp [smGet_set, h]

/-! ## Fields of a word -/

theorem bitsOf_lt (x : Word) (lo w : Nat) : bitsOf x lo w < 2 ^ w := Nat.mod_lt _ (Nat.two_pow_pos w)

theorem bitsOf_testBit (x : Word) (lo w i : Nat) :
    (bitsOf x lo w).testBit i = (decide (i < w) && x.toNat.testBit (lo + i)) := by
  simp [bitsOf, Nat.testBit_mod_two_pow, Nat.testBit_div_two_pow, Nat.add_comm]

/-- Bit i of a word with a field replaced. -/
theorem withBits_testBit (x : Word) (lo w v i : Nat) (h : lo + w ≤ 32) :
    (withBits x lo w v).toNat.testBit i =
      if i < lo then x.toNat.testBit i else if i < lo + w then v.testBit (i - lo) else x.toNat.testBit i := by
  have hx := x.isLt
  have hi : ∀ j, 32 ≤ j → x.toNat.testBit j = false := fun j hj =>
    Nat.testBit_lt_two_pow (Nat.lt_of_lt_of_le hx (Nat.pow_le_pow_right (by decide) hj))
  have e : x.toNat / 2 ^ (lo + w) * 2 ^ (lo + w) + v % 2 ^ w * 2 ^ lo + x.toNat % 2 ^ lo
      = 2 ^ lo * (2 ^ w * (x.toNat / 2 ^ (lo + w)) + v % 2 ^ w) + x.toNat % 2 ^ lo := by
    rw [Nat.pow_add, Nat.mul_add, ← Nat.mul_assoc (2 ^ lo), Nat.mul_comm (x.toNat / _), Nat.mul_comm (v % _)]
  unfold withBits
  rw [BitVec.toNat_ofNat, Nat.testBit_mod_two_pow, e,
    Nat.testBit_two_pow_mul_add _ (Nat.mod_lt _ (Nat.two_pow_pos lo)),
    Nat.testBit_two_pow_mul_add _ (Nat.mod_lt _ (Nat.two_pow_pos w))]
  by_cases h1 : i < lo
  · have : i < 32 := by omega
    simp [h1, this, Nat.testBit_mod_two_pow]
  · by_cases h2 : i < lo + w
    · have a : i < 32 := by omega
      have b : i - lo < w := by omega
      simp [h1, h2, a, b, Nat.testBit_mod_two_pow]
    · have b : ¬ i - lo < w := by omega
      have c : lo + w + (i - lo - w) = i := by omega
      simp only [h1, h2, b, if_false, Nat.testBit_div_two_pow]
      by_cases a : i < 32
      · simp [a]; congr 1; omega
      · simp [a, hi i (by omega)]

/-- A field read back after it was stored. -/
theorem bitsOf_withBits (x : Word) (lo w v : Nat) (h : lo + w ≤ 32) : bitsOf (withBits x lo w v) lo w = v % 2 ^ w := by
  apply Nat.eq_of_testBit_eq
  intro i
  rw [bitsOf_testBit, withBits_testBit _ _ _ _ _ h, Nat.testBit_mod_two_pow]
  by_cases hi : i < w
  · have a : ¬ lo + i < lo := by omega
    have b : lo + i < lo + w := by omega
    simp only [hi, a, b, if_false, if_true, decide_true, Bool.true_and]; congr 1; omega
  · simp [hi]

/-- A field that does not meet the one stored. -/
theorem bitsOf_withBits_ne (x : Word) (lo w v lo' w' : Nat) (h : lo + w ≤ 32) (d : lo + w ≤ lo' ∨ lo' + w' ≤ lo) :
    bitsOf (withBits x lo w v) lo' w' = bitsOf x lo' w' := by
  apply Nat.eq_of_testBit_eq
  intro i
  rw [bitsOf_testBit, withBits_testBit _ _ _ _ _ h, bitsOf_testBit]
  by_cases hi : i < w'
  · rcases d with d | d
    · have a : ¬ lo' + i < lo := by omega
      have b : ¬ lo' + i < lo + w := by omega
      simp [hi, a, b]
    · have a : lo' + i < lo := by omega
      simp [hi, a]
  · simp [hi]

/-! ## Registers -/

@[simp] theorem State.rd_wr_self (s : State) (o : Nat) (v : Word) : (s.wr o v).rd o = v := by simp [State.rd, State.wr]

theorem State.rd_wr (s : State) (o o' : Nat) (v : Word) : (s.wr o v).rd o' = if o' = o then v else s.rd o' := by
  simp [State.rd, State.wr, smGet_set]

theorem State.rd_wr_ne (s : State) {o o' : Nat} (h : o' ≠ o) (v : Word) : (s.wr o v).rd o' = s.rd o' := by
  simp [State.rd_wr, h]

/-- A register read depends on the registers only. -/
theorem State.rd_congr {s t : State} (h : t.regs = s.regs) (o : Nat) : t.rd o = s.rd o := by simp [State.rd, h]

@[simp] theorem State.fld_setFld_self (s : State) (f : Field) (v : Nat) (h : f.lo + f.w ≤ 32) :
    (s.setFld f v).fld f = v % 2 ^ f.w := by
  simp [State.fld, State.setFld, bitsOf_withBits _ _ _ _ h]

theorem State.rd_setFld_ne (s : State) (f : Field) (v : Nat) {o : Nat} (h : o ≠ f.off) : (s.setFld f v).rd o = s.rd o :=
  s.rd_wr_ne h _

theorem State.fld_setFld_ne (s : State) (f g : Field) (v : Nat) (h : f.lo + f.w ≤ 32)
    (d : g.off ≠ f.off ∨ f.lo + f.w ≤ g.lo ∨ g.lo + g.w ≤ f.lo) : (s.setFld f v).fld g = s.fld g := by
  unfold State.fld State.setFld
  by_cases e : g.off = f.off
  · rw [e, State.rd_wr_self]
    rcases d with d | d
    · exact absurd e d
    · exact bitsOf_withBits_ne _ _ _ _ _ _ h d
  · rw [s.rd_wr_ne e]

/-! ## The event log: it touches Blaze and its counters only -/

variable (s : State)

@[simp] theorem countDrop_keeps (e : Ev) (b : Bool) :
    (s.countDrop e b).time = s.time ∧ (s.countDrop e b).clk = s.clk ∧ (s.countDrop e b).host = s.host ∧
    (s.countDrop e b).adm = s.adm ∧ (s.countDrop e b).ain = s.ain ∧ (s.countDrop e b).aout = s.aout ∧
    (s.countDrop e b).spk = s.spk ∧ (s.countDrop e b).thk = s.thk ∧ (s.countDrop e b).sel = s.sel ∧
    (s.countDrop e b).trl = s.trl ∧ (s.countDrop e b).fx = s.fx ∧ (s.countDrop e b).clip = s.clip ∧
    (s.countDrop e b).sap = s.sap ∧ (s.countDrop e b).grove = s.grove ∧ (s.countDrop e b).net = s.net ∧
    (s.countDrop e b).loop = s.loop ∧ (s.countDrop e b).dram = s.dram ∧ (s.countDrop e b).step = s.step ∧
    (s.countDrop e b).hwd = s.hwd ∧ (s.countDrop e b).flt = s.flt ∧ (s.countDrop e b).twb = s.twb ∧
    (s.countDrop e b).pwr = s.pwr ∧ (s.countDrop e b).lsn = s.lsn ∧ (s.countDrop e b).sup = s.sup ∧
    (s.countDrop e b).pin = s.pin ∧ (s.countDrop e b).inter = s.inter ∧ (s.countDrop e b).interOld = s.interOld ∧
    (s.countDrop e b).inter2 = s.inter2 ∧ (s.countDrop e b).free = s.free ∧ (s.countDrop e b).pending = s.pending := by
  unfold State.countDrop; cases b <;> simp

theorem countDrop_rd (e : Ev) (b : Bool) {o : Nat} (h : o < 0x13020 ∨ 0x13040 < o) : (s.countDrop e b).rd o = s.rd o := by
  unfold State.countDrop State.bumpBy
  cases b
  · simp only [Bool.false_eq_true, if_false]
    rw [State.rd_wr_ne _ (by simp only [Reg.BLZ_DROP]; omega)]; rfl
  · simp only [if_true]
    rw [State.rd_wr_ne _ (by simp only [Reg.BLZ_STAGE_DROP]; omega), State.rd_wr_ne _ (by simp only [Reg.BLZ_DROP]; omega)]; rfl

@[simp] theorem stage_keeps (e : Ev) :
    (s.stage e).time = s.time ∧ (s.stage e).clk = s.clk ∧ (s.stage e).host = s.host ∧ (s.stage e).adm = s.adm ∧
    (s.stage e).ain = s.ain ∧ (s.stage e).aout = s.aout ∧ (s.stage e).spk = s.spk ∧ (s.stage e).thk = s.thk ∧
    (s.stage e).sel = s.sel ∧ (s.stage e).trl = s.trl ∧ (s.stage e).fx = s.fx ∧ (s.stage e).clip = s.clip ∧
    (s.stage e).sap = s.sap ∧ (s.stage e).grove = s.grove ∧ (s.stage e).net = s.net ∧ (s.stage e).loop = s.loop ∧
    (s.stage e).dram = s.dram ∧ (s.stage e).step = s.step ∧ (s.stage e).hwd = s.hwd ∧ (s.stage e).flt = s.flt ∧
    (s.stage e).twb = s.twb ∧ (s.stage e).pwr = s.pwr ∧ (s.stage e).lsn = s.lsn ∧ (s.stage e).sup = s.sup ∧
    (s.stage e).pin = s.pin ∧ (s.stage e).inter = s.inter ∧ (s.stage e).interOld = s.interOld ∧
    (s.stage e).inter2 = s.inter2 ∧ (s.stage e).free = s.free ∧ (s.stage e).pending = s.pending := by
  unfold State.stage; dsimp only
  generalize stageInto _ _ e = x; obtain ⟨q, d, co⟩ := x
  cases d <;> cases co <;> cases s.coreDown <;> simp

theorem stage_rd (e : Ev) {o : Nat} (h : o < 0x13020 ∨ 0x13040 < o) : (s.stage e).rd o = s.rd o := by
  have h' : o ≠ Reg.BLZ_COALCNT := by simp only [Reg.BLZ_COALCNT]; omega
  unfold State.stage State.bump State.bumpBy; dsimp only
  generalize stageInto _ _ e = x; obtain ⟨q, d, co⟩ := x
  cases d <;> cases co <;> cases s.coreDown <;> simp [countDrop_rd _ _ _ h, State.rd_wr_ne _ h'] <;> rfl

@[simp] theorem logAt_keeps (src code sev : Nat) (dt : DT) (p0 p1 p2 : Word) :
    (s.logAt src code sev dt p0 p1 p2).time = s.time ∧ (s.logAt src code sev dt p0 p1 p2).clk = s.clk ∧
    (s.logAt src code sev dt p0 p1 p2).host = s.host ∧ (s.logAt src code sev dt p0 p1 p2).adm = s.adm ∧
    (s.logAt src code sev dt p0 p1 p2).ain = s.ain ∧ (s.logAt src code sev dt p0 p1 p2).aout = s.aout ∧
    (s.logAt src code sev dt p0 p1 p2).spk = s.spk ∧ (s.logAt src code sev dt p0 p1 p2).thk = s.thk ∧
    (s.logAt src code sev dt p0 p1 p2).sel = s.sel ∧ (s.logAt src code sev dt p0 p1 p2).trl = s.trl ∧
    (s.logAt src code sev dt p0 p1 p2).fx = s.fx ∧ (s.logAt src code sev dt p0 p1 p2).clip = s.clip ∧
    (s.logAt src code sev dt p0 p1 p2).sap = s.sap ∧ (s.logAt src code sev dt p0 p1 p2).grove = s.grove ∧
    (s.logAt src code sev dt p0 p1 p2).net = s.net ∧ (s.logAt src code sev dt p0 p1 p2).loop = s.loop ∧
    (s.logAt src code sev dt p0 p1 p2).dram = s.dram ∧ (s.logAt src code sev dt p0 p1 p2).step = s.step ∧
    (s.logAt src code sev dt p0 p1 p2).hwd = s.hwd ∧ (s.logAt src code sev dt p0 p1 p2).flt = s.flt ∧
    (s.logAt src code sev dt p0 p1 p2).twb = s.twb ∧ (s.logAt src code sev dt p0 p1 p2).pwr = s.pwr ∧
    (s.logAt src code sev dt p0 p1 p2).lsn = s.lsn ∧ (s.logAt src code sev dt p0 p1 p2).sup = s.sup ∧
    (s.logAt src code sev dt p0 p1 p2).pin = s.pin ∧ (s.logAt src code sev dt p0 p1 p2).inter = s.inter ∧
    (s.logAt src code sev dt p0 p1 p2).interOld = s.interOld ∧
    (s.logAt src code sev dt p0 p1 p2).inter2 = s.inter2 ∧ (s.logAt src code sev dt p0 p1 p2).free = s.free ∧
    (s.logAt src code sev dt p0 p1 p2).pending = s.pending := by
  simp [State.logAt]

theorem logAt_rd (src code sev : Nat) (dt : DT) (p0 p1 p2 : Word) {o : Nat} (h : o < 0x13020 ∨ 0x13040 < o) :
    (s.logAt src code sev dt p0 p1 p2).rd o = s.rd o := stage_rd _ _ h

@[simp] theorem log_keeps (src code sev : Nat) (p0 p1 p2 : Word) :
    (s.log src code sev p0 p1 p2).time = s.time ∧ (s.log src code sev p0 p1 p2).clk = s.clk ∧
    (s.log src code sev p0 p1 p2).host = s.host ∧ (s.log src code sev p0 p1 p2).adm = s.adm ∧
    (s.log src code sev p0 p1 p2).ain = s.ain ∧ (s.log src code sev p0 p1 p2).aout = s.aout ∧
    (s.log src code sev p0 p1 p2).spk = s.spk ∧ (s.log src code sev p0 p1 p2).thk = s.thk ∧
    (s.log src code sev p0 p1 p2).sel = s.sel ∧ (s.log src code sev p0 p1 p2).trl = s.trl ∧
    (s.log src code sev p0 p1 p2).fx = s.fx ∧ (s.log src code sev p0 p1 p2).clip = s.clip ∧
    (s.log src code sev p0 p1 p2).sap = s.sap ∧ (s.log src code sev p0 p1 p2).grove = s.grove ∧
    (s.log src code sev p0 p1 p2).net = s.net ∧ (s.log src code sev p0 p1 p2).loop = s.loop ∧
    (s.log src code sev p0 p1 p2).dram = s.dram ∧ (s.log src code sev p0 p1 p2).step = s.step ∧
    (s.log src code sev p0 p1 p2).hwd = s.hwd ∧ (s.log src code sev p0 p1 p2).flt = s.flt ∧
    (s.log src code sev p0 p1 p2).twb = s.twb ∧ (s.log src code sev p0 p1 p2).pwr = s.pwr ∧
    (s.log src code sev p0 p1 p2).lsn = s.lsn ∧ (s.log src code sev p0 p1 p2).sup = s.sup ∧
    (s.log src code sev p0 p1 p2).pin = s.pin ∧ (s.log src code sev p0 p1 p2).inter = s.inter ∧
    (s.log src code sev p0 p1 p2).interOld = s.interOld ∧ (s.log src code sev p0 p1 p2).inter2 = s.inter2 ∧
    (s.log src code sev p0 p1 p2).free = s.free ∧ (s.log src code sev p0 p1 p2).pending = s.pending := by
  simp [State.log]

theorem log_rd (src code sev : Nat) (p0 p1 p2 : Word) {o : Nat} (h : o < 0x13020 ∨ 0x13040 < o) :
    (s.log src code sev p0 p1 p2).rd o = s.rd o := stage_rd _ _ h

@[simp] theorem limEnd_keeps (code key : Nat) (dt : DT) :
    (s.limEnd code key dt).time = s.time ∧ (s.limEnd code key dt).clk = s.clk ∧
    (s.limEnd code key dt).host = s.host ∧ (s.limEnd code key dt).adm = s.adm ∧
    (s.limEnd code key dt).ain = s.ain ∧ (s.limEnd code key dt).aout = s.aout ∧
    (s.limEnd code key dt).spk = s.spk ∧ (s.limEnd code key dt).thk = s.thk ∧ (s.limEnd code key dt).sel = s.sel ∧
    (s.limEnd code key dt).trl = s.trl ∧ (s.limEnd code key dt).fx = s.fx ∧ (s.limEnd code key dt).clip = s.clip ∧
    (s.limEnd code key dt).sap = s.sap ∧ (s.limEnd code key dt).grove = s.grove ∧
    (s.limEnd code key dt).net = s.net ∧ (s.limEnd code key dt).loop = s.loop ∧
    (s.limEnd code key dt).dram = s.dram ∧ (s.limEnd code key dt).step = s.step ∧
    (s.limEnd code key dt).hwd = s.hwd ∧ (s.limEnd code key dt).flt = s.flt ∧ (s.limEnd code key dt).twb = s.twb ∧
    (s.limEnd code key dt).pwr = s.pwr ∧ (s.limEnd code key dt).lsn = s.lsn ∧ (s.limEnd code key dt).sup = s.sup ∧
    (s.limEnd code key dt).pin = s.pin ∧ (s.limEnd code key dt).inter = s.inter ∧
    (s.limEnd code key dt).interOld = s.interOld ∧ (s.limEnd code key dt).inter2 = s.inter2 ∧
    (s.limEnd code key dt).free = s.free ∧ (s.limEnd code key dt).pending = s.pending := by
  unfold State.limEnd
  split
  · simp
  · split
    · dsimp only; split <;> simp
    · simp

theorem limEnd_rd (code key : Nat) (dt : DT) {o : Nat} (h : o < 0x13020 ∨ 0x13040 < o) :
    (s.limEnd code key dt).rd o = s.rd o := by
  unfold State.limEnd
  split
  · rfl
  · split
    · dsimp only; split
      · rfl
      · exact stage_rd _ _ h
    · rfl

@[simp] theorem logLim_keeps (src code sev key cp n : Nat) (dt : DT) (p0 p1 p2 : Word) :
    (s.logLim src code sev key cp n dt p0 p1 p2).time = s.time ∧
    (s.logLim src code sev key cp n dt p0 p1 p2).clk = s.clk ∧
    (s.logLim src code sev key cp n dt p0 p1 p2).host = s.host ∧
    (s.logLim src code sev key cp n dt p0 p1 p2).adm = s.adm ∧
    (s.logLim src code sev key cp n dt p0 p1 p2).ain = s.ain ∧
    (s.logLim src code sev key cp n dt p0 p1 p2).aout = s.aout ∧
    (s.logLim src code sev key cp n dt p0 p1 p2).spk = s.spk ∧
    (s.logLim src code sev key cp n dt p0 p1 p2).thk = s.thk ∧
    (s.logLim src code sev key cp n dt p0 p1 p2).sel = s.sel ∧
    (s.logLim src code sev key cp n dt p0 p1 p2).trl = s.trl ∧
    (s.logLim src code sev key cp n dt p0 p1 p2).fx = s.fx ∧
    (s.logLim src code sev key cp n dt p0 p1 p2).clip = s.clip ∧
    (s.logLim src code sev key cp n dt p0 p1 p2).sap = s.sap ∧
    (s.logLim src code sev key cp n dt p0 p1 p2).grove = s.grove ∧
    (s.logLim src code sev key cp n dt p0 p1 p2).net = s.net ∧
    (s.logLim src code sev key cp n dt p0 p1 p2).loop = s.loop ∧
    (s.logLim src code sev key cp n dt p0 p1 p2).dram = s.dram ∧
    (s.logLim src code sev key cp n dt p0 p1 p2).step = s.step ∧
    (s.logLim src code sev key cp n dt p0 p1 p2).hwd = s.hwd ∧
    (s.logLim src code sev key cp n dt p0 p1 p2).flt = s.flt ∧
    (s.logLim src code sev key cp n dt p0 p1 p2).twb = s.twb ∧
    (s.logLim src code sev key cp n dt p0 p1 p2).pwr = s.pwr ∧
    (s.logLim src code sev key cp n dt p0 p1 p2).lsn = s.lsn ∧
    (s.logLim src code sev key cp n dt p0 p1 p2).sup = s.sup ∧
    (s.logLim src code sev key cp n dt p0 p1 p2).pin = s.pin ∧
    (s.logLim src code sev key cp n dt p0 p1 p2).inter = s.inter ∧
    (s.logLim src code sev key cp n dt p0 p1 p2).interOld = s.interOld ∧
    (s.logLim src code sev key cp n dt p0 p1 p2).inter2 = s.inter2 ∧
    (s.logLim src code sev key cp n dt p0 p1 p2).free = s.free ∧
    (s.logLim src code sev key cp n dt p0 p1 p2).pending = s.pending := by
  unfold State.logLim; dsimp only
  split <;> simp

theorem logLim_rd (src code sev key cp n : Nat) (dt : DT) (p0 p1 p2 : Word) {o : Nat} (h : o < 0x13020 ∨ 0x13040 < o) :
    (s.logLim src code sev key cp n dt p0 p1 p2).rd o = s.rd o := by
  unfold State.logLim; dsimp only
  split
  · refine (stage_rd _ _ h).trans ?_
    exact (limEnd_rd _ _ _ _ h).trans (limEnd_rd _ _ _ _ h)
  · exact (limEnd_rd _ _ _ _ h).trans (limEnd_rd _ _ _ _ h)

/-! ## Host-interface flags, alerts, faults -/

@[simp] theorem hstErr_keeps (f : Field) :
    (s.hstErr f).time = s.time ∧ (s.hstErr f).clk = s.clk ∧ (s.hstErr f).adm = s.adm ∧ (s.hstErr f).ain = s.ain ∧
    (s.hstErr f).aout = s.aout ∧ (s.hstErr f).spk = s.spk ∧ (s.hstErr f).thk = s.thk ∧ (s.hstErr f).sel = s.sel ∧
    (s.hstErr f).trl = s.trl ∧ (s.hstErr f).fx = s.fx ∧ (s.hstErr f).clip = s.clip ∧ (s.hstErr f).sap = s.sap ∧
    (s.hstErr f).grove = s.grove ∧ (s.hstErr f).net = s.net ∧ (s.hstErr f).loop = s.loop ∧
    (s.hstErr f).dram = s.dram ∧ (s.hstErr f).step = s.step ∧ (s.hstErr f).hwd = s.hwd ∧ (s.hstErr f).flt = s.flt ∧
    (s.hstErr f).twb = s.twb ∧ (s.hstErr f).pwr = s.pwr ∧ (s.hstErr f).blz = s.blz ∧ (s.hstErr f).lsn = s.lsn ∧
    (s.hstErr f).sup = s.sup ∧ (s.hstErr f).pin = s.pin ∧ (s.hstErr f).inter = s.inter ∧
    (s.hstErr f).interOld = s.interOld ∧ (s.hstErr f).inter2 = s.inter2 ∧ (s.hstErr f).free = s.free ∧
    (s.hstErr f).pending = s.pending := by
  unfold State.hstErr; split <;> simp

theorem hstErr_rd (f : Field) {o : Nat} (h : o ≠ f.off) : (s.hstErr f).rd o = s.rd o := by
  unfold State.hstErr; split
  · rfl
  · exact s.rd_setFld_ne f 1 h

@[simp] theorem hstErr_rings (f : Field) : (s.hstErr f).host.rings = s.host.rings := by unfold State.hstErr; split <;> simp

@[simp] theorem alertSet_keeps (f : Field) :
    (s.alertSet f).time = s.time ∧ (s.alertSet f).clk = s.clk ∧ (s.alertSet f).host = s.host ∧
    (s.alertSet f).adm = s.adm ∧ (s.alertSet f).ain = s.ain ∧ (s.alertSet f).aout = s.aout ∧
    (s.alertSet f).spk = s.spk ∧ (s.alertSet f).thk = s.thk ∧ (s.alertSet f).sel = s.sel ∧
    (s.alertSet f).trl = s.trl ∧ (s.alertSet f).fx = s.fx ∧ (s.alertSet f).clip = s.clip ∧
    (s.alertSet f).sap = s.sap ∧ (s.alertSet f).grove = s.grove ∧ (s.alertSet f).net = s.net ∧
    (s.alertSet f).loop = s.loop ∧ (s.alertSet f).dram = s.dram ∧ (s.alertSet f).step = s.step ∧
    (s.alertSet f).hwd = s.hwd ∧ (s.alertSet f).flt = s.flt ∧ (s.alertSet f).pwr = s.pwr ∧
    (s.alertSet f).blz = s.blz ∧ (s.alertSet f).lsn = s.lsn ∧ (s.alertSet f).sup = s.sup ∧
    (s.alertSet f).pin = s.pin ∧ (s.alertSet f).inter = s.inter ∧ (s.alertSet f).interOld = s.interOld ∧
    (s.alertSet f).inter2 = s.inter2 ∧ (s.alertSet f).free = s.free ∧ (s.alertSet f).pending = s.pending := by
  unfold State.alertSet; dsimp only; split <;> simp

theorem alertSet_rd (f : Field) {o : Nat} (h : o ≠ f.off) : (s.alertSet f).rd o = s.rd o := by
  unfold State.alertSet; dsimp only; split
  · rfl
  · exact s.rd_setFld_ne f 1 h

@[simp] theorem fltSet_keeps (f : Field) :
    (s.fltSet f).time = s.time ∧ (s.fltSet f).clk = s.clk ∧ (s.fltSet f).host = s.host ∧ (s.fltSet f).adm = s.adm ∧
    (s.fltSet f).ain = s.ain ∧ (s.fltSet f).aout = s.aout ∧ (s.fltSet f).spk = s.spk ∧ (s.fltSet f).thk = s.thk ∧
    (s.fltSet f).sel = s.sel ∧ (s.fltSet f).trl = s.trl ∧ (s.fltSet f).fx = s.fx ∧ (s.fltSet f).clip = s.clip ∧
    (s.fltSet f).sap = s.sap ∧ (s.fltSet f).grove = s.grove ∧ (s.fltSet f).net = s.net ∧
    (s.fltSet f).loop = s.loop ∧ (s.fltSet f).dram = s.dram ∧ (s.fltSet f).step = s.step ∧
    (s.fltSet f).hwd = s.hwd ∧ (s.fltSet f).flt = s.flt ∧ (s.fltSet f).pwr = s.pwr ∧ (s.fltSet f).blz = s.blz ∧
    (s.fltSet f).lsn = s.lsn ∧ (s.fltSet f).sup = s.sup ∧ (s.fltSet f).pin = s.pin ∧ (s.fltSet f).inter = s.inter ∧
    (s.fltSet f).interOld = s.interOld ∧ (s.fltSet f).inter2 = s.inter2 ∧ (s.fltSet f).free = s.free ∧
    (s.fltSet f).pending = s.pending := by
  unfold State.fltSet; dsimp only; split <;> simp

theorem fltSet_rd (f : Field) {o : Nat} (h : o ≠ f.off) (h' : o ≠ 0x11008) : (s.fltSet f).rd o = s.rd o := by
  unfold State.fltSet; dsimp only; split
  · exact (alertSet_rd _ _ h').trans (s.rd_setFld_ne f 1 h)
  · exact s.rd_setFld_ne f 1 h

@[simp] theorem mmioBad_keeps (off : Nat) :
    (s.mmioBad off).time = s.time ∧ (s.mmioBad off).clk = s.clk ∧ (s.mmioBad off).adm = s.adm ∧
    (s.mmioBad off).ain = s.ain ∧ (s.mmioBad off).aout = s.aout ∧ (s.mmioBad off).spk = s.spk ∧
    (s.mmioBad off).thk = s.thk ∧ (s.mmioBad off).sel = s.sel ∧ (s.mmioBad off).trl = s.trl ∧
    (s.mmioBad off).fx = s.fx ∧ (s.mmioBad off).clip = s.clip ∧ (s.mmioBad off).sap = s.sap ∧
    (s.mmioBad off).grove = s.grove ∧ (s.mmioBad off).net = s.net ∧ (s.mmioBad off).loop = s.loop ∧
    (s.mmioBad off).dram = s.dram ∧ (s.mmioBad off).step = s.step ∧ (s.mmioBad off).hwd = s.hwd ∧
    (s.mmioBad off).flt = s.flt ∧ (s.mmioBad off).twb = s.twb ∧ (s.mmioBad off).pwr = s.pwr ∧
    (s.mmioBad off).lsn = s.lsn ∧ (s.mmioBad off).sup = s.sup ∧ (s.mmioBad off).pin = s.pin ∧
    (s.mmioBad off).inter = s.inter ∧ (s.mmioBad off).interOld = s.interOld ∧ (s.mmioBad off).inter2 = s.inter2 ∧
    (s.mmioBad off).free = s.free ∧ (s.mmioBad off).pending = s.pending := by
  simp [State.mmioBad]

@[simp] theorem pinPulse_keeps (f k : Nat) (t : DT) :
    (s.pinPulse f k t).regs = s.regs ∧ (s.pinPulse f k t).time = s.time ∧ (s.pinPulse f k t).clk = s.clk ∧
    (s.pinPulse f k t).host = s.host ∧ (s.pinPulse f k t).adm = s.adm ∧ (s.pinPulse f k t).ain = s.ain ∧
    (s.pinPulse f k t).aout = s.aout ∧ (s.pinPulse f k t).spk = s.spk ∧ (s.pinPulse f k t).thk = s.thk ∧
    (s.pinPulse f k t).sel = s.sel ∧ (s.pinPulse f k t).trl = s.trl ∧ (s.pinPulse f k t).fx = s.fx ∧
    (s.pinPulse f k t).clip = s.clip ∧ (s.pinPulse f k t).sap = s.sap ∧ (s.pinPulse f k t).grove = s.grove ∧
    (s.pinPulse f k t).net = s.net ∧ (s.pinPulse f k t).loop = s.loop ∧ (s.pinPulse f k t).dram = s.dram ∧
    (s.pinPulse f k t).step = s.step ∧ (s.pinPulse f k t).hwd = s.hwd ∧ (s.pinPulse f k t).flt = s.flt ∧
    (s.pinPulse f k t).twb = s.twb ∧ (s.pinPulse f k t).pwr = s.pwr ∧ (s.pinPulse f k t).blz = s.blz ∧
    (s.pinPulse f k t).lsn = s.lsn ∧ (s.pinPulse f k t).sup = s.sup ∧ (s.pinPulse f k t).inter = s.inter ∧
    (s.pinPulse f k t).interOld = s.interOld ∧ (s.pinPulse f k t).inter2 = s.inter2 ∧
    (s.pinPulse f k t).free = s.free ∧ (s.pinPulse f k t).pending = s.pending := by
  unfold State.pinPulse; split <;> simp

/-! ## Rings and write-backs -/

@[simp] theorem winViol_keeps (u : Nat) (a : Addr) :
    (s.winViol u a).time = s.time ∧ (s.winViol u a).clk = s.clk ∧ (s.winViol u a).adm = s.adm ∧
    (s.winViol u a).ain = s.ain ∧ (s.winViol u a).aout = s.aout ∧ (s.winViol u a).spk = s.spk ∧
    (s.winViol u a).thk = s.thk ∧ (s.winViol u a).sel = s.sel ∧ (s.winViol u a).trl = s.trl ∧
    (s.winViol u a).fx = s.fx ∧ (s.winViol u a).clip = s.clip ∧ (s.winViol u a).sap = s.sap ∧
    (s.winViol u a).grove = s.grove ∧ (s.winViol u a).net = s.net ∧ (s.winViol u a).loop = s.loop ∧
    (s.winViol u a).dram = s.dram ∧ (s.winViol u a).step = s.step ∧ (s.winViol u a).hwd = s.hwd ∧
    (s.winViol u a).flt = s.flt ∧ (s.winViol u a).twb = s.twb ∧ (s.winViol u a).pwr = s.pwr ∧
    (s.winViol u a).lsn = s.lsn ∧ (s.winViol u a).sup = s.sup ∧ (s.winViol u a).pin = s.pin ∧
    (s.winViol u a).inter = s.inter ∧ (s.winViol u a).interOld = s.interOld ∧ (s.winViol u a).inter2 = s.inter2 ∧
    (s.winViol u a).free = s.free ∧ (s.winViol u a).pending = s.pending := by
  simp [State.winViol]

@[simp] theorem drainBreak_keeps (r : Nat) :
    (s.drainBreak r).regs = s.regs ∧ (s.drainBreak r).time = s.time ∧ (s.drainBreak r).clk = s.clk ∧
    (s.drainBreak r).host = s.host ∧ (s.drainBreak r).adm = s.adm ∧ (s.drainBreak r).ain = s.ain ∧
    (s.drainBreak r).aout = s.aout ∧ (s.drainBreak r).spk = s.spk ∧ (s.drainBreak r).thk = s.thk ∧
    (s.drainBreak r).sel = s.sel ∧ (s.drainBreak r).trl = s.trl ∧ (s.drainBreak r).fx = s.fx ∧
    (s.drainBreak r).clip = s.clip ∧ (s.drainBreak r).sap = s.sap ∧ (s.drainBreak r).grove = s.grove ∧
    (s.drainBreak r).net = s.net ∧ (s.drainBreak r).loop = s.loop ∧ (s.drainBreak r).dram = s.dram ∧
    (s.drainBreak r).step = s.step ∧ (s.drainBreak r).hwd = s.hwd ∧ (s.drainBreak r).flt = s.flt ∧
    (s.drainBreak r).twb = s.twb ∧ (s.drainBreak r).pwr = s.pwr ∧ (s.drainBreak r).lsn = s.lsn ∧
    (s.drainBreak r).sup = s.sup ∧ (s.drainBreak r).pin = s.pin ∧ (s.drainBreak r).inter = s.inter ∧
    (s.drainBreak r).interOld = s.interOld ∧ (s.drainBreak r).inter2 = s.inter2 ∧ (s.drainBreak r).free = s.free ∧
    (s.drainBreak r).pending = s.pending := by
  unfold State.drainBreak; split <;> simp

@[simp] theorem ringErr1_keeps (n why : Nat) :
    (s.ringErr1 n why).time = s.time ∧ (s.ringErr1 n why).clk = s.clk ∧ (s.ringErr1 n why).adm = s.adm ∧
    (s.ringErr1 n why).ain = s.ain ∧ (s.ringErr1 n why).aout = s.aout ∧ (s.ringErr1 n why).spk = s.spk ∧
    (s.ringErr1 n why).thk = s.thk ∧ (s.ringErr1 n why).sel = s.sel ∧ (s.ringErr1 n why).trl = s.trl ∧
    (s.ringErr1 n why).fx = s.fx ∧ (s.ringErr1 n why).clip = s.clip ∧ (s.ringErr1 n why).sap = s.sap ∧
    (s.ringErr1 n why).grove = s.grove ∧ (s.ringErr1 n why).net = s.net ∧ (s.ringErr1 n why).loop = s.loop ∧
    (s.ringErr1 n why).dram = s.dram ∧ (s.ringErr1 n why).step = s.step ∧ (s.ringErr1 n why).hwd = s.hwd ∧
    (s.ringErr1 n why).flt = s.flt ∧ (s.ringErr1 n why).twb = s.twb ∧ (s.ringErr1 n why).pwr = s.pwr ∧
    (s.ringErr1 n why).lsn = s.lsn ∧ (s.ringErr1 n why).sup = s.sup ∧ (s.ringErr1 n why).pin = s.pin ∧
    (s.ringErr1 n why).inter = s.inter ∧ (s.ringErr1 n why).interOld = s.interOld ∧
    (s.ringErr1 n why).inter2 = s.inter2 ∧ (s.ringErr1 n why).free = s.free ∧ (s.ringErr1 n why).pending = s.pending := by
  unfold State.ringErr1; dsimp only; repeat' split
  all_goals simp

/-- What one function of the state every step of a fold leaves alone, the fold leaves alone. -/
theorem foldl_keeps {α β : Type} (g : State → β) (f : State → α → State) (h : ∀ s a, g (f s a) = g s) (l : List α) (s : State) :
    g (l.foldl f s) = g s := by
  induction l generalizing s with
  | nil => rfl
  | cons a l ih => exact (ih (f s a)).trans (h s a)

/-- Everything but the host interface, Blaze and the registers: what a write-back cannot touch. -/
def State.apart (s : State) : State := { s with
  host := State.reset.host, blz := State.reset.blz, regs := [] }

/-- Two states that differ in the host interface, Blaze and the registers only agree in every other field. -/
theorem apart_eq {s t : State} (h : t.apart = s.apart) :
    (t).time = s.time ∧ (t).clk = s.clk ∧ (t).adm = s.adm ∧ (t).ain = s.ain ∧ (t).aout = s.aout ∧ (t).spk = s.spk ∧
    (t).thk = s.thk ∧ (t).sel = s.sel ∧ (t).trl = s.trl ∧ (t).fx = s.fx ∧ (t).clip = s.clip ∧ (t).sap = s.sap ∧
    (t).grove = s.grove ∧ (t).net = s.net ∧ (t).loop = s.loop ∧ (t).dram = s.dram ∧ (t).step = s.step ∧
    (t).hwd = s.hwd ∧ (t).flt = s.flt ∧ (t).twb = s.twb ∧ (t).pwr = s.pwr ∧ (t).lsn = s.lsn ∧ (t).sup = s.sup ∧
    (t).pin = s.pin ∧ (t).inter = s.inter ∧ (t).interOld = s.interOld ∧ (t).inter2 = s.inter2 ∧ (t).free = s.free ∧
    (t).pending = s.pending := by
  simp only [State.apart, State.mk.injEq] at h
  simpa using h

@[simp] theorem ringErr_keeps (n why : Nat) :
    (s.ringErr n why).time = s.time ∧ (s.ringErr n why).clk = s.clk ∧ (s.ringErr n why).adm = s.adm ∧
    (s.ringErr n why).ain = s.ain ∧ (s.ringErr n why).aout = s.aout ∧ (s.ringErr n why).spk = s.spk ∧
    (s.ringErr n why).thk = s.thk ∧ (s.ringErr n why).sel = s.sel ∧ (s.ringErr n why).trl = s.trl ∧
    (s.ringErr n why).fx = s.fx ∧ (s.ringErr n why).clip = s.clip ∧ (s.ringErr n why).sap = s.sap ∧
    (s.ringErr n why).grove = s.grove ∧ (s.ringErr n why).net = s.net ∧ (s.ringErr n why).loop = s.loop ∧
    (s.ringErr n why).dram = s.dram ∧ (s.ringErr n why).step = s.step ∧ (s.ringErr n why).hwd = s.hwd ∧
    (s.ringErr n why).flt = s.flt ∧ (s.ringErr n why).twb = s.twb ∧ (s.ringErr n why).pwr = s.pwr ∧
    (s.ringErr n why).lsn = s.lsn ∧ (s.ringErr n why).sup = s.sup ∧ (s.ringErr n why).pin = s.pin ∧
    (s.ringErr n why).inter = s.inter ∧ (s.ringErr n why).interOld = s.interOld ∧
    (s.ringErr n why).inter2 = s.inter2 ∧ (s.ringErr n why).free = s.free ∧ (s.ringErr n why).pending = s.pending := by
  apply apart_eq; unfold State.ringErr; dsimp only; split
  · rw [foldl_keeps State.apart _ (by intro s a; split <;> simp [State.apart])]; simp [State.apart]
  · simp [State.apart]

@[simp] theorem putWb_keeps (cpl op : Nat) (st : Status) (tag : BitVec 8) (ts : TS) (dt : DT) (r0 r1 r2 : Word) :
    (s.putWb cpl op st tag ts dt r0 r1 r2).time = s.time ∧ (s.putWb cpl op st tag ts dt r0 r1 r2).clk = s.clk ∧
    (s.putWb cpl op st tag ts dt r0 r1 r2).adm = s.adm ∧ (s.putWb cpl op st tag ts dt r0 r1 r2).ain = s.ain ∧
    (s.putWb cpl op st tag ts dt r0 r1 r2).aout = s.aout ∧ (s.putWb cpl op st tag ts dt r0 r1 r2).spk = s.spk ∧
    (s.putWb cpl op st tag ts dt r0 r1 r2).thk = s.thk ∧ (s.putWb cpl op st tag ts dt r0 r1 r2).sel = s.sel ∧
    (s.putWb cpl op st tag ts dt r0 r1 r2).trl = s.trl ∧ (s.putWb cpl op st tag ts dt r0 r1 r2).fx = s.fx ∧
    (s.putWb cpl op st tag ts dt r0 r1 r2).clip = s.clip ∧ (s.putWb cpl op st tag ts dt r0 r1 r2).sap = s.sap ∧
    (s.putWb cpl op st tag ts dt r0 r1 r2).grove = s.grove ∧ (s.putWb cpl op st tag ts dt r0 r1 r2).net = s.net ∧
    (s.putWb cpl op st tag ts dt r0 r1 r2).loop = s.loop ∧ (s.putWb cpl op st tag ts dt r0 r1 r2).dram = s.dram ∧
    (s.putWb cpl op st tag ts dt r0 r1 r2).step = s.step ∧ (s.putWb cpl op st tag ts dt r0 r1 r2).hwd = s.hwd ∧
    (s.putWb cpl op st tag ts dt r0 r1 r2).flt = s.flt ∧ (s.putWb cpl op st tag ts dt r0 r1 r2).twb = s.twb ∧
    (s.putWb cpl op st tag ts dt r0 r1 r2).pwr = s.pwr ∧ (s.putWb cpl op st tag ts dt r0 r1 r2).lsn = s.lsn ∧
    (s.putWb cpl op st tag ts dt r0 r1 r2).sup = s.sup ∧ (s.putWb cpl op st tag ts dt r0 r1 r2).pin = s.pin ∧
    (s.putWb cpl op st tag ts dt r0 r1 r2).inter = s.inter ∧
    (s.putWb cpl op st tag ts dt r0 r1 r2).interOld = s.interOld ∧
    (s.putWb cpl op st tag ts dt r0 r1 r2).inter2 = s.inter2 ∧
    (s.putWb cpl op st tag ts dt r0 r1 r2).free = s.free ∧
    (s.putWb cpl op st tag ts dt r0 r1 r2).pending = s.pending := by
  unfold State.putWb; dsimp only; split
  · split <;> simp
  · simp

@[simp] theorem complete_keeps (h : Hdr) (op : Nat) (st : Status) (ts : TS) (dt : DT) (r0 r1 r2 : Word) (force : Bool) :
    (s.complete h op st ts dt r0 r1 r2 force).time = s.time ∧
    (s.complete h op st ts dt r0 r1 r2 force).clk = s.clk ∧ (s.complete h op st ts dt r0 r1 r2 force).adm = s.adm ∧
    (s.complete h op st ts dt r0 r1 r2 force).ain = s.ain ∧
    (s.complete h op st ts dt r0 r1 r2 force).aout = s.aout ∧
    (s.complete h op st ts dt r0 r1 r2 force).spk = s.spk ∧ (s.complete h op st ts dt r0 r1 r2 force).thk = s.thk ∧
    (s.complete h op st ts dt r0 r1 r2 force).sel = s.sel ∧ (s.complete h op st ts dt r0 r1 r2 force).trl = s.trl ∧
    (s.complete h op st ts dt r0 r1 r2 force).fx = s.fx ∧ (s.complete h op st ts dt r0 r1 r2 force).clip = s.clip ∧
    (s.complete h op st ts dt r0 r1 r2 force).sap = s.sap ∧
    (s.complete h op st ts dt r0 r1 r2 force).grove = s.grove ∧
    (s.complete h op st ts dt r0 r1 r2 force).net = s.net ∧
    (s.complete h op st ts dt r0 r1 r2 force).loop = s.loop ∧
    (s.complete h op st ts dt r0 r1 r2 force).dram = s.dram ∧
    (s.complete h op st ts dt r0 r1 r2 force).step = s.step ∧
    (s.complete h op st ts dt r0 r1 r2 force).hwd = s.hwd ∧ (s.complete h op st ts dt r0 r1 r2 force).flt = s.flt ∧
    (s.complete h op st ts dt r0 r1 r2 force).twb = s.twb ∧ (s.complete h op st ts dt r0 r1 r2 force).pwr = s.pwr ∧
    (s.complete h op st ts dt r0 r1 r2 force).lsn = s.lsn ∧ (s.complete h op st ts dt r0 r1 r2 force).sup = s.sup ∧
    (s.complete h op st ts dt r0 r1 r2 force).pin = s.pin ∧
    (s.complete h op st ts dt r0 r1 r2 force).inter = s.inter ∧
    (s.complete h op st ts dt r0 r1 r2 force).interOld = s.interOld ∧
    (s.complete h op st ts dt r0 r1 r2 force).inter2 = s.inter2 ∧
    (s.complete h op st ts dt r0 r1 r2 force).free = s.free ∧
    (s.complete h op st ts dt r0 r1 r2 force).pending = s.pending := by
  unfold State.complete; dsimp only; split
  · simp
  · split <;> simp

@[simp] theorem badDesc_keeps (h : Hdr) (op : Nat) (st : Status) :
    (s.badDesc h op st).time = s.time ∧ (s.badDesc h op st).clk = s.clk ∧ (s.badDesc h op st).host = s.host ∧
    (s.badDesc h op st).adm = s.adm ∧ (s.badDesc h op st).ain = s.ain ∧ (s.badDesc h op st).aout = s.aout ∧
    (s.badDesc h op st).spk = s.spk ∧ (s.badDesc h op st).thk = s.thk ∧ (s.badDesc h op st).sel = s.sel ∧
    (s.badDesc h op st).trl = s.trl ∧ (s.badDesc h op st).fx = s.fx ∧ (s.badDesc h op st).clip = s.clip ∧
    (s.badDesc h op st).sap = s.sap ∧ (s.badDesc h op st).grove = s.grove ∧ (s.badDesc h op st).net = s.net ∧
    (s.badDesc h op st).loop = s.loop ∧ (s.badDesc h op st).dram = s.dram ∧ (s.badDesc h op st).step = s.step ∧
    (s.badDesc h op st).hwd = s.hwd ∧ (s.badDesc h op st).flt = s.flt ∧ (s.badDesc h op st).twb = s.twb ∧
    (s.badDesc h op st).pwr = s.pwr ∧ (s.badDesc h op st).lsn = s.lsn ∧ (s.badDesc h op st).sup = s.sup ∧
    (s.badDesc h op st).pin = s.pin ∧ (s.badDesc h op st).inter = s.inter ∧
    (s.badDesc h op st).interOld = s.interOld ∧ (s.badDesc h op st).inter2 = s.inter2 ∧
    (s.badDesc h op st).free = s.free ∧ (s.badDesc h op st).pending = s.pending := by
  unfold State.badDesc; split <;> simp

@[simp] theorem reject_keeps (h : Hdr) (op : Nat) (st : Status) :
    (s.reject h op st).time = s.time ∧ (s.reject h op st).clk = s.clk ∧ (s.reject h op st).adm = s.adm ∧
    (s.reject h op st).ain = s.ain ∧ (s.reject h op st).aout = s.aout ∧ (s.reject h op st).spk = s.spk ∧
    (s.reject h op st).thk = s.thk ∧ (s.reject h op st).sel = s.sel ∧ (s.reject h op st).trl = s.trl ∧
    (s.reject h op st).fx = s.fx ∧ (s.reject h op st).clip = s.clip ∧ (s.reject h op st).sap = s.sap ∧
    (s.reject h op st).grove = s.grove ∧ (s.reject h op st).net = s.net ∧ (s.reject h op st).loop = s.loop ∧
    (s.reject h op st).dram = s.dram ∧ (s.reject h op st).step = s.step ∧ (s.reject h op st).hwd = s.hwd ∧
    (s.reject h op st).flt = s.flt ∧ (s.reject h op st).twb = s.twb ∧ (s.reject h op st).pwr = s.pwr ∧
    (s.reject h op st).lsn = s.lsn ∧ (s.reject h op st).sup = s.sup ∧ (s.reject h op st).pin = s.pin ∧
    (s.reject h op st).inter = s.inter ∧ (s.reject h op st).interOld = s.interOld ∧
    (s.reject h op st).inter2 = s.inter2 ∧ (s.reject h op st).free = s.free ∧ (s.reject h op st).pending = s.pending := by
  simp [State.reject]

@[simp] theorem rejectStaged_keeps (h : Hdr) (op : Nat) (st : Status) :
    (s.rejectStaged h op st).time = s.time ∧ (s.rejectStaged h op st).clk = s.clk ∧
    (s.rejectStaged h op st).adm = s.adm ∧ (s.rejectStaged h op st).ain = s.ain ∧
    (s.rejectStaged h op st).aout = s.aout ∧ (s.rejectStaged h op st).spk = s.spk ∧
    (s.rejectStaged h op st).thk = s.thk ∧ (s.rejectStaged h op st).sel = s.sel ∧
    (s.rejectStaged h op st).trl = s.trl ∧ (s.rejectStaged h op st).fx = s.fx ∧
    (s.rejectStaged h op st).clip = s.clip ∧ (s.rejectStaged h op st).sap = s.sap ∧
    (s.rejectStaged h op st).grove = s.grove ∧ (s.rejectStaged h op st).net = s.net ∧
    (s.rejectStaged h op st).loop = s.loop ∧ (s.rejectStaged h op st).dram = s.dram ∧
    (s.rejectStaged h op st).step = s.step ∧ (s.rejectStaged h op st).hwd = s.hwd ∧
    (s.rejectStaged h op st).flt = s.flt ∧ (s.rejectStaged h op st).twb = s.twb ∧
    (s.rejectStaged h op st).pwr = s.pwr ∧ (s.rejectStaged h op st).lsn = s.lsn ∧
    (s.rejectStaged h op st).sup = s.sup ∧ (s.rejectStaged h op st).pin = s.pin ∧
    (s.rejectStaged h op st).inter = s.inter ∧ (s.rejectStaged h op st).interOld = s.interOld ∧
    (s.rejectStaged h op st).inter2 = s.inter2 ∧ (s.rejectStaged h op st).free = s.free ∧
    (s.rejectStaged h op st).pending = s.pending := by
  simp [State.rejectStaged]

@[simp] theorem rejectNext_keeps (h : Hdr) (op : Nat) (st : Status) :
    (s.rejectNext h op st).time = s.time ∧ (s.rejectNext h op st).clk = s.clk ∧
    (s.rejectNext h op st).adm = s.adm ∧ (s.rejectNext h op st).ain = s.ain ∧
    (s.rejectNext h op st).aout = s.aout ∧ (s.rejectNext h op st).spk = s.spk ∧
    (s.rejectNext h op st).thk = s.thk ∧ (s.rejectNext h op st).sel = s.sel ∧ (s.rejectNext h op st).trl = s.trl ∧
    (s.rejectNext h op st).fx = s.fx ∧ (s.rejectNext h op st).clip = s.clip ∧ (s.rejectNext h op st).sap = s.sap ∧
    (s.rejectNext h op st).grove = s.grove ∧ (s.rejectNext h op st).net = s.net ∧
    (s.rejectNext h op st).loop = s.loop ∧ (s.rejectNext h op st).dram = s.dram ∧
    (s.rejectNext h op st).step = s.step ∧ (s.rejectNext h op st).hwd = s.hwd ∧
    (s.rejectNext h op st).flt = s.flt ∧ (s.rejectNext h op st).twb = s.twb ∧ (s.rejectNext h op st).pwr = s.pwr ∧
    (s.rejectNext h op st).lsn = s.lsn ∧ (s.rejectNext h op st).sup = s.sup ∧ (s.rejectNext h op st).pin = s.pin ∧
    (s.rejectNext h op st).inter = s.inter ∧ (s.rejectNext h op st).interOld = s.interOld ∧
    (s.rejectNext h op st).inter2 = s.inter2 ∧ (s.rejectNext h op st).free = s.free ∧
    (s.rejectNext h op st).pending = s.pending := by
  simp [State.rejectNext]

@[simp] theorem rejectState_keeps (h : Hdr) (c : Cmd) (op : Nat) (st : Status) :
    (s.rejectState h c op st).time = s.time ∧ (s.rejectState h c op st).clk = s.clk ∧
    (s.rejectState h c op st).adm = s.adm ∧ (s.rejectState h c op st).ain = s.ain ∧
    (s.rejectState h c op st).aout = s.aout ∧ (s.rejectState h c op st).spk = s.spk ∧
    (s.rejectState h c op st).thk = s.thk ∧ (s.rejectState h c op st).sel = s.sel ∧
    (s.rejectState h c op st).trl = s.trl ∧ (s.rejectState h c op st).fx = s.fx ∧
    (s.rejectState h c op st).clip = s.clip ∧ (s.rejectState h c op st).sap = s.sap ∧
    (s.rejectState h c op st).grove = s.grove ∧ (s.rejectState h c op st).net = s.net ∧
    (s.rejectState h c op st).loop = s.loop ∧ (s.rejectState h c op st).dram = s.dram ∧
    (s.rejectState h c op st).step = s.step ∧ (s.rejectState h c op st).hwd = s.hwd ∧
    (s.rejectState h c op st).flt = s.flt ∧ (s.rejectState h c op st).twb = s.twb ∧
    (s.rejectState h c op st).pwr = s.pwr ∧ (s.rejectState h c op st).lsn = s.lsn ∧
    (s.rejectState h c op st).sup = s.sup ∧ (s.rejectState h c op st).pin = s.pin ∧
    (s.rejectState h c op st).inter = s.inter ∧ (s.rejectState h c op st).interOld = s.interOld ∧
    (s.rejectState h c op st).inter2 = s.inter2 ∧ (s.rejectState h c op st).free = s.free ∧
    (s.rejectState h c op st).pending = s.pending := by
  unfold State.rejectState; split <;> simp

@[simp] theorem enterPend_keeps (h : Hdr) (c : Cmd) (op : Nat) :
    (s.enterPend h c op).time = s.time ∧ (s.enterPend h c op).clk = s.clk ∧ (s.enterPend h c op).adm = s.adm ∧
    (s.enterPend h c op).ain = s.ain ∧ (s.enterPend h c op).aout = s.aout ∧ (s.enterPend h c op).spk = s.spk ∧
    (s.enterPend h c op).thk = s.thk ∧ (s.enterPend h c op).sel = s.sel ∧ (s.enterPend h c op).trl = s.trl ∧
    (s.enterPend h c op).fx = s.fx ∧ (s.enterPend h c op).clip = s.clip ∧ (s.enterPend h c op).sap = s.sap ∧
    (s.enterPend h c op).grove = s.grove ∧ (s.enterPend h c op).net = s.net ∧ (s.enterPend h c op).loop = s.loop ∧
    (s.enterPend h c op).dram = s.dram ∧ (s.enterPend h c op).step = s.step ∧ (s.enterPend h c op).hwd = s.hwd ∧
    (s.enterPend h c op).flt = s.flt ∧ (s.enterPend h c op).twb = s.twb ∧ (s.enterPend h c op).pwr = s.pwr ∧
    (s.enterPend h c op).lsn = s.lsn ∧ (s.enterPend h c op).sup = s.sup ∧ (s.enterPend h c op).pin = s.pin ∧
    (s.enterPend h c op).inter = s.inter ∧ (s.enterPend h c op).interOld = s.interOld ∧
    (s.enterPend h c op).inter2 = s.inter2 ∧ (s.enterPend h c op).free = s.free ∧
    (s.enterPend h c op).pending = s.pending := by
  unfold State.enterPend; split
  · simp [State.countFull]
  · simp

@[simp] theorem endWait_keeps (w : Wait) (st : Status) (r0 r1 r2 : Word) :
    (s.endWait w st r0 r1 r2).time = s.time ∧ (s.endWait w st r0 r1 r2).clk = s.clk ∧
    (s.endWait w st r0 r1 r2).adm = s.adm ∧ (s.endWait w st r0 r1 r2).ain = s.ain ∧
    (s.endWait w st r0 r1 r2).aout = s.aout ∧ (s.endWait w st r0 r1 r2).spk = s.spk ∧
    (s.endWait w st r0 r1 r2).thk = s.thk ∧ (s.endWait w st r0 r1 r2).sel = s.sel ∧
    (s.endWait w st r0 r1 r2).trl = s.trl ∧ (s.endWait w st r0 r1 r2).fx = s.fx ∧
    (s.endWait w st r0 r1 r2).clip = s.clip ∧ (s.endWait w st r0 r1 r2).sap = s.sap ∧
    (s.endWait w st r0 r1 r2).grove = s.grove ∧ (s.endWait w st r0 r1 r2).net = s.net ∧
    (s.endWait w st r0 r1 r2).loop = s.loop ∧ (s.endWait w st r0 r1 r2).dram = s.dram ∧
    (s.endWait w st r0 r1 r2).step = s.step ∧ (s.endWait w st r0 r1 r2).hwd = s.hwd ∧
    (s.endWait w st r0 r1 r2).flt = s.flt ∧ (s.endWait w st r0 r1 r2).twb = s.twb ∧
    (s.endWait w st r0 r1 r2).pwr = s.pwr ∧ (s.endWait w st r0 r1 r2).lsn = s.lsn ∧
    (s.endWait w st r0 r1 r2).sup = s.sup ∧ (s.endWait w st r0 r1 r2).pin = s.pin ∧
    (s.endWait w st r0 r1 r2).inter = s.inter ∧ (s.endWait w st r0 r1 r2).interOld = s.interOld ∧
    (s.endWait w st r0 r1 r2).inter2 = s.inter2 ∧ (s.endWait w st r0 r1 r2).free = s.free ∧
    (s.endWait w st r0 r1 r2).pending = s.pending := by
  simp [State.endWait]

@[simp] theorem arrive_keeps (w : Wait) (st : Status) (r0 r1 r2 : Word) (pri : Nat) :
    (s.arrive w st r0 r1 r2 pri).regs = s.regs ∧ (s.arrive w st r0 r1 r2 pri).time = s.time ∧
    (s.arrive w st r0 r1 r2 pri).clk = s.clk ∧ (s.arrive w st r0 r1 r2 pri).adm = s.adm ∧
    (s.arrive w st r0 r1 r2 pri).ain = s.ain ∧ (s.arrive w st r0 r1 r2 pri).aout = s.aout ∧
    (s.arrive w st r0 r1 r2 pri).spk = s.spk ∧ (s.arrive w st r0 r1 r2 pri).thk = s.thk ∧
    (s.arrive w st r0 r1 r2 pri).sel = s.sel ∧ (s.arrive w st r0 r1 r2 pri).trl = s.trl ∧
    (s.arrive w st r0 r1 r2 pri).fx = s.fx ∧ (s.arrive w st r0 r1 r2 pri).clip = s.clip ∧
    (s.arrive w st r0 r1 r2 pri).sap = s.sap ∧ (s.arrive w st r0 r1 r2 pri).grove = s.grove ∧
    (s.arrive w st r0 r1 r2 pri).net = s.net ∧ (s.arrive w st r0 r1 r2 pri).loop = s.loop ∧
    (s.arrive w st r0 r1 r2 pri).dram = s.dram ∧ (s.arrive w st r0 r1 r2 pri).step = s.step ∧
    (s.arrive w st r0 r1 r2 pri).hwd = s.hwd ∧ (s.arrive w st r0 r1 r2 pri).flt = s.flt ∧
    (s.arrive w st r0 r1 r2 pri).twb = s.twb ∧ (s.arrive w st r0 r1 r2 pri).pwr = s.pwr ∧
    (s.arrive w st r0 r1 r2 pri).blz = s.blz ∧ (s.arrive w st r0 r1 r2 pri).lsn = s.lsn ∧
    (s.arrive w st r0 r1 r2 pri).sup = s.sup ∧ (s.arrive w st r0 r1 r2 pri).pin = s.pin ∧
    (s.arrive w st r0 r1 r2 pri).inter = s.inter ∧ (s.arrive w st r0 r1 r2 pri).interOld = s.interOld ∧
    (s.arrive w st r0 r1 r2 pri).inter2 = s.inter2 ∧ (s.arrive w st r0 r1 r2 pri).free = s.free ∧
    (s.arrive w st r0 r1 r2 pri).pending = s.pending := by
  simp [State.arrive]

@[simp] theorem arrivals_keeps  :
    (s.arrivals).time = s.time ∧ (s.arrivals).clk = s.clk ∧ (s.arrivals).adm = s.adm ∧ (s.arrivals).ain = s.ain ∧
    (s.arrivals).aout = s.aout ∧ (s.arrivals).spk = s.spk ∧ (s.arrivals).thk = s.thk ∧ (s.arrivals).sel = s.sel ∧
    (s.arrivals).trl = s.trl ∧ (s.arrivals).fx = s.fx ∧ (s.arrivals).clip = s.clip ∧ (s.arrivals).sap = s.sap ∧
    (s.arrivals).grove = s.grove ∧ (s.arrivals).net = s.net ∧ (s.arrivals).loop = s.loop ∧
    (s.arrivals).dram = s.dram ∧ (s.arrivals).step = s.step ∧ (s.arrivals).hwd = s.hwd ∧ (s.arrivals).flt = s.flt ∧
    (s.arrivals).twb = s.twb ∧ (s.arrivals).pwr = s.pwr ∧ (s.arrivals).lsn = s.lsn ∧ (s.arrivals).sup = s.sup ∧
    (s.arrivals).pin = s.pin ∧ (s.arrivals).inter = s.inter ∧ (s.arrivals).interOld = s.interOld ∧
    (s.arrivals).inter2 = s.inter2 ∧ (s.arrivals).free = s.free ∧ (s.arrivals).pending = s.pending := by
  apply apart_eq; unfold State.arrivals; dsimp only
  rw [foldl_keeps State.apart _ (by intro s a; split <;> simp [State.apart])]; simp [State.apart]

@[simp] theorem budNote_keeps (h : Hdr) (op e cost : Nat) :
    (s.budNote h op e cost).time = s.time ∧ (s.budNote h op e cost).clk = s.clk ∧
    (s.budNote h op e cost).host = s.host ∧ (s.budNote h op e cost).adm = s.adm ∧
    (s.budNote h op e cost).ain = s.ain ∧ (s.budNote h op e cost).aout = s.aout ∧
    (s.budNote h op e cost).spk = s.spk ∧ (s.budNote h op e cost).thk = s.thk ∧
    (s.budNote h op e cost).sel = s.sel ∧ (s.budNote h op e cost).trl = s.trl ∧ (s.budNote h op e cost).fx = s.fx ∧
    (s.budNote h op e cost).clip = s.clip ∧ (s.budNote h op e cost).sap = s.sap ∧
    (s.budNote h op e cost).grove = s.grove ∧ (s.budNote h op e cost).net = s.net ∧
    (s.budNote h op e cost).loop = s.loop ∧ (s.budNote h op e cost).dram = s.dram ∧
    (s.budNote h op e cost).step = s.step ∧ (s.budNote h op e cost).hwd = s.hwd ∧
    (s.budNote h op e cost).flt = s.flt ∧ (s.budNote h op e cost).twb = s.twb ∧
    (s.budNote h op e cost).pwr = s.pwr ∧ (s.budNote h op e cost).lsn = s.lsn ∧
    (s.budNote h op e cost).sup = s.sup ∧ (s.budNote h op e cost).pin = s.pin ∧
    (s.budNote h op e cost).inter = s.inter ∧ (s.budNote h op e cost).interOld = s.interOld ∧
    (s.budNote h op e cost).inter2 = s.inter2 ∧ (s.budNote h op e cost).free = s.free ∧
    (s.budNote h op e cost).pending = s.pending := by
  simp [State.budNote]

@[simp] theorem budReject_keeps (h : Hdr) (op e : Nat) (t : State) :
    (s.budReject h op e t).time = s.time ∧ (s.budReject h op e t).clk = s.clk ∧
    (s.budReject h op e t).host = s.host ∧ (s.budReject h op e t).adm = s.adm ∧
    (s.budReject h op e t).ain = s.ain ∧ (s.budReject h op e t).aout = s.aout ∧
    (s.budReject h op e t).spk = s.spk ∧ (s.budReject h op e t).thk = s.thk ∧ (s.budReject h op e t).sel = s.sel ∧
    (s.budReject h op e t).trl = s.trl ∧ (s.budReject h op e t).fx = s.fx ∧ (s.budReject h op e t).clip = s.clip ∧
    (s.budReject h op e t).sap = s.sap ∧ (s.budReject h op e t).grove = s.grove ∧
    (s.budReject h op e t).net = s.net ∧ (s.budReject h op e t).loop = s.loop ∧
    (s.budReject h op e t).dram = s.dram ∧ (s.budReject h op e t).step = s.step ∧
    (s.budReject h op e t).hwd = s.hwd ∧ (s.budReject h op e t).flt = s.flt ∧ (s.budReject h op e t).twb = s.twb ∧
    (s.budReject h op e t).pwr = s.pwr ∧ (s.budReject h op e t).lsn = s.lsn ∧ (s.budReject h op e t).sup = s.sup ∧
    (s.budReject h op e t).pin = s.pin ∧ (s.budReject h op e t).inter = s.inter ∧
    (s.budReject h op e t).interOld = s.interOld ∧ (s.budReject h op e t).inter2 = s.inter2 ∧
    (s.budReject h op e t).free = s.free ∧ (s.budReject h op e t).pending = s.pending := by
  simp [State.budReject]

@[simp] theorem finish_keeps (h : Hdr) (op : Nat) (late : Bool) (d : Done) :
    (State.finish h op late d).time = d.st.time ∧ (State.finish h op late d).clk = d.st.clk ∧
    (State.finish h op late d).adm = d.st.adm ∧ (State.finish h op late d).ain = d.st.ain ∧
    (State.finish h op late d).aout = d.st.aout ∧ (State.finish h op late d).spk = d.st.spk ∧
    (State.finish h op late d).thk = d.st.thk ∧ (State.finish h op late d).sel = d.st.sel ∧
    (State.finish h op late d).trl = d.st.trl ∧ (State.finish h op late d).fx = d.st.fx ∧
    (State.finish h op late d).clip = d.st.clip ∧ (State.finish h op late d).sap = d.st.sap ∧
    (State.finish h op late d).grove = d.st.grove ∧ (State.finish h op late d).net = d.st.net ∧
    (State.finish h op late d).loop = d.st.loop ∧ (State.finish h op late d).dram = d.st.dram ∧
    (State.finish h op late d).step = d.st.step ∧ (State.finish h op late d).hwd = d.st.hwd ∧
    (State.finish h op late d).flt = d.st.flt ∧ (State.finish h op late d).twb = d.st.twb ∧
    (State.finish h op late d).pwr = d.st.pwr ∧ (State.finish h op late d).lsn = d.st.lsn ∧
    (State.finish h op late d).sup = d.st.sup ∧ (State.finish h op late d).pin = d.st.pin ∧
    (State.finish h op late d).inter = d.st.inter ∧ (State.finish h op late d).interOld = d.st.interOld ∧
    (State.finish h op late d).inter2 = d.st.inter2 ∧ (State.finish h op late d).free = d.st.free ∧
    (State.finish h op late d).pending = d.st.pending := by
  unfold State.finish; dsimp only; split
  · simp
  · simp

end Sys2Proof.Machine
end

