-- ==== Sys2Proof/Laws/KeptA.lean ====
section
/-! SUPPORT. The queue of waiting commands and device DRAM: no operation of a block touches the queue, and all but a few leave
DRAM as it is. One lemma a function. -/
namespace Sys2Proof.Machine

/-- What a next state holds in a field; none of an outcome that is no next state. -/
def nextGet {β : Type} (o : Host.Outcome State Fault Refusal) (g : State → β) : Option β := match o with
  | .next t => some (g t)
  | .fault _ => none
  | .refused _ => none

@[simp] theorem nextGet_next {β : Type} (t : State) (g : State → β) : nextGet (.next t) g = some (g t) := rfl

@[simp] theorem nextGet_ite {β : Type} (c : Prop) [Decidable c] (a b : Host.Outcome State Fault Refusal) (g : State → β) :
    nextGet (if c then a else b) g = if c then nextGet a g else nextGet b g := by split <;> rfl

/-- The queue and device DRAM. -/
def State.kept (s : State) : List Instr × List Host.Cell := (s.pending, s.dram)

@[simp] theorem kept_eq (s t : State) : t.kept = s.kept ↔ t.pending = s.pending ∧ t.dram = s.dram := by
  simp [State.kept]

@[simp] theorem pending_ite (c : Prop) [Decidable c] (a b : State) :
    (if c then a else b).pending = if c then a.pending else b.pending := by split <;> rfl

@[simp] theorem dram_ite (c : Prop) [Decidable c] (a b : State) :
    (if c then a else b).dram = if c then a.dram else b.dram := by split <;> rfl

@[simp] theorem done_ite (c : Prop) [Decidable c] (a b : Done) : (if c then a else b).st = if c then a.st else b.st := by
  split <;> rfl

@[simp] theorem okDone_st (s : State) : (okDone s).st = s := rfl
@[simp] theorem laterDone_st (s : State) : (laterDone s).st = s := rfl
@[simp] theorem refuse_st (s : State) (x : Status) : (refuse s x).st = s := rfl

@[simp] theorem foldl_pending {α : Type} (f : State → α → State) (l : List α) (s : State)
    (h : ∀ s a, (f s a).pending = s.pending) : (l.foldl f s).pending = s.pending := foldl_keeps State.pending f h l s

@[simp] theorem foldl_dram {α : Type} (f : State → α → State) (l : List α) (s : State)
    (h : ∀ s a, (f s a).dram = s.dram) : (l.foldl f s).dram = s.dram := foldl_keeps State.dram f h l s

@[simp] theorem admitted_pending (s : State) (h : Hdr) (op : Nat) (late : Bool) (d : Done) (e : d.st.pending = s.pending) :
    (s.admitted h op late d).pending = s.pending := by
  unfold State.admitted; split <;> simp [e]

@[simp] theorem admitted_dram (s : State) (h : Hdr) (op : Nat) (late : Bool) (d : Done) (e : d.st.dram = s.dram) :
    (s.admitted h op late d).dram = s.dram := by
  unfold State.admitted; split <;> simp [e]

@[simp] theorem runCmd_pending (s : State) (h : Hdr) (c : Cmd) (op : Nat) (v k : Bool) (r : Status) (eff : State → Done)
    (onR : Status → State → State) (h1 : ∀ s, (eff s).st.pending = s.pending) (h2 : ∀ x s, (onR x s).pending = s.pending) :
    (s.runCmd h c op v k r eff onR).pending = s.pending := by
  unfold State.runCmd
  repeat' split
  all_goals simp [h1, h2]

@[simp] theorem runCmd_dram (s : State) (h : Hdr) (c : Cmd) (op : Nat) (v k : Bool) (r : Status) (eff : State → Done)
    (onR : Status → State → State) (h1 : ∀ s, (eff s).st.dram = s.dram) (h2 : ∀ x s, (onR x s).dram = s.dram) :
    (s.runCmd h c op v k r eff onR).dram = s.dram := by
  unfold State.runCmd
  repeat' split
  all_goals simp [h1, h2]

@[simp] theorem wakeFire_kept (s : State) (bit num : Nat) (dt : DT) :
    (State.wakeFire s bit num dt).pending = s.pending ∧ (State.wakeFire s bit num dt).dram = s.dram := by
  unfold State.wakeFire
  repeat' split
  all_goals simp

@[simp] theorem setNet_kept (s : State) (m : Mapping) :
    (State.setNet s m).pending = s.pending ∧ (State.setNet s m).dram = s.dram := by
  unfold State.setNet; simp

@[simp] theorem setWall_kept (s : State) (m : Mapping) :
    (State.setWall s m).pending = s.pending ∧ (State.setWall s m).dram = s.dram := by
  unfold State.setWall; simp

@[simp] theorem epochEvent_kept (s : State) (kind : Nat) (r : Int) (dt : DT) (old new : Int) :
    (State.epochEvent s kind r dt old new).pending = s.pending ∧ (State.epochEvent s kind r dt old new).dram = s.dram := by
  unfold State.epochEvent; simp

@[simp] theorem slewLog_kept (s : State) (wall : Bool) (delta : Int) (dt : DT) :
    (State.slewLog s wall delta dt).pending = s.pending ∧ (State.slewLog s wall delta dt).dram = s.dram := by
  unfold State.slewLog; simp

@[simp] theorem netEpochAdopt_kept (s : State) :
    (State.netEpochAdopt s).pending = s.pending ∧ (State.netEpochAdopt s).dram = s.dram := by
  unfold State.netEpochAdopt; simp

@[simp] theorem netMeasure_kept (s : State) (at_ d : DT) (v r : Int) (gm : BitVec 64) :
    (State.netMeasure s at_ d v r gm).pending = s.pending ∧ (State.netMeasure s at_ d v r gm).dram = s.dram := by
  unfold State.netMeasure; simp

theorem execGptpSync_kept (dt : DT) (net : BitVec 64) (r : Word) (gm : BitVec 64) (s : State) :
    nextGet (execGptpSync dt net r gm s) State.kept = some s.kept := by
  unfold execGptpSync; simp

theorem execNetSyncLoss_kept (dt : DT) (s : State) :
    nextGet (execNetSyncLoss dt s) State.kept = some s.kept := by
  unfold execNetSyncLoss; simp

theorem execGptpRoleChange_kept (role : Nat) (asCapable : Bool) (dt : DT) (s : State) :
    nextGet (execGptpRoleChange role asCapable dt s) State.kept = some s.kept := by
  unfold execGptpRoleChange
  try simp
  repeat' ((first | split | (intro; split)) <;> try simp)

theorem execSlewEnd_kept (wall : Bool) (dt : DT) (s : State) :
    nextGet (execSlewEnd wall dt s) State.kept = some s.kept := by
  unfold execSlewEnd; simp

@[simp] theorem timeWallSetEffect_kept (p : WallSetP) (s : State) :
    (timeWallSetEffect p s).st.pending = s.pending ∧ (timeWallSetEffect p s).st.dram = s.dram := by
  unfold timeWallSetEffect; simp

theorem execTimeWallSet_kept (h : Hdr) (p : WallSetP) (s : State) :
    nextGet (execTimeWallSet h p s) State.kept = some s.kept := by
  unfold execTimeWallSet; simp

@[simp] theorem netSyncEffect_kept (p : NetSyncP) (s : State) :
    (netSyncEffect p s).st.pending = s.pending ∧ (netSyncEffect p s).st.dram = s.dram := by
  unfold netSyncEffect; simp

theorem execNetSync_kept (h : Hdr) (p : NetSyncP) (s : State) :
    nextGet (execNetSync h p s) State.kept = some s.kept := by
  unfold execNetSync; simp

theorem execTimeSnap_kept (s : State) :
    nextGet (execTimeSnap s) State.kept = some s.kept := by
  unfold execTimeSnap; simp

theorem execXoRatioMeasure_kept (cycles : Nat) (s : State) :
    nextGet (execXoRatioMeasure cycles s) State.kept = some s.kept := by
  unfold execXoRatioMeasure; simp

@[simp] theorem setAin_kept (s : State) (n : Nat) (c : AinCh) :
    (State.setAin s n c).pending = s.pending ∧ (State.setAin s n c).dram = s.dram := by
  unfold State.setAin; simp

@[simp] theorem setPdm_kept (s : State) (n : Nat) (c : PdmCh) :
    (State.setPdm s n c).pending = s.pending ∧ (State.setPdm s n c).dram = s.dram := by
  unfold State.setPdm; simp

@[simp] theorem ainSetEffect_kept (p : CfgSetP) (s : State) :
    (ainSetEffect p s).st.pending = s.pending ∧ (ainSetEffect p s).st.dram = s.dram := by
  unfold ainSetEffect; simp

theorem execAinSet_kept (h : Hdr) (p : CfgSetP) (s : State) :
    nextGet (execAinSet h p s) State.kept = some s.kept := by
  unfold execAinSet; simp

@[simp] theorem pdmSetEffect_kept (p : CfgSetP) (s : State) :
    (pdmSetEffect p s).st.pending = s.pending ∧ (pdmSetEffect p s).st.dram = s.dram := by
  unfold pdmSetEffect; simp

theorem execPdmSet_kept (h : Hdr) (p : CfgSetP) (s : State) :
    nextGet (execPdmSet h p s) State.kept = some s.kept := by
  unfold execPdmSet; simp

theorem execGainMoveIncrement_kept (n : Nat) (s : State) :
    nextGet (execGainMoveIncrement n s) State.kept = some s.kept := by
  unfold execGainMoveIncrement; simp

theorem execAinFeSwitch_kept (n : Nat) (s : State) :
    nextGet (execAinFeSwitch n s) State.kept = some s.kept := by
  unfold execAinFeSwitch
  try simp
  repeat' ((first | split | (intro; split)) <;> try simp)

@[simp] theorem gapEnd_kept (s : State) (n : Nat) :
    (State.gapEnd s n).pending = s.pending ∧ (State.gapEnd s n).dram = s.dram := by
  unfold State.gapEnd
  repeat' split
  all_goals simp

theorem execAinFeSettled_kept (n : Nat) (s : State) :
    nextGet (execAinFeSettled n s) State.kept = some s.kept := by
  unfold execAinFeSettled
  try simp
  repeat' ((first | split | (intro; split)) <;> try simp)

theorem execAinFiltSwitch_kept (pdm : Bool) (n : Nat) (s : State) :
    nextGet (execAinFiltSwitch pdm n s) State.kept = some s.kept := by
  unfold execAinFiltSwitch
  try simp
  repeat' ((first | split | (intro; split)) <;> try simp)

@[simp] theorem setBit_kept (s : State) (off i : Nat) :
    (State.setBit s off i).pending = s.pending ∧ (State.setBit s off i).dram = s.dram := by
  unfold State.setBit; simp

theorem execBiasLimit_kept (n : Nat) (dt : DT) (s : State) :
    nextGet (execBiasLimit n dt s) State.kept = some s.kept := by
  unfold execBiasLimit
  try simp
  repeat' ((first | split | (intro; split)) <;> try simp)

theorem execBiasLimitEnd_kept (n : Nat) (dt : DT) (s : State) :
    nextGet (execBiasLimitEnd n dt s) State.kept = some s.kept := by
  unfold execBiasLimitEnd; simp

theorem execBiasOff_kept (n : Nat) (dt : DT) (s : State) :
    nextGet (execBiasOff n dt s) State.kept = some s.kept := by
  unfold execBiasOff
  try simp
  repeat' ((first | split | (intro; split)) <;> try simp)

theorem execPdmStuck_kept (n level : Nat) (dt : DT) (s : State) :
    nextGet (execPdmStuck n level dt s) State.kept = some s.kept := by
  unfold execPdmStuck
  try simp
  repeat' ((first | split | (intro; split)) <;> try simp)

theorem execPdmRecover_kept (n : Nat) (dt : DT) (s : State) :
    nextGet (execPdmRecover n dt s) State.kept = some s.kept := by
  unfold execPdmRecover; simp

@[simp] theorem ainClip_kept (s : State) (n : Nat) (dig : Bool) :
    (State.ainClip s n dig).pending = s.pending ∧ (State.ainClip s n dig).dram = s.dram := by
  unfold State.ainClip; simp

@[simp] theorem pdmClip_kept (s : State) (n : Nat) :
    (State.pdmClip s n).pending = s.pending ∧ (State.pdmClip s n).dram = s.dram := by
  unfold State.pdmClip; simp

theorem execModReset_kept (n : Nat) (dt : DT) (s : State) :
    nextGet (execModReset n dt s) State.kept = some s.kept := by
  unfold execModReset
  repeat' split
  all_goals simp

@[simp] theorem setAinJack_kept (s : State) (j : Nat) (b : Bool) :
    (State.setAinJack s j b).pending = s.pending ∧ (State.setAinJack s j b).dram = s.dram := by
  unfold State.setAinJack; simp

@[simp] theorem ainJackGo_kept (s : State) (j : Nat) :
    (State.ainJackGo s j).pending = s.pending ∧ (State.ainJackGo s j).dram = s.dram := by
  unfold State.ainJackGo; simp

@[simp] theorem setAout_kept (s : State) (n : Nat) (c : AoutCh) :
    (State.setAout s n c).pending = s.pending ∧ (State.setAout s n c).dram = s.dram := by
  unfold State.setAout; simp

@[simp] theorem updAout_kept (s : State) (n : Nat) (f : AoutCh → AoutCh) :
    (State.updAout s n f).pending = s.pending ∧ (State.updAout s n f).dram = s.dram := by
  unfold State.updAout; simp

@[simp] theorem setHp_kept (s : State) (j : Nat) (x : HpJack) :
    (State.setHp s j x).pending = s.pending ∧ (State.setHp s j x).dram = s.dram := by
  unfold State.setHp; simp

@[simp] theorem aoutEnable_kept (s : State) (n : Nat) (w : Word) :
    (State.aoutEnable s n w).pending = s.pending ∧ (State.aoutEnable s n w).dram = s.dram := by
  unfold State.aoutEnable; simp

@[simp] theorem cpResume_kept (s : State) :
    (State.cpResume s).pending = s.pending ∧ (State.cpResume s).dram = s.dram := by
  unfold State.cpResume; simp

@[simp] theorem aoutSetEffect_kept (p : SinkSetP) (s : State) :
    (aoutSetEffect p s).st.pending = s.pending ∧ (aoutSetEffect p s).st.dram = s.dram := by
  unfold aoutSetEffect; simp

theorem execAoutSet_kept (h : Hdr) (p : SinkSetP) (s : State) :
    nextGet (execAoutSet h p s) State.kept = some s.kept := by
  unfold execAoutSet; simp

@[simp] theorem rangeChange_kept (s : State) (old : Word) :
    (State.rangeChange s old).pending = s.pending ∧ (State.rangeChange s old).dram = s.dram := by
  unfold State.rangeChange; simp

theorem execCpFault_kept (mv : Int) (dt : DT) (s : State) :
    nextGet (execCpFault mv dt s) State.kept = some s.kept := by
  unfold execCpFault
  try simp
  repeat' ((first | split | (intro; split)) <;> try simp)

theorem execOutputShort_kept (n : Nat) (dt : DT) (s : State) :
    nextGet (execOutputShort n dt s) State.kept = some s.kept := by
  unfold execOutputShort
  try simp
  repeat' ((first | split | (intro; split)) <;> try simp)

@[simp] theorem supplyStop_kept (s : State) (l : List Nat) :
    (State.supplyStop s l).pending = s.pending ∧ (State.supplyStop s l).dram = s.dram := by
  unfold State.supplyStop; simp

@[simp] theorem supplyLost_kept (s : State) (which : Nat) (l : List Nat) (dt : DT) :
    (State.supplyLost s which l dt).pending = s.pending ∧ (State.supplyLost s which l dt).dram = s.dram := by
  unfold State.supplyLost; simp

theorem execAvddLoss_kept (dt : DT) (s : State) :
    nextGet (execAvddLoss dt s) State.kept = some s.kept := by
  unfold execAvddLoss; simp

theorem execVio1Loss_kept (dt : DT) (s : State) :
    nextGet (execVio1Loss dt s) State.kept = some s.kept := by
  unfold execVio1Loss; simp

theorem execAvddValid_kept (dt : DT) (s : State) :
    nextGet (execAvddValid dt s) State.kept = some s.kept := by
  unfold execAvddValid; simp

theorem execVcmRampEnd_kept (dt : DT) (s : State) :
    nextGet (execVcmRampEnd dt s) State.kept = some s.kept := by
  unfold execVcmRampEnd; simp

theorem execVio1Valid_kept (dt : DT) (s : State) :
    nextGet (execVio1Valid dt s) State.kept = some s.kept := by
  unfold execVio1Valid; simp

@[simp] theorem aoutSched_kept (s : State) (n : Nat) :
    (State.aoutSched s n).pending = s.pending ∧ (State.aoutSched s n).dram = s.dram := by
  unfold State.aoutSched; simp

@[simp] theorem aoutRequests_kept (s : State) :
    (State.aoutRequests s).pending = s.pending ∧ (State.aoutRequests s).dram = s.dram := by
  unfold State.aoutRequests; simp

theorem execAinJackIn_kept (j : Nat) (pin : PinHeld) (s : State) :
    nextGet (execAinJackIn j pin s) State.kept = some s.kept := by
  unfold execAinJackIn
  try simp
  repeat' ((first | split | (intro; split)) <;> try simp)

theorem execAinJackOut_kept (j : Nat) (pin : PinHeld) (s : State) :
    nextGet (execAinJackOut j pin s) State.kept = some s.kept := by
  unfold execAinJackOut
  try simp
  repeat' ((first | split | (intro; split)) <;> try simp)

theorem execHpPlugDetect_kept (j : Nat) (dt : DT) (s : State) :
    nextGet (execHpPlugDetect j dt s) State.kept = some s.kept := by
  unfold execHpPlugDetect
  try simp
  repeat' ((first | split | (intro; split)) <;> try simp)

@[simp] theorem hold7_kept (s : State) :
    (State.hold7 s).pending = s.pending ∧ (State.hold7 s).dram = s.dram := by
  unfold State.hold7; simp

@[simp] theorem free7_kept (s : State) :
    (State.free7 s).pending = s.pending ∧ (State.free7 s).dram = s.dram := by
  unfold State.free7; simp

theorem execHpIdentify_kept (j ohms mvSlv mvRing2 : Nat) (dt : DT) (s : State) :
    nextGet (execHpIdentify j ohms mvSlv mvRing2 dt s) State.kept = some s.kept := by
  unfold execHpIdentify
  try simp
  repeat' ((first | split | (intro; split)) <;> try simp)

theorem execHpMeasure_kept (j zl zr : Nat) (dt : DT) (s : State) :
    nextGet (execHpMeasure j zl zr dt s) State.kept = some s.kept := by
  unfold execHpMeasure
  try simp
  repeat' ((first | split | (intro; split)) <;> try simp)

theorem execHpPresent_kept (j : Nat) (dt : DT) (s : State) :
    nextGet (execHpPresent j dt s) State.kept = some s.kept := by
  unfold execHpPresent
  try simp
  repeat' ((first | split | (intro; split)) <;> try simp)

theorem execHpInsertAfterWake_kept (j : Nat) (dt : DT) (s : State) :
    nextGet (execHpInsertAfterWake j dt s) State.kept = some s.kept := by
  unfold execHpInsertAfterWake
  try simp
  repeat' ((first | split | (intro; split)) <;> try simp)

theorem execHpRemove_kept (j : Nat) (dt : DT) (s : State) :
    nextGet (execHpRemove j dt s) State.kept = some s.kept := by
  unfold execHpRemove
  try simp
  repeat' ((first | split | (intro; split)) <;> try simp)

@[simp] theorem setCur_kept (s : State) (j v : Nat) :
    (State.setCur s j v).pending = s.pending ∧ (State.setCur s j v).dram = s.dram := by
  unfold State.setCur; simp

@[simp] theorem btnRelease_kept (s : State) (j : Nat) (dt : DT) :
    (State.btnRelease s j dt).pending = s.pending ∧ (State.btnRelease s j dt).dram = s.dram := by
  unfold State.btnRelease; simp

theorem execHpBtnPress_kept (j microamps : Nat) (dt : DT) (s : State) :
    nextGet (execHpBtnPress j microamps dt s) State.kept = some s.kept := by
  unfold execHpBtnPress
  try simp
  repeat' ((first | split | (intro; split)) <;> try simp)

theorem execHpBtnRelease_kept (j : Nat) (dt : DT) (s : State) :
    nextGet (execHpBtnRelease j dt s) State.kept = some s.kept := by
  unfold execHpBtnRelease; simp

@[simp] theorem jackGo_kept (s : State) (j : Nat) (tgt : Rat) (n : Nat) :
    (State.jackGo s j tgt n).pending = s.pending ∧ (State.jackGo s j tgt n).dram = s.dram := by
  unfold State.jackGo; simp

@[simp] theorem jackTick_kept (s : State) (j : Nat) :
    (State.jackTick s j).pending = s.pending ∧ (State.jackTick s j).dram = s.dram := by
  unfold State.jackTick
  try simp
  repeat' ((first | split | (intro; split)) <;> try simp)

@[simp] theorem setSpk_kept (s : State) (n : Nat) (c : SpkCh) :
    (State.setSpk s n c).pending = s.pending ∧ (State.setSpk s n c).dram = s.dram := by
  unfold State.setSpk; simp

@[simp] theorem updSpk_kept (s : State) (n : Nat) (f : SpkCh → SpkCh) :
    (State.updSpk s n f).pending = s.pending ∧ (State.updSpk s n f).dram = s.dram := by
  unfold State.updSpk; simp

@[simp] theorem clampOn_kept (s : State) :
    (State.clampOn s).pending = s.pending ∧ (State.clampOn s).dram = s.dram := by
  unfold State.clampOn; simp

@[simp] theorem startAttempt_kept (s : State) (n : Nat) :
    (State.startAttempt s n).pending = s.pending ∧ (State.startAttempt s n).dram = s.dram := by
  unfold State.startAttempt; simp

@[simp] theorem clrBit_kept (s : State) (off i : Nat) :
    (State.clrBit s off i).pending = s.pending ∧ (State.clrBit s off i).dram = s.dram := by
  unfold State.clrBit; simp

@[simp] theorem rearm_kept (s : State) (n : Nat) :
    (State.rearm s n).pending = s.pending ∧ (State.rearm s n).dram = s.dram := by
  unfold State.rearm; simp

@[simp] theorem spkSetEffect_kept (p : SinkSetP) (s : State) :
    (spkSetEffect p s).st.pending = s.pending ∧ (spkSetEffect p s).st.dram = s.dram := by
  unfold spkSetEffect; simp

theorem execSpkSet_kept (h : Hdr) (p : SinkSetP) (s : State) :
    nextGet (execSpkSet h p s) State.kept = some s.kept := by
  unfold execSpkSet; simp

theorem execAoutSeqSwitch_kept (n : Nat) (s : State) :
    nextGet (execAoutSeqSwitch n s) State.kept = some s.kept := by
  unfold execAoutSeqSwitch
  try simp
  repeat' ((first | split | (intro; split)) <;> try simp)

theorem execAoutStageSettled_kept (n : Nat) (s : State) :
    nextGet (execAoutStageSettled n s) State.kept = some s.kept := by
  unfold execAoutStageSettled
  try simp
  repeat' ((first | split | (intro; split)) <;> try simp)

theorem execBoostReady_kept (n : Nat) (s : State) :
    nextGet (execBoostReady n s) State.kept = some s.kept := by
  unfold execBoostReady; simp

@[simp] theorem abortMeas_kept (s : State) (n op : Nat) :
    (State.abortMeas s n op).pending = s.pending ∧ (State.abortMeas s n op).dram = s.dram := by
  unfold State.abortMeas; simp

@[simp] theorem spkMeasEffect_kept (h : Hdr) (p : SpkMeasP) (s : State) :
    (spkMeasEffect h p s).st.pending = s.pending ∧ (spkMeasEffect h p s).st.dram = s.dram := by
  unfold spkMeasEffect; simp

theorem execSpkMeas_kept (h : Hdr) (p : SpkMeasP) (s : State) :
    nextGet (execSpkMeas h p s) State.kept = some s.kept := by
  unfold execSpkMeas; simp

@[simp] theorem spkWatchEffect_kept (h : Hdr) (p : SpkWatchP) (s : State) :
    (spkWatchEffect h p s).st.pending = s.pending ∧ (spkWatchEffect h p s).st.dram = s.dram := by
  unfold spkWatchEffect; simp

theorem execSpkWatch_kept (h : Hdr) (p : SpkWatchP) (s : State) :
    nextGet (execSpkWatch h p s) State.kept = some s.kept := by
  unfold execSpkWatch; simp

@[simp] theorem spkNote_kept (s : State) (n bits code sev : Nat) (p1 p2 : Word) :
    (State.spkNote s n bits code sev p1 p2).pending = s.pending ∧ (State.spkNote s n bits code sev p1 p2).dram = s.dram := by
  unfold State.spkNote; simp

@[simp] theorem spkLatch_kept (s : State) (n : Nat) (dt : DT) (bits code sev : Nat) (p1 p2 : Word) :
    (State.spkLatch s n dt bits code sev p1 p2).pending = s.pending ∧ (State.spkLatch s n dt bits code sev p1 p2).dram = s.dram := by
  unfold State.spkLatch; simp

theorem execSpkLimitEvent_kept (n : Nat) (dt : DT) (s : State) :
    nextGet (execSpkLimitEvent n dt s) State.kept = some s.kept := by
  unfold execSpkLimitEvent
  try simp
  repeat' ((first | split | (intro; split)) <;> try simp)

theorem execSpkBroadbandShort_kept (n milliohms : Nat) (dt : DT) (s : State) :
    nextGet (execSpkBroadbandShort n milliohms dt s) State.kept = some s.kept := by
  unfold execSpkBroadbandShort
  try simp
  repeat' ((first | split | (intro; split)) <;> try simp)

theorem execSpkClampRelease_kept (bstMv : Nat) (s : State) :
    nextGet (execSpkClampRelease bstMv s) State.kept = some s.kept := by
  unfold execSpkClampRelease; simp

theorem execSpkRetryAttempt_kept (n : Nat) (dt : DT) (s : State) :
    nextGet (execSpkRetryAttempt n dt s) State.kept = some s.kept := by
  unfold execSpkRetryAttempt
  try simp
  repeat' ((first | split | (intro; split)) <;> try simp)

@[simp] theorem clampOff_kept (s : State) :
    (State.clampOff s).pending = s.pending ∧ (State.clampOff s).dram = s.dram := by
  unfold State.clampOff; simp

theorem execSpkProbeEnd_kept (n milliohms : Nat) (dt : DT) (s : State) :
    nextGet (execSpkProbeEnd n milliohms dt s) State.kept = some s.kept := by
  unfold execSpkProbeEnd
  try simp
  repeat' ((first | split | (intro; split)) <;> try simp)

@[simp] theorem measArrive_kept (s : State) (n : Nat) (f : Wait → Option (Word × Word × Word)) :
    (State.measArrive s n f).pending = s.pending ∧ (State.measArrive s n f).dram = s.dram := by
  unfold State.measArrive
  try simp
  repeat' ((first | split | (intro; split)) <;> try simp)
  all_goals (first | (intros; simp; done) | skip)
  all_goals (first | done | (constructor <;> first | (apply foldl_pending; intro s a; repeat' (split <;> try simp)) | (apply foldl_dram; intro s a; repeat' (split <;> try simp))))

@[simp] theorem classAct_kept (s : State) (n cls r : Nat) (t : Option Int) (dt : DT) :
    (State.classAct s n cls r t dt).pending = s.pending ∧ (State.classAct s n cls r t dt).dram = s.dram := by
  unfold State.classAct
  repeat' split
  all_goals simp

theorem execSpkPilotWindow_kept (n : Nat) (valid : Bool) (milliohms nanohenry : Nat) (dt : DT) (s : State) :
    nextGet (execSpkPilotWindow n valid milliohms nanohenry dt s) State.kept = some s.kept := by
  unfold execSpkPilotWindow
  try simp
  repeat' ((first | split | (intro; split)) <;> try simp)

@[simp] theorem capLog_kept (s : State) (n who mw lim : Nat) (was : Rat) (dt : DT) :
    (State.capLog s n who mw lim was dt).pending = s.pending ∧ (State.capLog s n who mw lim was dt).dram = s.dram := by
  unfold State.capLog; simp

@[simp] theorem capChan_kept (s : State) (n mw tot : Nat) (dt : DT) :
    (State.capChan s n mw tot dt).pending = s.pending ∧ (State.capChan s n mw tot dt).dram = s.dram := by
  unfold State.capChan; simp

theorem execSpkPmeanUpdate_kept (mw0 mw1 : Nat) (dt : DT) (s : State) :
    nextGet (execSpkPmeanUpdate mw0 mw1 dt s) State.kept = some s.kept := by
  unfold execSpkPmeanUpdate; simp

theorem execSpkCapTrip_kept (n mw : Nat) (dt : DT) (s : State) :
    nextGet (execSpkCapTrip n mw dt s) State.kept = some s.kept := by
  unfold execSpkCapTrip
  try simp
  repeat' ((first | split | (intro; split)) <;> try simp)

theorem execSpkBstOvp_kept (comparator mv : Nat) (dt : DT) (s : State) :
    nextGet (execSpkBstOvp comparator mv dt s) State.kept = some s.kept := by
  unfold execSpkBstOvp
  repeat' split
  all_goals simp

theorem execPvddFault_kept (isOver : Bool) (mv : Nat) (dt : DT) (s : State) :
    nextGet (execPvddFault isOver mv dt s) State.kept = some s.kept := by
  unfold execPvddFault
  try simp
  repeat' ((first | split | (intro; split)) <;> try simp)

theorem execPvddReturn_kept (dt : DT) (s : State) :
    nextGet (execPvddReturn dt s) State.kept = some s.kept := by
  unfold execPvddReturn
  try simp
  repeat' ((first | split | (intro; split)) <;> try simp)

@[simp] theorem dieGo_kept (s : State) (tgt : Rat) (n : Nat) :
    (State.dieGo s tgt n).pending = s.pending ∧ (State.dieGo s tgt n).dram = s.dram := by
  unfold State.dieGo; simp

theorem execDieThermal_kept (tenths : Int) (dt : DT) (s : State) :
    nextGet (execDieThermal tenths dt s) State.kept = some s.kept := by
  unfold execDieThermal
  try simp
  repeat' ((first | split | (intro; split)) <;> try simp)

@[simp] theorem spkReq_kept (s : State) (n : Nat) :
    (State.spkReq s n).pending = s.pending ∧ (State.spkReq s n).dram = s.dram := by
  unfold State.spkReq; simp

@[simp] theorem spkTickCh_kept (s : State) (trail : Bool) (n : Nat) :
    (State.spkTickCh s trail n).pending = s.pending ∧ (State.spkTickCh s trail n).dram = s.dram := by
  unfold State.spkTickCh; simp

@[simp] theorem spkReport_kept (s : State) (e : SpkEv) :
    (State.spkReport s e).pending = s.pending ∧ (State.spkReport s e).dram = s.dram := by
  unfold State.spkReport
  try simp
  repeat' ((first | split | (intro; split)) <;> try simp)
  all_goals (first | (intros; simp; done) | skip)
  all_goals (first | done | (constructor <;> first | (apply foldl_pending; intro s a; repeat' (split <;> try simp)) | (apply foldl_dram; intro s a; repeat' (split <;> try simp))))

@[simp] theorem spkTick_kept (s : State) (trail0 trail1 : Bool) :
    (State.spkTick s trail0 trail1).pending = s.pending ∧ (State.spkTick s trail0 trail1).dram = s.dram := by
  unfold State.spkTick; simp

@[simp] theorem spkEvents_kept (s : State) :
    (State.spkEvents s).pending = s.pending ∧ (State.spkEvents s).dram = s.dram := by
  unfold State.spkEvents; simp

@[simp] theorem spkRead_kept (s : State) (n : Nat) (x : Int) :
    (State.spkRead s n x).pending = s.pending ∧ (State.spkRead s n x).dram = s.dram := by
  unfold State.spkRead; simp

@[simp] theorem boostTarget_kept (s : State) (trail0 trail1 : Bool) :
    (State.boostTarget s trail0 trail1).pending = s.pending ∧ (State.boostTarget s trail0 trail1).dram = s.dram := by
  unfold State.boostTarget; simp

@[simp] theorem boostSleep_kept (s : State) (chosen : Nat) :
    (State.boostSleep s chosen).pending = s.pending ∧ (State.boostSleep s chosen).dram = s.dram := by
  unfold State.boostSleep; simp

@[simp] theorem railFactor_kept (s : State) (n : Nat) (x : Word) :
    (State.railFactor s n x).pending = s.pending ∧ (State.railFactor s n x).dram = s.dram := by
  unfold State.railFactor; simp

@[simp] theorem railPeriod_kept (s : State) (n : Nat) (x : Word) (ns : Rat) :
    (State.railPeriod s n x ns).pending = s.pending ∧ (State.railPeriod s n x ns).dram = s.dram := by
  unfold State.railPeriod; simp

@[simp] theorem railRun_pending (s : State) (n : Nat) (ns : Rat) (l : List Word) : (s.railRun n ns l).pending = s.pending := by
  induction l generalizing s ns with
  | nil => rfl
  | cons x l ih => unfold State.railRun; rw [ih]; simp

@[simp] theorem railRun_dram (s : State) (n : Nat) (ns : Rat) (l : List Word) : (s.railRun n ns l).dram = s.dram := by
  induction l generalizing s ns with
  | nil => rfl
  | cons x l ih => unfold State.railRun; rw [ih]; simp

@[simp] theorem spkStep_pending (s : State) (trail0 trail1 : Bool) (bst pvdd : Nat) (mods : List (Nat × List Word)) :
    (s.spkStep trail0 trail1 bst pvdd mods).pending = s.pending := by
  unfold State.spkStep
  dsimp only
  refine (foldl_pending _ _ _ ?_).trans ?_
  · intro s m; cases (decide (m.1 < 2) && (s.spkCh m.1).drive) <;> simp
  simp only [boostTarget_kept, pending_ite, updSpk_kept, ite_self]

@[simp] theorem spkStep_dram (s : State) (trail0 trail1 : Bool) (bst pvdd : Nat) (mods : List (Nat × List Word)) :
    (s.spkStep trail0 trail1 bst pvdd mods).dram = s.dram := by
  unfold State.spkStep
  dsimp only
  refine (foldl_dram _ _ _ ?_).trans ?_
  · intro s m; cases (decide (m.1 < 2) && (s.spkCh m.1).drive) <;> simp
  simp only [boostTarget_kept, dram_ite, updSpk_kept, ite_self]

@[simp] theorem pilotRateStop_kept (s : State) (new : Nat) :
    (State.pilotRateStop s new).pending = s.pending ∧ (State.pilotRateStop s new).dram = s.dram := by
  unfold State.pilotRateStop; simp

@[simp] theorem pilotRateResume_kept (s : State) :
    (State.pilotRateResume s).pending = s.pending ∧ (State.pilotRateResume s).dram = s.dram := by
  unfold State.pilotRateResume; simp

@[simp] theorem setSel_kept (s : State) (a : ChAddr) (x : Sel) :
    (State.setSel s a x).pending = s.pending ∧ (State.setSel s a x).dram = s.dram := by
  unfold State.setSel; simp

@[simp] theorem setLaneSrc_kept (s : State) (l : Nat) (a : ChAddr) :
    (State.setLaneSrc s l a).pending = s.pending ∧ (State.setLaneSrc s l a).dram = s.dram := by
  unfold State.setLaneSrc; simp

@[simp] theorem handover_kept (s : State) (k c : Nat) (toTrail : Bool) :
    (State.handover s k c toTrail).pending = s.pending ∧ (State.handover s k c toTrail).dram = s.dram := by
  unfold State.handover; simp

@[simp] theorem routeSetRefused_pending (h : Hdr) (p : RouteSetP) (found : State) (st : Status) (s : State) :
    (routeSetRefused h p found st s).pending = s.pending := by
  unfold routeSetRefused; split <;> simp

@[simp] theorem routeSetRefused_dram (h : Hdr) (p : RouteSetP) (found : State) (st : Status) (s : State) :
    (routeSetRefused h p found st s).dram = s.dram := by
  unfold routeSetRefused; split <;> simp

@[simp] theorem routeDone_kept (s : State) (prev : ChAddr) (last : TS) :
    (routeDone s prev last).st.pending = s.pending ∧ (routeDone s prev last).st.dram = s.dram := by
  unfold routeDone; simp

@[simp] theorem routeSetEffect_kept (p : RouteSetP) (s : State) :
    (routeSetEffect p s).st.pending = s.pending ∧ (routeSetEffect p s).st.dram = s.dram := by
  unfold routeSetEffect
  try simp
  repeat' ((first | split | (intro; split)) <;> try simp)

theorem execRouteSet_kept (h : Hdr) (p : RouteSetP) (s : State) :
    nextGet (execRouteSet h p s) State.kept = some s.kept := by
  unfold execRouteSet
  try simp
  repeat' ((first | split | (intro; split)) <;> try simp)
  all_goals (first | done | (intros; simp; done) | (apply foldl_pending; intro s a; repeat' (split <;> try simp)))

@[simp] theorem thkSwapEffect_kept (mode : Nat) (s : State) :
    (thkSwapEffect mode s).st.pending = s.pending ∧ (thkSwapEffect mode s).st.dram = s.dram := by
  unfold thkSwapEffect; simp

@[simp] theorem runLocking_pending (s : State) (h : Hdr) (c : Cmd) (op : Nat) (v : Bool) (r : Status) (eff : State → Done)
    (h1 : ∀ s, (eff s).st.pending = s.pending) : (s.runLocking h c op v r eff).pending = s.pending := by
  unfold State.runLocking; simp [h1]

@[simp] theorem runLocking_dram (s : State) (h : Hdr) (c : Cmd) (op : Nat) (v : Bool) (r : Status) (eff : State → Done)
    (h1 : ∀ s, (eff s).st.dram = s.dram) : (s.runLocking h c op v r eff).dram = s.dram := by
  unfold State.runLocking; simp [h1]

theorem execThkSwap_kept (h : Hdr) (mode : Nat) (s : State) :
    nextGet (execThkSwap h mode s) State.kept = some s.kept := by
  unfold execThkSwap; simp

@[simp] theorem thkFaderRefused_kept (h : Hdr) (st : Status) (s : State) :
    (thkFaderRefused h st s).pending = s.pending ∧ (thkFaderRefused h st s).dram = s.dram := by
  unfold thkFaderRefused; simp

@[simp] theorem faderFullLog_kept (s : State) :
    (State.faderFullLog s).pending = s.pending ∧ (State.faderFullLog s).dram = s.dram := by
  unfold State.faderFullLog; simp

@[simp] theorem thkFaderEffect_kept (p : FaderP) (s : State) :
    (thkFaderEffect p s).st.pending = s.pending ∧ (thkFaderEffect p s).st.dram = s.dram := by
  unfold thkFaderEffect; simp

theorem execThkFader_kept (h : Hdr) (p : FaderP) (s : State) :
    nextGet (execThkFader h p s) State.kept = some s.kept := by
  unfold execThkFader; simp

@[simp] theorem toneSetEffect_kept (p : ToneSetP) (s : State) :
    (toneSetEffect p s).st.pending = s.pending ∧ (toneSetEffect p s).st.dram = s.dram := by
  unfold toneSetEffect; simp

theorem execToneSet_kept (h : Hdr) (p : ToneSetP) (s : State) :
    nextGet (execToneSet h p s) State.kept = some s.kept := by
  unfold execToneSet; simp

@[simp] theorem thkRamps_kept (s : State) :
    (State.thkRamps s).pending = s.pending ∧ (State.thkRamps s).dram = s.dram := by
  unfold State.thkRamps; simp

@[simp] theorem busRun_kept (s : State) (b : Nat) (acc : Int) (tag : Nat) :
    (State.busRun s b acc tag).pending = s.pending ∧ (State.busRun s b acc tag).dram = s.dram := by
  unfold State.busRun; simp

@[simp] theorem thkRun_kept (s : State) :
    (State.thkRun s).pending = s.pending ∧ (State.thkRun s).dram = s.dram := by
  unfold State.thkRun; simp

@[simp] theorem meterTick_kept (s : State) :
    (State.meterTick s).pending = s.pending ∧ (State.meterTick s).dram = s.dram := by
  unfold State.meterTick; simp

theorem execMeterReport_kept (ok : Bool) (s : State) :
    nextGet (execMeterReport ok s) State.kept = some s.kept := by
  unfold execMeterReport
  try simp
  repeat' ((first | split | (intro; split)) <;> try simp)

@[simp] theorem meterEn_kept (s : State) (en : Bool) :
    (State.meterEn s en).pending = s.pending ∧ (State.meterEn s en).dram = s.dram := by
  unfold State.meterEn; simp

@[simp] theorem apBad_kept (s : State) (off : Nat) (discard : Bool) :
    (State.apBad s off discard).pending = s.pending ∧ (State.apBad s off discard).dram = s.dram := by
  unfold State.apBad; simp

@[simp] theorem apThk_kept (s : State) (off : Nat) (w : Word) :
    (State.apThk s off w).pending = s.pending ∧ (State.apThk s off w).dram = s.dram := by
  unfold State.apThk; simp

@[simp] theorem thkFirst_kept (s : State) :
    (State.thkFirst s).pending = s.pending ∧ (State.thkFirst s).dram = s.dram := by
  unfold State.thkFirst; simp

@[simp] theorem setTrl_kept (s : State) (c : Nat) (x : TrlCh) :
    (State.setTrl s c x).pending = s.pending ∧ (State.setTrl s c x).dram = s.dram := by
  unfold State.setTrl; simp

@[simp] theorem trailCommitEffect_kept (p : TrailCommitP) (s : State) :
    (trailCommitEffect p s).st.pending = s.pending ∧ (trailCommitEffect p s).st.dram = s.dram := by
  unfold trailCommitEffect; simp

theorem execTrailCommit_kept (h : Hdr) (p : TrailCommitP) (s : State) :
    nextGet (execTrailCommit h p s) State.kept = some s.kept := by
  unfold execTrailCommit; simp

@[simp] theorem trlActivate_kept (s : State) (c : Nat) :
    (State.trlActivate s c).pending = s.pending ∧ (State.trlActivate s c).dram = s.dram := by
  unfold State.trlActivate
  try simp
  repeat' ((first | split | (intro; split)) <;> try simp)

@[simp] theorem unfollow_kept (s : State) (c : Nat) :
    (State.unfollow s c).pending = s.pending ∧ (State.unfollow s c).dram = s.dram := by
  unfold State.unfollow; simp

@[simp] theorem floorOff_kept (s : State) (c : Nat) (k : Option Nat) :
    (State.floorOff s c k).pending = s.pending ∧ (State.floorOff s c k).dram = s.dram := by
  unfold State.floorOff
  repeat' split
  all_goals simp

@[simp] theorem trlAdvance_kept (s : State) (c : Nat) :
    (State.trlAdvance s c).pending = s.pending ∧ (State.trlAdvance s c).dram = s.dram := by
  unfold State.trlAdvance
  try simp
  repeat' ((first | split | (intro; split)) <;> try simp)

@[simp] theorem trlChannel_kept (s : State) (c : Nat) (vals : Nat → Int) :
    (State.trlChannel s c vals).pending = s.pending ∧ (State.trlChannel s c vals).dram = s.dram := by
  unfold State.trlChannel; simp

@[simp] theorem trlErr_kept (s : State) (c : Nat) :
    (State.trlErr s c).pending = s.pending ∧ (State.trlErr s c).dram = s.dram := by
  unfold State.trlErr; simp

@[simp] theorem trlStep_kept (s : State) (vals : Nat → Int) :
    (State.trlStep s vals).1.pending = s.pending ∧ (State.trlStep s vals).1.dram = s.dram := by
  unfold State.trlStep; simp

@[simp] theorem apTrl_kept (s : State) (off : Nat) (w : Word) :
    (State.apTrl s off w).pending = s.pending ∧ (State.apTrl s off w).dram = s.dram := by
  unfold State.apTrl; simp

@[simp] theorem trlFirst_kept (s : State) :
    (State.trlFirst s).pending = s.pending ∧ (State.trlFirst s).dram = s.dram := by
  unfold State.trlFirst
  try simp
  repeat' ((first | split | (intro; split)) <;> try simp)
  all_goals (first | (intros; simp; done) | skip)
  all_goals (first | done | (constructor <;> first | (apply foldl_pending; intro s a; repeat' (split <;> try simp)) | (apply foldl_dram; intro s a; repeat' (split <;> try simp))))

@[simp] theorem setFx_kept (s : State) (n : Nat) (x : FxCh) :
    (State.setFx s n x).pending = s.pending ∧ (State.setFx s n x).dram = s.dram := by
  unfold State.setFx; simp

@[simp] theorem fxActivate_kept (s : State) (n : Nat) :
    (State.fxActivate s n).1.pending = s.pending ∧ (State.fxActivate s n).1.dram = s.dram := by
  unfold State.fxActivate; simp

@[simp] theorem fxCommitEffect_pending (p : TableCommitP) (s : State) : (fxCommitEffect p s).st.pending = s.pending := by
  unfold fxCommitEffect
  have h : ∀ (l : List Nat) (a : State × Nat), (l.foldl (fun (a : State × Nat) k =>
      let (s, m) := a.1.fxActivate k; (s, max a.2 m)) a).1.pending = a.1.pending := by
    intro l; induction l with
    | nil => intro a; rfl
    | cons k l ih => intro a; rw [List.foldl_cons, ih]; simp
  exact h _ (s, 0)

@[simp] theorem fxCommitEffect_dram (p : TableCommitP) (s : State) : (fxCommitEffect p s).st.dram = s.dram := by
  unfold fxCommitEffect
  have h : ∀ (l : List Nat) (a : State × Nat), (l.foldl (fun (a : State × Nat) k =>
      let (s, m) := a.1.fxActivate k; (s, max a.2 m)) a).1.dram = a.1.dram := by
    intro l; induction l with
    | nil => intro a; rfl
    | cons k l ih => intro a; rw [List.foldl_cons, ih]; simp
  exact h _ (s, 0)

theorem execFxCommit_kept (h : Hdr) (p : TableCommitP) (s : State) :
    nextGet (execFxCommit h p s) State.kept = some s.kept := by
  unfold execFxCommit; simp

@[simp] theorem fxSat_kept (s : State) (n stage : Nat) :
    (State.fxSat s n stage).pending = s.pending ∧ (State.fxSat s n stage).dram = s.dram := by
  unfold State.fxSat; simp

@[simp] theorem fxSlot_pending (s : State) (n : Nat) (fr : FxFront) (e g : Rat) (opened : Bool) (hold : Nat) :
    (State.fxSlot s n fr e g opened hold).pending = s.pending := by
  unfold State.fxSlot; simp

@[simp] theorem fxSingle_pending (s : State) (n : Nat) :
    (State.fxSingle s n).pending = s.pending := by
  unfold State.fxSingle
  try simp
  repeat' ((first | split | (intro; split)) <;> try simp)
  all_goals (first | done | (intros; simp; done) | (apply foldl_pending; intro s a; repeat' (split <;> try simp)))

@[simp] theorem fxLinked_pending (s : State) (a b : Nat) :
    (State.fxLinked s a b).pending = s.pending := by
  unfold State.fxLinked
  try simp
  repeat' ((first | split | (intro; split)) <;> try simp)
  all_goals (first | done | (intros; simp; done) | (apply foldl_pending; intro s a; repeat' (split <;> try simp)))

@[simp] theorem fxPair_pending (s : State) (m : Nat) :
    (State.fxPair s m).pending = s.pending := by
  unfold State.fxPair; simp

@[simp] theorem fxRun_pending (s : State) :
    (State.fxRun s).pending = s.pending := by
  unfold State.fxRun; simp

@[simp] theorem fxRamps_kept (s : State) :
    (State.fxRamps s).pending = s.pending ∧ (State.fxRamps s).dram = s.dram := by
  unfold State.fxRamps; simp

@[simp] theorem fxLineErr_kept (s : State) (n : Nat) (addr : Addr) (dt : DT) :
    (State.fxLineErr s n addr dt).pending = s.pending ∧ (State.fxLineErr s n addr dt).dram = s.dram := by
  unfold State.fxLineErr; simp

@[simp] theorem fxStateErr_kept (s : State) (n : Nat) :
    (State.fxStateErr s n).pending = s.pending ∧ (State.fxStateErr s n).dram = s.dram := by
  unfold State.fxStateErr; simp

@[simp] theorem apFx_kept (s : State) (off : Nat) (w : Word) :
    (State.apFx s off w).pending = s.pending ∧ (State.apFx s off w).dram = s.dram := by
  unfold State.apFx; simp

@[simp] theorem clipCommitEffect_kept (p : TableCommitP) (s : State) :
    (clipCommitEffect p s).st.pending = s.pending ∧ (clipCommitEffect p s).st.dram = s.dram := by
  unfold clipCommitEffect; simp

theorem execClipCommit_kept (h : Hdr) (p : TableCommitP) (s : State) :
    nextGet (execClipCommit h p s) State.kept = some s.kept := by
  unfold execClipCommit; simp

@[simp] theorem voiceWaits_kept (s : State) (v : Nat) (last : TS) (cause : Nat) :
    (State.voiceWaits s v last cause).pending = s.pending ∧ (State.voiceWaits s v last cause).dram = s.dram := by
  unfold State.voiceWaits
  try simp
  repeat' ((first | split | (intro; split)) <;> try simp)
  all_goals (first | (intros; simp; done) | skip)
  all_goals (first | done | (constructor <;> first | (apply foldl_pending; intro s a; repeat' (split <;> try simp)) | (apply foldl_dram; intro s a; repeat' (split <;> try simp))))

@[simp] theorem stealVoice_kept (s : State) (v : Nat) :
    (State.stealVoice s v).pending = s.pending ∧ (State.stealVoice s v).dram = s.dram := by
  unfold State.stealVoice
  repeat' split
  all_goals simp

@[simp] theorem clipStartEffect_kept (p : ClipStartP) (s : State) :
    (clipStartEffect p s).st.pending = s.pending ∧ (clipStartEffect p s).st.dram = s.dram := by
  unfold clipStartEffect; simp

theorem execClipStart_kept (h : Hdr) (p : ClipStartP) (s : State) :
    nextGet (execClipStart h p s) State.kept = some s.kept := by
  unfold execClipStart; simp

@[simp] theorem ctrlPair_kept (s : State) (p : ClipCtrlP) :
    (State.ctrlPair s p).pending = s.pending ∧ (State.ctrlPair s p).dram = s.dram := by
  unfold State.ctrlPair
  try simp
  repeat' ((first | split | (intro; split)) <;> try simp)

@[simp] theorem clipCtrlEffect_kept (h : Hdr) (p : ClipCtrlP) (s : State) :
    (clipCtrlEffect h p s).st.pending = s.pending ∧ (clipCtrlEffect h p s).st.dram = s.dram := by
  unfold clipCtrlEffect; simp

theorem execClipCtrl_kept (h : Hdr) (p : ClipCtrlP) (s : State) :
    nextGet (execClipCtrl h p s) State.kept = some s.kept := by
  unfold execClipCtrl; simp

@[simp] theorem voicesEnd_kept (s : State) :
    (State.voicesEnd s).pending = s.pending ∧ (State.voicesEnd s).dram = s.dram := by
  unfold State.voicesEnd
  try simp
  repeat' ((first | split | (intro; split)) <;> try simp)
  all_goals (first | (intros; simp; done) | skip)
  all_goals (first | done | (constructor <;> first | (apply foldl_pending; intro s a; repeat' (split <;> try simp)) | (apply foldl_dram; intro s a; repeat' (split <;> try simp))))

@[simp] theorem clipRamps_kept (s : State) :
    (State.clipRamps s).pending = s.pending ∧ (State.clipRamps s).dram = s.dram := by
  unfold State.clipRamps; simp

@[simp] theorem clipStarve_kept (s : State) (voice n : Nat) :
    (State.clipStarve s voice n).pending = s.pending ∧ (State.clipStarve s voice n).dram = s.dram := by
  unfold State.clipStarve; simp

@[simp] theorem voiceErr_kept (s : State) (v : Nat) :
    (State.voiceErr s v).pending = s.pending ∧ (State.voiceErr s v).dram = s.dram := by
  unfold State.voiceErr
  try simp
  repeat' ((first | split | (intro; split)) <;> try simp)

@[simp] theorem clipKeyless_kept (s : State) :
    (State.clipKeyless s).pending = s.pending ∧ (State.clipKeyless s).dram = s.dram := by
  unfold State.clipKeyless; simp

@[simp] theorem clipRun_kept (s : State) (absent : List (Nat × List Nat)) :
    (State.clipRun s absent).pending = s.pending ∧ (State.clipRun s absent).dram = s.dram := by
  unfold State.clipRun; simp

@[simp] theorem voiceDip_kept (s : State) (v : Nat) :
    (State.voiceDip s v).pending = s.pending ∧ (State.voiceDip s v).dram = s.dram := by
  unfold State.voiceDip
  repeat' split
  all_goals simp

@[simp] theorem badBlock_kept (s : State) (v b : Nat) :
    (State.badBlock s v b).pending = s.pending ∧ (State.badBlock s v b).dram = s.dram := by
  unfold State.badBlock
  try simp
  repeat' ((first | split | (intro; split)) <;> try simp)

theorem execClipTagFail_kept (voice block : Nat) (s : State) :
    nextGet (execClipTagFail voice block s) State.kept = some s.kept := by
  unfold execClipTagFail
  repeat' split
  all_goals simp

@[simp] theorem apClip_kept (s : State) (off : Nat) (w : Word) :
    (State.apClip s off w).pending = s.pending ∧ (State.apClip s off w).dram = s.dram := by
  unfold State.apClip; simp

@[simp] theorem apEnv_kept (s : State) (off : Nat) (w : Word) :
    (State.apEnv s off w).pending = s.pending ∧ (State.apEnv s off w).dram = s.dram := by
  unfold State.apEnv; simp

@[simp] theorem setRec_kept (s : State) (r : Nat) (x : Recorder) :
    (State.setRec s r x).pending = s.pending ∧ (State.setRec s r x).dram = s.dram := by
  unfold State.setRec; simp

@[simp] theorem loopSetEffect_kept (p : LoopSetP) (s : State) :
    (loopSetEffect p s).st.pending = s.pending ∧ (loopSetEffect p s).st.dram = s.dram := by
  unfold loopSetEffect
  try simp
  repeat' ((first | split | (intro; split)) <;> try simp)

theorem execLoopSet_kept (h : Hdr) (p : LoopSetP) (s : State) :
    nextGet (execLoopSet h p s) State.kept = some s.kept := by
  unfold execLoopSet; simp

@[simp] theorem putFrame_pending (s : State) (base fmt i : Nat) (x : Int) :
    (State.putFrame s base fmt i x).pending = s.pending := by
  unfold State.putFrame; simp

@[simp] theorem takeZeros_pending (s : State) (fmt base : Nat) (start from_ : TS) (n : Nat) :
    (State.takeZeros s fmt base start from_ n).pending = s.pending := by
  unfold State.takeZeros
  try simp
  repeat' ((first | split | (intro; split)) <;> try simp)
  all_goals (first | done | (intros; simp; done) | (apply foldl_pending; intro s a; repeat' (split <;> try simp)))

@[simp] theorem takeGap_pending (s : State) (fmt : Nat) (run : LoopRun) (k : TS) :
    (State.takeGap s fmt run k).pending = s.pending := by
  unfold State.takeGap
  repeat' split
  all_goals simp

@[simp] theorem takeDone_pending (s : State) (r : Nat) (run : LoopRun) :
    (State.takeDone s r run).pending = s.pending := by
  unfold State.takeDone; simp

@[simp] theorem takeFlush_pending (s : State) (fmt : Nat) (run : LoopRun) :
    (State.takeFlush s fmt run).pending = s.pending := by
  unfold State.takeFlush
  repeat' split
  all_goals simp

@[simp] theorem loopCommitEffect_pending (h : Hdr) (p : LoopCommitP) (s : State) :
    (loopCommitEffect h p s).st.pending = s.pending := by
  unfold loopCommitEffect; simp

theorem execLoopCommit_pending (h : Hdr) (p : LoopCommitP) (s : State) :
    nextGet (execLoopCommit h p s) State.pending = some s.pending := by
  unfold execLoopCommit; simp

theorem execLoopCopyDone_pending (r moved : Nat) (dt : DT) (s : State) :
    nextGet (execLoopCopyDone r moved dt s) State.pending = some s.pending := by
  unfold execLoopCopyDone
  try simp
  repeat' ((first | split | (intro; split)) <;> try simp)

@[simp] theorem ringCopyErr_pending (s : State) (r line : Nat) :
    (State.ringCopyErr s r line).pending = s.pending := by
  unfold State.ringCopyErr
  try simp
  repeat' ((first | split | (intro; split)) <;> try simp)
  all_goals (first | done | (intros; simp; done) | (apply foldl_pending; intro s a; repeat' (split <;> try simp)))

@[simp] theorem ringRun_pending (s : State) (r : Nat) (v : Int) :
    (State.ringRun s r v).pending = s.pending := by
  unfold State.ringRun
  try simp
  repeat' ((first | split | (intro; split)) <;> try simp)
  all_goals (first | done | (intros; simp; done) | (apply foldl_pending; intro s a; repeat' (split <;> try simp)))

@[simp] theorem takeRun_pending (s : State) (r : Nat) (v : Int) :
    (State.takeRun s r v).pending = s.pending := by
  unfold State.takeRun
  try simp
  repeat' ((first | split | (intro; split)) <;> try simp)
  all_goals (first | done | (intros; simp; done) | (apply foldl_pending; intro s a; repeat' (split <;> try simp)))

@[simp] theorem playRun_kept (s : State) (r : Nat) :
    (State.playRun s r).pending = s.pending ∧ (State.playRun s r).dram = s.dram := by
  unfold State.playRun
  try simp
  repeat' ((first | split | (intro; split)) <;> try simp)

@[simp] theorem recRun_pending (s : State) (r : Nat) :
    (State.recRun s r).pending = s.pending := by
  unfold State.recRun
  try simp
  repeat' ((first | split | (intro; split)) <;> try simp)

@[simp] theorem loopRun_pending (s : State) :
    (State.loopRun s).pending = s.pending := by
  unfold State.loopRun; simp

@[simp] theorem loopRamps_kept (s : State) :
    (State.loopRamps s).pending = s.pending ∧ (State.loopRamps s).dram = s.dram := by
  unfold State.loopRamps; simp

@[simp] theorem takesEnd_pending (s : State) :
    (State.takesEnd s).pending = s.pending := by
  unfold State.takesEnd
  try simp
  repeat' ((first | split | (intro; split)) <;> try simp)
  all_goals (first | done | (intros; simp; done) | (apply foldl_pending; intro s a; repeat' (split <;> try simp)))

@[simp] theorem ringsBreak_kept (s : State) :
    (State.ringsBreak s).pending = s.pending ∧ (State.ringsBreak s).dram = s.dram := by
  unfold State.ringsBreak; simp

@[simp] theorem setSap_kept (s : State) (k : Nat) (x : SapDir) :
    (State.setSap s k x).pending = s.pending ∧ (State.setSap s k x).dram = s.dram := by
  unfold State.setSap; simp

@[simp] theorem updSap_kept (s : State) (k : Nat) (f : SapDir → SapDir) :
    (State.updSap s k f).pending = s.pending ∧ (State.updSap s k f).dram = s.dram := by
  unfold State.updSap; simp

@[simp] theorem setCtx_kept (s : State) (n : Nat) (x : NetCtx) :
    (State.setCtx s n x).pending = s.pending ∧ (State.setCtx s n x).dram = s.dram := by
  unfold State.setCtx; simp

@[simp] theorem updCtx_kept (s : State) (n : Nat) (f : NetCtx → NetCtx) :
    (State.updCtx s n f).pending = s.pending ∧ (State.updCtx s n f).dram = s.dram := by
  unfold State.updCtx; simp

@[simp] theorem setClk_kept (s : State) (c : ClkSt) :
    (State.setClk s c).pending = s.pending ∧ (State.setClk s c).dram = s.dram := by
  unfold State.setClk; simp

@[simp] theorem leaderLost_kept (s : State) (dt : DT) :
    (State.leaderLost s dt).pending = s.pending ∧ (State.leaderLost s dt).dram = s.dram := by
  unfold State.leaderLost; simp

@[simp] theorem leaderAdopt_kept (s : State) :
    (State.leaderAdopt s).pending = s.pending ∧ (State.leaderAdopt s).dram = s.dram := by
  unfold State.leaderAdopt; simp

@[simp] theorem leaderBack_kept (s : State) :
    (State.leaderBack s).pending = s.pending ∧ (State.leaderBack s).dram = s.dram := by
  unfold State.leaderBack; simp

@[simp] theorem leaderLoop_kept (s : State) (err : Option Int) :
    (State.leaderLoop s err).pending = s.pending ∧ (State.leaderLoop s err).dram = s.dram := by
  unfold State.leaderLoop
  try simp
  repeat' ((first | split | (intro; split)) <;> try simp)

@[simp] theorem wclkEdges_kept (s : State) (l : List DT) :
    (State.wclkEdges s l).pending = s.pending ∧ (State.wclkEdges s l).dram = s.dram := by
  unfold State.wclkEdges; simp

theorem execLeaderLock_kept (dt : DT) (s : State) :
    nextGet (execLeaderLock dt s) State.kept = some s.kept := by
  unfold execLeaderLock; simp

theorem execLeaderRange_kept (dt : DT) (s : State) :
    nextGet (execLeaderRange dt s) State.kept = some s.kept := by
  unfold execLeaderRange; simp

theorem execWclkInLoss_kept (dt : DT) (s : State) :
    nextGet (execWclkInLoss dt s) State.kept = some s.kept := by
  unfold execWclkInLoss; simp

theorem execMclkLoss_kept (dt : DT) (s : State) :
    nextGet (execMclkLoss dt s) State.kept = some s.kept := by
  unfold execMclkLoss; simp

@[simp] theorem clockLeaderEffect_kept (p : ClockLeaderP) (s : State) :
    (clockLeaderEffect p s).st.pending = s.pending ∧ (clockLeaderEffect p s).st.dram = s.dram := by
  unfold clockLeaderEffect; simp

theorem execClockLeader_kept (h : Hdr) (p : ClockLeaderP) (s : State) :
    nextGet (execClockLeader h p s) State.kept = some s.kept := by
  unfold execClockLeader; simp

@[simp] theorem houseRateRefused_kept (h : Hdr) (rate : Nat) (st : Status) (s : State) :
    (houseRateRefused h rate st s).pending = s.pending ∧ (houseRateRefused h rate st s).dram = s.dram := by
  unfold houseRateRefused; simp

@[simp] theorem aoutFactors_kept (s : State) (tgt : Rat) (n : Nat) :
    (State.aoutFactors s tgt n).pending = s.pending ∧ (State.aoutFactors s tgt n).dram = s.dram := by
  unfold State.aoutFactors; simp

@[simp] theorem stateFactors_kept (s : State) (tgt : Rat) (n : Nat) :
    (State.stateFactors s tgt n).pending = s.pending ∧ (State.stateFactors s tgt n).dram = s.dram := by
  unfold State.stateFactors; simp

@[simp] theorem houseRateEffect_kept (h : Hdr) (rate : Nat) (s : State) :
    (houseRateEffect h rate s).st.pending = s.pending ∧ (houseRateEffect h rate s).st.dram = s.dram := by
  unfold houseRateEffect; simp

theorem execHouseRate_kept (h : Hdr) (rate : Nat) (s : State) :
    nextGet (execHouseRate h rate s) State.kept = some s.kept := by
  unfold execHouseRate; simp

@[simp] theorem enginesClear_kept (s : State) :
    (State.enginesClear s).pending = s.pending ∧ (State.enginesClear s).dram = s.dram := by
  unfold State.enginesClear; simp

theorem execRateChangeStop_kept (dt : DT) (s : State) :
    nextGet (execRateChangeStop dt s) State.kept = some s.kept := by
  unfold execRateChangeStop
  try simp
  repeat' ((first | split | (intro; split)) <;> try simp)

theorem execRateChangeResume_kept (dt : DT) (s : State) :
    nextGet (execRateChangeResume dt s) State.kept = some s.kept := by
  unfold execRateChangeResume
  try simp
  repeat' ((first | split | (intro; split)) <;> try simp)

theorem execHousePllLock_kept (dt : DT) (s : State) :
    nextGet (execHousePllLock dt s) State.kept = some s.kept := by
  unfold execHousePllLock
  try simp
  repeat' ((first | split | (intro; split)) <;> try simp)

@[simp] theorem setGrove_kept (s : State) (g : Nat) (x : GroveSt) :
    (State.setGrove s g x).pending = s.pending ∧ (State.setGrove s g x).dram = s.dram := by
  unfold State.setGrove; simp

@[simp] theorem groveTick_kept (s : State) (m : Member) (missing : Bool) :
    (State.groveTick s m missing).pending = s.pending ∧ (State.groveTick s m missing).dram = s.dram := by
  unfold State.groveTick
  repeat' split
  all_goals simp

@[simp] theorem sapFault_kept (s : State) (k i : Nat) :
    (State.sapFault s k i).pending = s.pending ∧ (State.sapFault s k i).dram = s.dram := by
  unfold State.sapFault; simp

@[simp] theorem sapSetEffect_kept (p : SapSetP) (s : State) :
    (sapSetEffect p s).st.pending = s.pending ∧ (sapSetEffect p s).st.dram = s.dram := by
  unfold sapSetEffect; simp

theorem execSapSet_kept (h : Hdr) (p : SapSetP) (s : State) :
    nextGet (execSapSet h p s) State.kept = some s.kept := by
  unfold execSapSet; simp

theorem execSapSeqApply_kept (port dir : Nat) (s : State) :
    nextGet (execSapSeqApply port dir s) State.kept = some s.kept := by
  unfold execSapSeqApply
  try simp
  repeat' ((first | split | (intro; split)) <;> try simp)

theorem execSapLock_kept (port dir : Nat) (s : State) :
    nextGet (execSapLock port dir s) State.kept = some s.kept := by
  unfold execSapLock
  try simp
  repeat' ((first | split | (intro; split)) <;> try simp)

theorem execAsrcLock_kept (user : Member) (rate : Word) (s : State) :
    nextGet (execAsrcLock user rate s) State.kept = some s.kept := by
  unfold execAsrcLock
  repeat' split
  all_goals simp

@[simp] theorem sapGlitch_kept (s : State) (k bclks : Nat) :
    (State.sapGlitch s k bclks).pending = s.pending ∧ (State.sapGlitch s k bclks).dram = s.dram := by
  unfold State.sapGlitch; simp

theorem execSapFrameRx_kept (port : Nat) (edge : DT) (bclks : Nat) (line : List SapBit) (s : State) :
    nextGet (execSapFrameRx port edge bclks line s) State.kept = some s.kept := by
  unfold execSapFrameRx
  try simp
  repeat' ((first | split | (intro; split)) <;> try simp)

@[simp] theorem txZeros_kept (s : State) (k : Nat) (x : SapDir) :
    (State.txZeros s k x).pending = s.pending ∧ (State.txZeros s k x).dram = s.dram := by
  unfold State.txZeros; simp

@[simp] theorem txValue_kept (s : State) (k : Nat) (x : SapDir) (edge : DT) (t : TS) :
    (State.txValue s k x edge t).pending = s.pending ∧ (State.txValue s k x edge t).dram = s.dram := by
  unfold State.txValue
  try simp
  repeat' ((first | split | (intro; split)) <;> try simp)

theorem execSapFrameTx_kept (port : Nat) (edge : DT) (bclks : Nat) (s : State) :
    nextGet (execSapFrameTx port edge bclks s) State.kept = some s.kept := by
  unfold execSapFrameTx
  try simp
  repeat' ((first | split | (intro; split)) <;> try simp)

theorem execSapClkLoss_kept (port dir : Nat) (dt : DT) (s : State) :
    nextGet (execSapClkLoss port dir dt s) State.kept = some s.kept := by
  unfold execSapClkLoss; simp

theorem execSapClkReturn_kept (port dir : Nat) (dt : DT) (s : State) :
    nextGet (execSapClkReturn port dir dt s) State.kept = some s.kept := by
  unfold execSapClkReturn
  try simp
  repeat' ((first | split | (intro; split)) <;> try simp)

theorem execSapRateJump_kept (port dir : Nat) (rate : Word) (dt : DT) (s : State) :
    nextGet (execSapRateJump port dir rate dt s) State.kept = some s.kept := by
  unfold execSapRateJump; simp

theorem execSapRateMeasure_kept (port dir spanNs : Nat) (s : State) :
    nextGet (execSapRateMeasure port dir spanNs s) State.kept = some s.kept := by
  unfold execSapRateMeasure
  try simp
  repeat' ((first | split | (intro; split)) <;> try simp)

@[simp] theorem sapRequests_kept (s : State) (k : Nat) :
    (State.sapRequests s k).pending = s.pending ∧ (State.sapRequests s k).dram = s.dram := by
  unfold State.sapRequests
  try simp
  repeat' ((first | split | (intro; split)) <;> try simp)

@[simp] theorem sapResume_kept (s : State) (k : Nat) :
    (State.sapResume s k).pending = s.pending ∧ (State.sapResume s k).dram = s.dram := by
  unfold State.sapResume; simp

@[simp] theorem sapSlip_kept (s : State) (k : Nat) :
    (State.sapSlip s k).pending = s.pending ∧ (State.sapSlip s k).dram = s.dram := by
  unfold State.sapSlip; simp

@[simp] theorem sapRead_kept (s : State) (k : Nat) :
    (State.sapRead s k).pending = s.pending ∧ (State.sapRead s k).dram = s.dram := by
  unfold State.sapRead
  try simp
  repeat' ((first | split | (intro; split)) <;> try simp)

@[simp] theorem sapWrite_kept (s : State) (k : Nat) :
    (State.sapWrite s k).pending = s.pending ∧ (State.sapWrite s k).dram = s.dram := by
  unfold State.sapWrite; simp

@[simp] theorem sapRamps_kept (s : State) (k : Nat) :
    (State.sapRamps s k).pending = s.pending ∧ (State.sapRamps s k).dram = s.dram := by
  unfold State.sapRamps; simp

@[simp] theorem sapTxMiss_kept (s : State) (k : Nat) :
    (State.sapTxMiss s k).pending = s.pending ∧ (State.sapTxMiss s k).dram = s.dram := by
  unfold State.sapTxMiss; simp

@[simp] theorem sapMeasure_kept (s : State) (k : Nat) :
    (State.sapMeasure s k).pending = s.pending ∧ (State.sapMeasure s k).dram = s.dram := by
  unfold State.sapMeasure; simp

@[simp] theorem sapTick_kept (s : State) :
    (State.sapTick s).pending = s.pending ∧ (State.sapTick s).dram = s.dram := by
  unfold State.sapTick; simp

@[simp] theorem sapFirst_kept (s : State) :
    (State.sapFirst s).pending = s.pending ∧ (State.sapFirst s).dram = s.dram := by
  unfold State.sapFirst; simp

@[simp] theorem ctxCommit_kept (s : State) (l : List Nat) :
    (State.ctxCommit s l).pending = s.pending ∧ (State.ctxCommit s l).dram = s.dram := by
  unfold State.ctxCommit; simp

@[simp] theorem streamNoted_kept (s : State) (h : Hdr) (opcode : Nat) (l : List Nat) (st : Status) :
    (State.streamNoted s h opcode l st).pending = s.pending ∧ (State.streamNoted s h opcode l st).dram = s.dram := by
  unfold State.streamNoted; simp

@[simp] theorem streamCtrlRefused_kept (h : Hdr) (p : StreamCtrlP) (st : Status) (s : State) :
    (streamCtrlRefused h p st s).pending = s.pending ∧ (streamCtrlRefused h p st s).dram = s.dram := by
  unfold streamCtrlRefused; simp

@[simp] theorem ctxStart_kept (s : State) (n : Nat) :
    (State.ctxStart s n).pending = s.pending ∧ (State.ctxStart s n).dram = s.dram := by
  unfold State.ctxStart; simp

@[simp] theorem ctxStop_kept (s : State) (n : Nat) :
    (State.ctxStop s n).pending = s.pending ∧ (State.ctxStop s n).dram = s.dram := by
  unfold State.ctxStop; simp

@[simp] theorem streamCtrlEffect_kept (h : Hdr) (p : StreamCtrlP) (s : State) :
    (streamCtrlEffect h p s).st.pending = s.pending ∧ (streamCtrlEffect h p s).st.dram = s.dram := by
  unfold streamCtrlEffect
  repeat' split
  all_goals simp

theorem execStreamCtrl_kept (h : Hdr) (p : StreamCtrlP) (s : State) :
    nextGet (execStreamCtrl h p s) State.kept = some s.kept := by
  unfold execStreamCtrl; simp

@[simp] theorem streamWaits_kept (s : State) :
    (State.streamWaits s).pending = s.pending ∧ (State.streamWaits s).dram = s.dram := by
  unfold State.streamWaits
  try simp
  repeat' ((first | split | (intro; split)) <;> try simp)
  all_goals (first | (intros; simp; done) | skip)
  all_goals (first | done | (constructor <;> first | (apply foldl_pending; intro s a; repeat' (split <;> try simp)) | (apply foldl_dram; intro s a; repeat' (split <;> try simp))))

@[simp] theorem placeFrame_kept (s : State) (n : Nat) (t : TS) (v : List Int) :
    (State.placeFrame s n t v).pending = s.pending ∧ (State.placeFrame s n t v).dram = s.dram := by
  unfold State.placeFrame; simp

@[simp] theorem placeFrames_pending (s : State) (n rate fmt : Nat) (l : List (List Word)) (i : Nat) (t : TS) (p : Int) :
    (s.placeFrames n rate fmt l i t p).pending = s.pending := by
  induction l generalizing s i t with
  | nil => rfl
  | cons v r ih => unfold State.placeFrames; rw [ih]; simp

@[simp] theorem placeFrames_dram (s : State) (n rate fmt : Nat) (l : List (List Word)) (i : Nat) (t : TS) (p : Int) :
    (s.placeFrames n rate fmt l i t p).dram = s.dram := by
  induction l generalizing s i t with
  | nil => rfl
  | cons v r ih => unfold State.placeFrames; rw [ih]; simp

@[simp] theorem packetFirst_pending (s : State) (n : Nat) (k : Packet) (p : Int) : (s.packetFirst n k p).pending = s.pending := by
  unfold State.packetFirst; simp

@[simp] theorem packetFirst_dram (s : State) (n : Nat) (k : Packet) (p : Int) : (s.packetFirst n k p).dram = s.dram := by
  unfold State.packetFirst; simp

@[simp] theorem ctxOnline_kept (s : State) (n : Nat) (dt : DT) :
    (State.ctxOnline s n dt).pending = s.pending ∧ (State.ctxOnline s n dt).dram = s.dram := by
  unfold State.ctxOnline
  try simp
  repeat' ((first | split | (intro; split)) <;> try simp)

@[simp] theorem addEdges_kept (s : State) (n : Nat) (l : List Int) :
    (State.addEdges s n l).pending = s.pending ∧ (State.addEdges s n l).dram = s.dram := by
  unfold State.addEdges; simp

@[simp] theorem aafPacket_kept (s : State) (n : Nat) (k : Packet) :
    (State.aafPacket s n k).pending = s.pending ∧ (State.aafPacket s n k).dram = s.dram := by
  unfold State.aafPacket
  try simp
  repeat' ((first | split | (intro; split)) <;> try simp)

@[simp] theorem nrxPass_kept (s : State) (n : Nat) :
    (State.nrxPass s n).pending = s.pending ∧ (State.nrxPass s n).dram = s.dram := by
  unfold State.nrxPass; simp

@[simp] theorem nrxFrame_kept (s : State) (k : Packet) :
    (State.nrxFrame s k).pending = s.pending ∧ (State.nrxFrame s k).dram = s.dram := by
  unfold State.nrxFrame
  try simp
  repeat' ((first | split | (intro; split)) <;> try simp)

@[simp] theorem aafEdge_kept (s : State) (n : Nat) :
    (State.aafEdge s n).pending = s.pending ∧ (State.aafEdge s n).dram = s.dram := by
  unfold State.aafEdge
  repeat' split
  all_goals simp

theorem execNetPacketRx_kept (k : Packet) (s : State) :
    nextGet (execNetPacketRx k s) State.kept = some s.kept := by
  unfold execNetPacketRx
  try simp
  repeat' ((first | split | (intro; split)) <;> try simp)
  all_goals (first | done | (intros; simp; done) | (apply foldl_pending; intro s a; repeat' (split <;> try simp)))

theorem execNetRealign_kept (n : Nat) (s : State) :
    nextGet (execNetRealign n s) State.kept = some s.kept := by
  unfold execNetRealign
  try simp
  repeat' ((first | split | (intro; split)) <;> try simp)

theorem execNetStreamLoss_kept (n : Nat) (dt : DT) (s : State) :
    nextGet (execNetStreamLoss n dt s) State.kept = some s.kept := by
  unfold execNetStreamLoss; simp

@[simp] theorem ctxBoundary_kept (s : State) (n : Nat) :
    (State.ctxBoundary s n).pending = s.pending ∧ (State.ctxBoundary s n).dram = s.dram := by
  unfold State.ctxBoundary; simp

@[simp] theorem ctxRead_kept (s : State) (n : Nat) :
    (State.ctxRead s n).pending = s.pending ∧ (State.ctxRead s n).dram = s.dram := by
  unfold State.ctxRead; simp

@[simp] theorem txDrop_kept (s : State) (mac : Nat) :
    (State.txDrop s mac).pending = s.pending ∧ (State.txDrop s mac).dram = s.dram := by
  unfold State.txDrop; simp

@[simp] theorem talkerTick_kept (s : State) (n : Nat) :
    (State.talkerTick s n).pending = s.pending ∧ (State.talkerTick s n).dram = s.dram := by
  unfold State.talkerTick; simp

@[simp] theorem netTick_kept (s : State) :
    (State.netTick s).pending = s.pending ∧ (State.netTick s).dram = s.dram := by
  unfold State.netTick; simp

@[simp] theorem netClose_kept (s : State) :
    (State.netClose s).pending = s.pending ∧ (State.netClose s).dram = s.dram := by
  unfold State.netClose; simp

@[simp] theorem runData_pending (s : State) (h : Hdr) (op type : Nat) (v k : Bool) (pass work : State → State)
    (h1 : ∀ s, (pass s).pending = s.pending) (h2 : ∀ s, (work s).pending = s.pending) : (s.runData h op type v k pass work).pending = s.pending := by
  unfold State.runData; simp [h1, h2]

@[simp] theorem runData_dram (s : State) (h : Hdr) (op type : Nat) (v k : Bool) (pass work : State → State)
    (h1 : ∀ s, (pass s).dram = s.dram) (h2 : ∀ s, (work s).dram = s.dram) : (s.runData h op type v k pass work).dram = s.dram := by
  unfold State.runData; simp [h1, h2]

@[simp] theorem ntxTake_kept (s : State) (h : Hdr) (p : NtxP) :
    (State.ntxTake s h p).pending = s.pending ∧ (State.ntxTake s h p).dram = s.dram := by
  unfold State.ntxTake; simp

@[simp] theorem nrxTake_kept (s : State) (h : Hdr) (p : NrxP) :
    (State.nrxTake s h p).pending = s.pending ∧ (State.nrxTake s h p).dram = s.dram := by
  unfold State.nrxTake; simp

theorem execNtxFrame_kept (h : Hdr) (p : NtxP) (s : State) :
    nextGet (execNtxFrame h p s) State.kept = some s.kept := by
  unfold execNtxFrame; simp

theorem execNrxBuf_kept (h : Hdr) (p : NrxP) (s : State) :
    nextGet (execNrxBuf h p s) State.kept = some s.kept := by
  unfold execNrxBuf; simp

theorem execNtxEgress_kept (ring : Nat) (dt : DT) (s : State) :
    nextGet (execNtxEgress ring dt s) State.kept = some s.kept := by
  unfold execNtxEgress
  try simp
  repeat' ((first | split | (intro; split)) <;> try simp)

@[simp] theorem ntxFlush_kept (s : State) (mac : Nat) :
    (State.ntxFlush s mac).pending = s.pending ∧ (State.ntxFlush s mac).dram = s.dram := by
  unfold State.ntxFlush; simp

@[simp] theorem linkSpeed_kept (s : State) (mac speed : Nat) :
    (State.linkSpeed s mac speed).pending = s.pending ∧ (State.linkSpeed s mac speed).dram = s.dram := by
  unfold State.linkSpeed; simp

theorem execNetLinkUp_kept (mac speed : Nat) (s : State) :
    nextGet (execNetLinkUp mac speed s) State.kept = some s.kept := by
  unfold execNetLinkUp; simp

theorem execNetLinkDown_kept (mac : Nat) (s : State) :
    nextGet (execNetLinkDown mac s) State.kept = some s.kept := by
  unfold execNetLinkDown; simp

theorem execMdioLinkMonitor_kept (mac speed : Nat) (s : State) :
    nextGet (execMdioLinkMonitor mac speed s) State.kept = some s.kept := by
  unfold execMdioLinkMonitor; simp

theorem execNetPhyInt_kept (mac : Nat) (dt : DT) (s : State) :
    nextGet (execNetPhyInt mac dt s) State.kept = some s.kept := by
  unfold execNetPhyInt
  repeat' split
  all_goals simp

theorem execMdioDone_kept (data : BitVec 16) (s : State) :
    nextGet (execMdioDone data s) State.kept = some s.kept := by
  unfold execMdioDone; simp

@[simp] theorem apCtx_kept (s : State) (off : Nat) (w : Word) :
    (State.apCtx s off w).pending = s.pending ∧ (State.apCtx s off w).dram = s.dram := by
  unfold State.apCtx; simp

@[simp] theorem groveSetEffect_kept (p : GroveSetP) (s : State) :
    (groveSetEffect p s).st.pending = s.pending ∧ (groveSetEffect p s).st.dram = s.dram := by
  unfold groveSetEffect; simp

theorem execGroveSet_kept (h : Hdr) (p : GroveSetP) (s : State) :
    nextGet (execGroveSet h p s) State.kept = some s.kept := by
  unfold execGroveSet; simp

@[simp] theorem dirRise_kept (s : State) (k : Nat) :
    (State.dirRise s k).pending = s.pending ∧ (State.dirRise s k).dram = s.dram := by
  unfold State.dirRise; simp

@[simp] theorem groveStartRefused_kept (h : Hdr) (g : Nat) (st : Status) (s : State) :
    (groveStartRefused h g st s).pending = s.pending ∧ (groveStartRefused h g st s).dram = s.dram := by
  unfold groveStartRefused; simp

@[simp] theorem groveStartEffect_kept (g : Nat) (s : State) :
    (groveStartEffect g s).st.pending = s.pending ∧ (groveStartEffect g s).st.dram = s.dram := by
  unfold groveStartEffect
  try simp
  repeat' ((first | split | (intro; split)) <;> try simp)
  all_goals (first | (intros; simp; done) | skip)
  all_goals (first | done | (constructor <;> first | (apply foldl_pending; intro s a; repeat' (split <;> try simp)) | (apply foldl_dram; intro s a; repeat' (split <;> try simp))))

theorem execGroveStart_kept (h : Hdr) (g : Nat) (s : State) :
    nextGet (execGroveStart h g s) State.kept = some s.kept := by
  unfold execGroveStart; simp

@[simp] theorem groveStopEffect_kept (g : Nat) (s : State) :
    (groveStopEffect g s).st.pending = s.pending ∧ (groveStopEffect g s).st.dram = s.dram := by
  unfold groveStopEffect
  try simp
  repeat' ((first | split | (intro; split)) <;> try simp)
  all_goals (first | (intros; simp; done) | skip)
  all_goals (first | done | (constructor <;> first | (apply foldl_pending; intro s a; repeat' (split <;> try simp)) | (apply foldl_dram; intro s a; repeat' (split <;> try simp))))

theorem execGroveStop_kept (h : Hdr) (g : Nat) (s : State) :
    nextGet (execGroveStop h g s) State.kept = some s.kept := by
  unfold execGroveStop; simp

theorem execGroveMemberJoin_kept (g : Nat) (m : Member) (s : State) :
    nextGet (execGroveMemberJoin g m s) State.kept = some s.kept := by
  unfold execGroveMemberJoin
  repeat' split
  all_goals simp

@[simp] theorem groveEnds_kept (s : State) :
    (State.groveEnds s).pending = s.pending ∧ (State.groveEnds s).dram = s.dram := by
  unfold State.groveEnds
  try simp
  repeat' ((first | split | (intro; split)) <;> try simp)
  all_goals (first | (intros; simp; done) | skip)
  all_goals (first | done | (constructor <;> first | (apply foldl_pending; intro s a; repeat' (split <;> try simp)) | (apply foldl_dram; intro s a; repeat' (split <;> try simp))))

@[simp] theorem evtLost_kept (s : State) (r : Rec) (dt : DT) :
    (State.evtLost s r dt).pending = s.pending ∧ (State.evtLost s r dt).dram = s.dram := by
  unfold State.evtLost; simp

@[simp] theorem logAlert_kept (s : State) (e : Ev) :
    (State.logAlert s e).pending = s.pending ∧ (State.logAlert s e).dram = s.dram := by
  unfold State.logAlert; simp

@[simp] theorem committed_kept (s : State) (seq : Word) (e : Ev) (dt : DT) :
    (State.committed s seq e dt).pending = s.pending ∧ (State.committed s seq e dt).dram = s.dram := by
  unfold State.committed; simp

theorem placeRec_pending (s t : State) (q : Word) (e : Ev) (dt : DT) (h : s.placeRec q e dt = some t) : t.pending = s.pending := by
  unfold State.placeRec at h
  dsimp only at h
  split at h
  · cases h; simp
  · split at h
    · cases h; simp
    · cases h

theorem placeRec_dram (s t : State) (q : Word) (e : Ev) (dt : DT) (h : s.placeRec q e dt = some t) : t.dram = s.dram := by
  unfold State.placeRec at h
  dsimp only at h
  split at h
  · cases h; simp
  · split at h
    · cases h; simp
    · cases h

@[simp] theorem commitOne_pending (s : State) (e : Ev) (dt : DT) : (s.commitOne e dt).pending = s.pending := by
  unfold State.commitOne
  split
  · rename_i t h; simp [placeRec_pending _ _ _ _ _ h]
  · simp

@[simp] theorem commitOne_dram (s : State) (e : Ev) (dt : DT) : (s.commitOne e dt).dram = s.dram := by
  unfold State.commitOne
  split
  · rename_i t h; simp [placeRec_dram _ _ _ _ _ h]
  · simp

@[simp] theorem blzStep_pending (s : State) (dt : DT) : (s.blzStep dt).pending = s.pending := by
  unfold State.blzStep
  split
  · rfl
  · split
    · simp
    · dsimp only
      have hs : ∀ o : Option (Nat × Ev), (match o with
          | some (src, e) =>
            State.commitOne { s with blz := { s.blz with queues := smUpd s.blz.queues src [] List.tail } } e dt
          | none => s).pending = s.pending := by intro o; cases o <;> simp
      split
      · split
        · rename_i h; simp [placeRec_pending _ _ _ _ _ h]
        · exact hs _
      · exact hs _

@[simp] theorem blzStep_dram (s : State) (dt : DT) : (s.blzStep dt).dram = s.dram := by
  unfold State.blzStep
  split
  · rfl
  · split
    · simp
    · dsimp only
      have hs : ∀ o : Option (Nat × Ev), (match o with
          | some (src, e) =>
            State.commitOne { s with blz := { s.blz with queues := smUpd s.blz.queues src [] List.tail } } e dt
          | none => s).dram = s.dram := by intro o; cases o <;> simp
      split
      · split
        · rename_i h; simp [placeRec_dram _ _ _ _ _ h]
        · exact hs _
      · exact hs _

theorem execBlzCommit_kept (dt : DT) (s : State) :
    nextGet (execBlzCommit dt s) State.kept = some s.kept := by
  unfold execBlzCommit; simp

theorem execBlzSealWrite_pending (dt : DT) (s : State) : nextGet (execBlzSealWrite dt s) State.pending = some s.pending := by
  unfold execBlzSealWrite
  dsimp only
  split
  · simp
  · simp
  · rw [nextGet_next]
    split
    · rename_i h; simp [placeRec_pending _ _ _ _ _ h]
    · simp

theorem execBlzSealWrite_dram (dt : DT) (s : State) : nextGet (execBlzSealWrite dt s) State.dram = some s.dram := by
  unfold execBlzSealWrite
  dsimp only
  split
  · simp
  · simp
  · rw [nextGet_next]
    split
    · rename_i h; simp [placeRec_dram _ _ _ _ _ h]
    · simp

@[simp] theorem blzMarkEffect_kept (p : BlzMarkP) (s : State) :
    (blzMarkEffect p s).st.pending = s.pending ∧ (blzMarkEffect p s).st.dram = s.dram := by
  unfold blzMarkEffect; simp

theorem execBlzMark_kept (h : Hdr) (p : BlzMarkP) (s : State) :
    nextGet (execBlzMark h p s) State.kept = some s.kept := by
  unfold execBlzMark; simp

theorem execRateLimitSecondEnd_kept (code key : Nat) (dt : DT) (s : State) :
    nextGet (execRateLimitSecondEnd code key dt s) State.kept = some s.kept := by
  unfold execRateLimitSecondEnd; simp

@[simp] theorem blzFree_kept (s : State) (seq : Word) :
    (State.blzFree s seq).pending = s.pending ∧ (State.blzFree s seq).dram = s.dram := by
  unfold State.blzFree; simp

@[simp] theorem blzSelect_kept (s : State) (seq : Word) :
    (State.blzSelect s seq).pending = s.pending ∧ (State.blzSelect s seq).dram = s.dram := by
  unfold State.blzSelect; simp

@[simp] theorem drainSet_kept (s : State) (v : Word) :
    (State.drainSet s v).pending = s.pending ∧ (State.drainSet s v).dram = s.dram := by
  unfold State.drainSet; simp

@[simp] theorem drainN_pending (s : State) (r n : Nat) : (s.drainN r n).pending = s.pending := by
  induction n generalizing s with
  | zero => rfl
  | succ n ih =>
    unfold State.drainN
    split
    · rfl
    · simp only [pending_ite, ih]; simp

@[simp] theorem drainN_dram (s : State) (r n : Nat) : (s.drainN r n).dram = s.dram := by
  induction n generalizing s with
  | zero => rfl
  | succ n ih =>
    unfold State.drainN
    split
    · rfl
    · simp only [dram_ite, ih]; simp

@[simp] theorem drain_pending (s : State) : (s.drain).pending = s.pending := by
  unfold State.drain; simp

@[simp] theorem drain_dram (s : State) : (s.drain).dram = s.dram := by
  unfold State.drain; simp

@[simp] theorem ringTry_kept (s : State) (n : Nat) :
    (State.ringTry s n).pending = s.pending ∧ (State.ringTry s n).dram = s.dram := by
  unfold State.ringTry
  repeat' split
  all_goals simp

@[simp] theorem ringChecks_kept (s : State) :
    (State.ringChecks s).pending = s.pending ∧ (State.ringChecks s).dram = s.dram := by
  unfold State.ringChecks; simp

@[simp] theorem ringCfgWrite_kept (s : State) (n : Nat) (v : Word) :
    (State.ringCfgWrite s n v).pending = s.pending ∧ (State.ringCfgWrite s n v).dram = s.dram := by
  unfold State.ringCfgWrite; simp

@[simp] theorem streamEnd_kept (s : State) (d : StreamDesc) (st : Status) :
    (State.streamEnd s d st).pending = s.pending ∧ (State.streamEnd s d st).dram = s.dram := by
  unfold State.streamEnd; simp

@[simp] theorem streamPass_kept (s : State) (n : Nat) :
    (State.streamPass s n).pending = s.pending ∧ (State.streamPass s n).dram = s.dram := by
  unfold State.streamPass; simp

@[simp] theorem streamFinish_kept (s : State) (n : Nat) (f : StreamDesc → Bool) (st : Status) :
    (State.streamFinish s n f st).pending = s.pending ∧ (State.streamFinish s n f st).dram = s.dram := by
  unfold State.streamFinish
  repeat' split
  all_goals simp

@[simp] theorem streamUpd_kept (s : State) (n : Nat) (d d' : StreamDesc) :
    (State.streamUpd s n d d').pending = s.pending ∧ (State.streamUpd s n d d').dram = s.dram := by
  unfold State.streamUpd; simp

@[simp] theorem streamTake_kept (s : State) (h : Hdr) (p : HostDataP) (opcode type lead : Nat) (write : Bool) :
    (State.streamTake s h p opcode type lead write).pending = s.pending ∧ (State.streamTake s h p opcode type lead write).dram = s.dram := by
  unfold State.streamTake
  try simp
  repeat' ((first | split | (intro; split)) <;> try simp)

theorem execHpbData_kept (h : Hdr) (p : HostDataP) (s : State) :
    nextGet (execHpbData h p s) State.kept = some s.kept := by
  unfold execHpbData; simp

theorem execHcpData_kept (h : Hdr) (p : HostDataP) (s : State) :
    nextGet (execHcpData h p s) State.kept = some s.kept := by
  unfold execHcpData; simp

@[simp] theorem hpbRead_kept (s : State) (n : Nat) (frames : List (List (List Word))) :
    (State.hpbRead s n frames).pending = s.pending ∧ (State.hpbRead s n frames).dram = s.dram := by
  unfold State.hpbRead
  repeat' split
  all_goals simp

@[simp] theorem hpbPut_kept (s : State) (n tag fill : Nat) (v : List Word) :
    (State.hpbPut s n tag fill v).pending = s.pending ∧ (State.hpbPut s n tag fill v).dram = s.dram := by
  unfold State.hpbPut; simp

@[simp] theorem hpbFall_kept (s : State) (n : Nat) :
    (State.hpbFall s n).pending = s.pending ∧ (State.hpbFall s n).dram = s.dram := by
  unfold State.hpbFall; simp

@[simp] theorem hpbTick_kept (s : State) (n : Nat) :
    (State.hpbTick s n).pending = s.pending ∧ (State.hpbTick s n).dram = s.dram := by
  unfold State.hpbTick
  try simp
  repeat' ((first | split | (intro; split)) <;> try simp)

@[simp] theorem hcpTick_kept (s : State) (n : Nat) :
    (State.hcpTick s n).pending = s.pending ∧ (State.hcpTick s n).dram = s.dram := by
  unfold State.hcpTick
  try simp
  repeat' ((first | split | (intro; split)) <;> try simp)

@[simp] theorem blkPass_kept (s : State) (n : Nat) :
    (State.blkPass s n).pending = s.pending ∧ (State.blkPass s n).dram = s.dram := by
  unfold State.blkPass; simp

@[simp] theorem blkTake_kept (s : State) (h : Hdr) (p : BlkP) (opcode : Nat) :
    (State.blkTake s h p opcode).pending = s.pending ∧ (State.blkTake s h p opcode).dram = s.dram := by
  unfold State.blkTake; simp

theorem execBlkLoad_kept (h : Hdr) (p : BlkP) (s : State) :
    nextGet (execBlkLoad h p s) State.kept = some s.kept := by
  unfold execBlkLoad; simp

theorem execBlkUnload_kept (h : Hdr) (p : BlkP) (s : State) :
    nextGet (execBlkUnload h p s) State.kept = some s.kept := by
  unfold execBlkUnload; simp

theorem execBlkFill_kept (h : Hdr) (p : BlkP) (s : State) :
    nextGet (execBlkFill h p s) State.kept = some s.kept := by
  unfold execBlkFill; simp

@[simp] theorem blkEnd_kept (s : State) (n : Nat) (b : BlkXfer) (st : Status) (moved corrected : Nat) :
    (State.blkEnd s n b st moved corrected).pending = s.pending ∧ (State.blkEnd s n b st moved corrected).dram = s.dram := by
  unfold State.blkEnd; simp

@[simp] theorem blkGo_pending (s : State) (n k : Nat) : (s.blkGo n k).pending = s.pending := by
  induction k generalizing s with
  | zero => rfl
  | succ k ih =>
    unfold State.blkGo
    split
    · rfl
    · split
      · rfl
      · split
        · simp
        · rw [ih]; simp

@[simp] theorem blkGo_dram (s : State) (n k : Nat) : (s.blkGo n k).dram = s.dram := by
  induction k generalizing s with
  | zero => rfl
  | succ k ih =>
    unfold State.blkGo
    split
    · rfl
    · split
      · rfl
      · split
        · simp
        · rw [ih]; simp

@[simp] theorem blkStarts_pending (s : State) : (s.blkStarts).pending = s.pending := by
  unfold State.blkStarts; simp

@[simp] theorem blkStarts_dram (s : State) : (s.blkStarts).dram = s.dram := by
  unfold State.blkStarts; simp

@[simp] theorem blkWrite_pending (s : State) (b : BlkXfer) (moved : Nat) (data : List Byte) :
    (State.blkWrite s b moved data).pending = s.pending := by
  unfold State.blkWrite
  repeat' split
  all_goals simp

@[simp] theorem blkLost_pending (s : State) (n moved : Nat) (data : List Byte) :
    (State.blkLost s n moved data).pending = s.pending := by
  unfold State.blkLost
  repeat' split
  all_goals simp

theorem execBlkTransferEnd_pending (n moved corrected : Nat) (data : List Byte) (s : State) :
    nextGet (execBlkTransferEnd n moved corrected data s) State.pending = some s.pending := by
  unfold execBlkTransferEnd
  repeat' split
  all_goals simp

@[simp] theorem dbLate_kept (s : State) :
    (State.dbLate s).pending = s.pending ∧ (State.dbLate s).dram = s.dram := by
  unfold State.dbLate; simp

@[simp] theorem dbFetch_kept (s : State) :
    (State.dbFetch s).pending = s.pending ∧ (State.dbFetch s).dram = s.dram := by
  unfold State.dbFetch; simp

@[simp] theorem dbEntry_kept (s : State) (n v : Nat) :
    (State.dbEntry s n v).pending = s.pending ∧ (State.dbEntry s n v).dram = s.dram := by
  unfold State.dbEntry; simp

theorem execDoorbellReturn_kept (page : List (Nat × Nat)) (s : State) :
    nextGet (execDoorbellReturn page s) State.kept = some s.kept := by
  unfold execDoorbellReturn; simp

theorem execDoorbellLate_kept (dt : DT) (s : State) :
    nextGet (execDoorbellLate dt s) State.kept = some s.kept := by
  unfold execDoorbellLate; simp

@[simp] theorem cpWrite_kept (s : State) :
    (State.cpWrite s).pending = s.pending ∧ (State.cpWrite s).dram = s.dram := by
  unfold State.cpWrite; simp

@[simp] theorem msixRaise_kept (s : State) (v : Nat) :
    (State.msixRaise s v).pending = s.pending ∧ (State.msixRaise s v).dram = s.dram := by
  unfold State.msixRaise; simp

@[simp] theorem msixFlush_kept (s : State) :
    (State.msixFlush s).pending = s.pending ∧ (State.msixFlush s).dram = s.dram := by
  unfold State.msixFlush; simp

@[simp] theorem ringVec_kept (s : State) (n : Nat) :
    (State.ringVec s n).pending = s.pending ∧ (State.ringVec s n).dram = s.dram := by
  unfold State.ringVec; simp

@[simp] theorem msixTick_kept (s : State) :
    (State.msixTick s).pending = s.pending ∧ (State.msixTick s).dram = s.dram := by
  unfold State.msixTick; simp

@[simp] theorem abortWaits_kept (s : State) (n : Nat) :
    (State.abortWaits s n).pending = s.pending ∧ (State.abortWaits s n).dram = s.dram := by
  unfold State.abortWaits; simp

@[simp] theorem ringStop_kept (s : State) (n : Nat) :
    (State.ringStop s n).pending = s.pending ∧ (State.ringStop s n).dram = s.dram := by
  unfold State.ringStop; simp

@[simp] theorem ringsOpen_kept (s : State) :
    (State.ringsOpen s).pending = s.pending ∧ (State.ringsOpen s).dram = s.dram := by
  unfold State.ringsOpen; simp

theorem execHostDmaFail_pending (n moved : Nat) (ringMemory : Bool) (data : List Byte) (s : State) :
    nextGet (execHostDmaFail n moved ringMemory data s) State.pending = some s.pending := by
  unfold execHostDmaFail
  repeat' split
  all_goals simp

@[simp] theorem wbFlush_kept (s : State) :
    (State.wbFlush s).pending = s.pending ∧ (State.wbFlush s).dram = s.dram := by
  unfold State.wbFlush; simp

@[simp] theorem linkLost_kept (s : State) (why : Nat) (dt : DT) :
    (State.linkLost s why dt).pending = s.pending ∧ (State.linkLost s why dt).dram = s.dram := by
  unfold State.linkLost; simp

theorem execPcieLinkDown_kept (_l2 : Bool) (dt : DT) (s : State) :
    nextGet (execPcieLinkDown _l2 dt s) State.kept = some s.kept := by
  unfold execPcieLinkDown
  try simp
  repeat' ((first | split | (intro; split)) <;> try simp)

theorem execPcieLinkUp_kept (speed width : Nat) (dt : DT) (s : State) :
    nextGet (execPcieLinkUp speed width dt s) State.kept = some s.kept := by
  unfold execPcieLinkUp
  try simp
  repeat' ((first | split | (intro; split)) <;> try simp)

theorem execBusMasterDisable_kept (dt : DT) (s : State) :
    nextGet (execBusMasterDisable dt s) State.kept = some s.kept := by
  unfold execBusMasterDisable
  try simp
  repeat' ((first | split | (intro; split)) <;> try simp)

theorem execBusMasterEnable_kept (s : State) :
    nextGet (execBusMasterEnable s) State.kept = some s.kept := by
  unfold execBusMasterEnable; simp

@[simp] theorem hostReset_kept (s : State) :
    (State.hostReset s).pending = s.pending ∧ (State.hostReset s).dram = s.dram := by
  unfold State.hostReset; simp

theorem execPerstAssert_kept (dt : DT) (s : State) :
    nextGet (execPerstAssert dt s) State.kept = some s.kept := by
  unfold execPerstAssert
  try simp
  repeat' ((first | split | (intro; split)) <;> try simp)

theorem execPerstRelease_kept (dt : DT) (s : State) :
    nextGet (execPerstRelease dt s) State.kept = some s.kept := by
  unfold execPerstRelease
  try simp
  repeat' ((first | split | (intro; split)) <;> try simp)

theorem execBarAccessInGlade_kept (dt : DT) (s : State) :
    nextGet (execBarAccessInGlade dt s) State.kept = some s.kept := by
  unfold execBarAccessInGlade; simp

theorem execPcieL12Exit_kept (dt : DT) (s : State) :
    nextGet (execPcieL12Exit dt s) State.kept = some s.kept := by
  unfold execPcieL12Exit; simp

@[simp] theorem nudge_kept (s : State) (dt : DT) :
    (State.nudge s dt).pending = s.pending ∧ (State.nudge s dt).dram = s.dram := by
  unfold State.nudge
  repeat' split
  all_goals simp

theorem execHstNudge_kept (dt : DT) (s : State) :
    nextGet (execHstNudge dt s) State.kept = some s.kept := by
  unfold execHstNudge; simp

@[simp] theorem nopEffect_kept (k : TS) (s : State) :
    (nopEffect k s).st.pending = s.pending ∧ (nopEffect k s).st.dram = s.dram := by
  unfold nopEffect; simp

theorem execNop_kept (c : PickedHdr) (s : State) :
    nextGet (execNop c s) State.kept = some s.kept := by
  unfold execNop; simp

@[simp] theorem engineSave_kept (s : State) :
    (State.engineSave s).pending = s.pending ∧ (State.engineSave s).dram = s.dram := by
  unfold State.engineSave; simp

@[simp] theorem engineBack_kept (s : State) (e : Nat) :
    (State.engineBack s e).pending = s.pending ∧ (State.engineBack s e).dram = s.dram := by
  unfold State.engineBack
  repeat' split
  all_goals simp

theorem execBudgetOverrun_kept (engine : Nat) (s : State) :
    nextGet (execBudgetOverrun engine s) State.kept = some s.kept := by
  unfold execBudgetOverrun; simp

@[simp] theorem ledger1_kept (s : State) (e cost : Nat) :
    (State.ledger1 s e cost).pending = s.pending ∧ (State.ledger1 s e cost).dram = s.dram := by
  unfold State.ledger1
  try simp
  repeat' ((first | split | (intro; split)) <;> try simp)

@[simp] theorem ledger_kept (s : State) (costs : List Nat) :
    (State.ledger s costs).pending = s.pending ∧ (State.ledger s costs).dram = s.dram := by
  unfold State.ledger; simp

@[simp] theorem peakClear_kept (s : State) :
    (State.peakClear s).pending = s.pending ∧ (State.peakClear s).dram = s.dram := by
  unfold State.peakClear; simp

@[simp] theorem lsnReset_kept (s : State) (why : Nat) :
    (State.lsnReset s why).pending = s.pending ∧ (State.lsnReset s why).dram = s.dram := by
  unfold State.lsnReset; simp

@[simp] theorem lsnStart_kept (s : State) :
    (State.lsnStart s).pending = s.pending ∧ (State.lsnStart s).dram = s.dram := by
  unfold State.lsnStart; simp

@[simp] theorem lsnApply_kept (s : State) (old : Word) :
    (State.lsnApply s old).pending = s.pending ∧ (State.lsnApply s old).dram = s.dram := by
  unfold State.lsnApply; simp

@[simp] theorem lsnReport_pending (s : State) (start : DT) (len cls : Nat) (trunc woke : Bool) :
    (State.lsnReport s start len cls trunc woke).pending = s.pending := by
  unfold State.lsnReport
  dsimp only
  rw [foldl_pending _ _ _ (by intro s a; split <;> simp)]; simp

@[simp] theorem lsnReport_dram (s : State) (start : DT) (len cls : Nat) (trunc woke : Bool) :
    (State.lsnReport s start len cls trunc woke).dram = s.dram := by
  unfold State.lsnReport
  dsimp only
  rw [foldl_dram _ _ _ (by intro s a; split <;> simp)]; simp

@[simp] theorem lsnRunEnd_kept (s : State) (e : DT) :
    (State.lsnRunEnd s e).pending = s.pending ∧ (State.lsnRunEnd s e).dram = s.dram := by
  unfold State.lsnRunEnd
  repeat' split
  all_goals simp

@[simp] theorem lsnGate_kept (s : State) (active : Bool) (x : DT) (hop : Nat) :
    (State.lsnGate s active x hop).pending = s.pending ∧ (State.lsnGate s active x hop).dram = s.dram := by
  unfold State.lsnGate
  repeat' split
  all_goals simp

@[simp] theorem lsnOnset_kept (s : State) (x : HopVal) :
    (State.lsnOnset s x).pending = s.pending ∧ (State.lsnOnset s x).dram = s.dram := by
  unfold State.lsnOnset; simp

@[simp] theorem lsnPhraseHop_kept (s : State) (x : HopVal) :
    (State.lsnPhraseHop s x).pending = s.pending ∧ (State.lsnPhraseHop s x).dram = s.dram := by
  unfold State.lsnPhraseHop
  try simp
  repeat' ((first | split | (intro; split)) <;> try simp)

theorem execLsnHop_kept (x : HopIn) (s : State) :
    nextGet (execLsnHop x s) State.kept = some s.kept := by
  unfold execLsnHop
  try simp
  repeat' ((first | split | (intro; split)) <;> try simp)

theorem execPrerollBlock_kept (samples : List Word) (dt : DT) (s : State) :
    nextGet (execPrerollBlock samples dt s) State.kept = some s.kept := by
  unfold execPrerollBlock
  try simp
  repeat' ((first | split | (intro; split)) <;> try simp)

@[simp] theorem lsnSleep_kept (s : State) :
    (State.lsnSleep s).pending = s.pending ∧ (State.lsnSleep s).dram = s.dram := by
  unfold State.lsnSleep; simp

@[simp] theorem lsnAwake_kept (s : State) (dt : DT) :
    (State.lsnAwake s dt).pending = s.pending ∧ (State.lsnAwake s dt).dram = s.dram := by
  unfold State.lsnAwake; simp

theorem execLsnStop_kept (dt : DT) (s : State) :
    nextGet (execLsnStop dt s) State.kept = some s.kept := by
  unfold execLsnStop
  try simp
  repeat' ((first | split | (intro; split)) <;> try simp)

@[simp] theorem lsnSuspend_kept (s : State) (code : Nat) (dt : DT) :
    (State.lsnSuspend s code dt).pending = s.pending ∧ (State.lsnSuspend s code dt).dram = s.dram := by
  unfold State.lsnSuspend; simp

@[simp] theorem lsnResume_kept (s : State) (code : Nat) (dt : DT) :
    (State.lsnResume s code dt).pending = s.pending ∧ (State.lsnResume s code dt).dram = s.dram := by
  unfold State.lsnResume; simp

@[simp] theorem apLsn_kept (s : State) (off : Nat) (w : Word) :
    (State.apLsn s off w).pending = s.pending ∧ (State.apLsn s off w).dram = s.dram := by
  unfold State.apLsn; simp

@[simp] theorem listenSetEffect_kept (p : ListenSetP) (s : State) :
    (listenSetEffect p s).st.pending = s.pending ∧ (listenSetEffect p s).st.dram = s.dram := by
  unfold listenSetEffect; simp

theorem execListenSet_kept (h : Hdr) (p : ListenSetP) (s : State) :
    nextGet (execListenSet h p s) State.kept = some s.kept := by
  unfold execListenSet; simp

@[simp] theorem listenWaitEffect_kept (h : Hdr) (p : ListenWaitP) (s : State) :
    (listenWaitEffect h p s).st.pending = s.pending ∧ (listenWaitEffect h p s).st.dram = s.dram := by
  unfold listenWaitEffect; simp

theorem execListenWait_kept (h : Hdr) (p : ListenWaitP) (s : State) :
    nextGet (execListenWait h p s) State.kept = some s.kept := by
  unfold execListenWait; simp

@[simp] theorem prerollReadEffect_kept (p : PrerollReadP) (s : State) :
    (prerollReadEffect p s).st.pending = s.pending ∧ (prerollReadEffect p s).st.dram = s.dram := by
  unfold prerollReadEffect
  try simp
  repeat' ((first | split | (intro; split)) <;> try simp)

theorem execPrerollRead_kept (h : Hdr) (p : PrerollReadP) (s : State) :
    nextGet (execPrerollRead h p s) State.kept = some s.kept := by
  unfold execPrerollRead; simp

@[simp] theorem setCore_kept (s : State) (c : Nat) (x : CoreSt) :
    (State.setCore s c x).pending = s.pending ∧ (State.setCore s c x).dram = s.dram := by
  unfold State.setCore; simp

end Sys2Proof.Machine
end

