-- ==== Sys2Proof/Laws/KeptB.lean ====
section
/-! SUPPORT. The same for the faults, power, resets, register accesses, commands and ticks. -/
namespace Sys2Proof.Machine

@[simp] theorem deadfall_kept (s : State) (cause : Nat) (dt : DT) :
    (State.deadfall s cause dt).pending = s.pending ∧ (State.deadfall s cause dt).dram = s.dram := by
  unfold State.deadfall
  repeat' split
  all_goals simp

@[simp] theorem fireEngage_kept (s : State) :
    (State.fireEngage s).pending = s.pending ∧ (State.fireEngage s).dram = s.dram := by
  unfold State.fireEngage
  repeat' split
  all_goals simp

@[simp] theorem firebreakEffect_kept (op : Nat) (s : State) :
    (firebreakEffect op s).st.pending = s.pending ∧ (firebreakEffect op s).st.dram = s.dram := by
  unfold firebreakEffect; simp

@[simp] theorem coppiceFail_kept (s : State) (c tries : Nat) (dt : DT) :
    (State.coppiceFail s c tries dt).pending = s.pending ∧ (State.coppiceFail s c tries dt).dram = s.dram := by
  unfold State.coppiceFail; simp

@[simp] theorem fwFallback_kept (s : State) (c : Nat) (dt : DT) :
    (State.fwFallback s c dt).pending = s.pending ∧ (State.fwFallback s c dt).dram = s.dram := by
  unfold State.fwFallback
  repeat' split
  all_goals simp

@[simp] theorem coppiceStart_kept (s : State) (c : Nat) (dt : DT) :
    (State.coppiceStart s c dt).pending = s.pending ∧ (State.coppiceStart s c dt).dram = s.dram := by
  unfold State.coppiceStart; simp

@[simp] theorem coreFail_kept (s : State) (c reason : Nat) (cause : Option Nat) (dt : DT) :
    (State.coreFail s c reason cause dt).pending = s.pending ∧ (State.coreFail s c reason cause dt).dram = s.dram := by
  unfold State.coreFail
  try simp
  repeat' ((first | split | (intro; split)) <;> try simp)

@[simp] theorem heartbeat_kept (s : State) (c : Nat) (hb : Option TS) (dt : DT) :
    (State.heartbeat s c hb dt).pending = s.pending ∧ (State.heartbeat s c hb dt).dram = s.dram := by
  unfold State.heartbeat
  repeat' split
  all_goals simp

theorem execHeartbeatWindow_kept (hbA hbB : Option TS) (rangerMoved : Bool) (dt : DT) (s : State) :
    nextGet (execHeartbeatWindow hbA hbB rangerMoved dt s) State.kept = some s.kept := by
  unfold execHeartbeatWindow; simp

theorem execCoreException_kept (core : Nat) (memory : Bool) (dt : DT) (s : State) :
    nextGet (execCoreException core memory dt s) State.kept = some s.kept := by
  unfold execCoreException; simp

@[simp] theorem journalTake_kept (s : State) :
    (State.journalTake s).pending = s.pending ∧ (State.journalTake s).dram = s.dram := by
  unfold State.journalTake; simp

@[simp] theorem recoverEnd_kept (s : State) (action : Nat) :
    (State.recoverEnd s action).pending = s.pending ∧ (State.recoverEnd s action).dram = s.dram := by
  unfold State.recoverEnd; simp

theorem execCoppiceFirstPickup_kept (dt : DT) (s : State) :
    nextGet (execCoppiceFirstPickup dt s) State.kept = some s.kept := by
  unfold execCoppiceFirstPickup
  try simp
  repeat' ((first | split | (intro; split)) <;> try simp)

theorem execCoppiceRetry_kept (dt : DT) (s : State) :
    nextGet (execCoppiceRetry dt s) State.kept = some s.kept := by
  unfold execCoppiceRetry
  try simp
  repeat' ((first | split | (intro; split)) <;> try simp)

theorem execStandbyReady_kept (s : State) :
    nextGet (execStandbyReady s) State.kept = some s.kept := by
  unfold execStandbyReady
  repeat' split
  all_goals simp

theorem execRangerLoss_kept (dt : DT) (s : State) :
    nextGet (execRangerLoss dt s) State.kept = some s.kept := by
  unfold execRangerLoss
  try simp
  repeat' ((first | split | (intro; split)) <;> try simp)

@[simp] theorem rangerReset_kept (s : State) (who : Nat) :
    (State.rangerReset s who).pending = s.pending ∧ (State.rangerReset s who).dram = s.dram := by
  unfold State.rangerReset; simp

theorem execRangerReloadDone_kept (s : State) :
    nextGet (execRangerReloadDone s) State.kept = some s.kept := by
  unfold execRangerReloadDone; simp

@[simp] theorem fwActivateRefused_kept (p : FwActivateP) (st : Status) (s : State) :
    (fwActivateRefused p st s).pending = s.pending ∧ (fwActivateRefused p st s).dram = s.dram := by
  unfold fwActivateRefused; simp

@[simp] theorem fwActivateEffect_kept (h : Hdr) (p : FwActivateP) (s : State) :
    (fwActivateEffect h p s).st.pending = s.pending ∧ (fwActivateEffect h p s).st.dram = s.dram := by
  unfold fwActivateEffect; simp

theorem execFwActivate_kept (h : Hdr) (p : FwActivateP) (s : State) :
    nextGet (execFwActivate h p s) State.kept = some s.kept := by
  unfold execFwActivate; simp

theorem execFwHandover_kept (s : State) :
    nextGet (execFwHandover s) State.kept = some s.kept := by
  unfold execFwHandover
  repeat' split
  all_goals simp

theorem execFwProbationEnd_kept (dt : DT) (s : State) :
    nextGet (execFwProbationEnd dt s) State.kept = some s.kept := by
  unfold execFwProbationEnd
  try simp
  repeat' ((first | split | (intro; split)) <;> try simp)

@[simp] theorem lineZero_pending (s : State) (a : Addr) :
    (State.lineZero s a).pending = s.pending := by
  unfold State.lineZero; simp

@[simp] theorem loopErr_pending (s : State) (r : Nat) (a : Addr) (dt : DT) :
    (State.loopErr s r a dt).pending = s.pending := by
  unfold State.loopErr; simp

theorem execDramUe_pending (user : MemUser) (addr : Addr) (dt : DT) (s : State) :
    nextGet (execDramUe user addr dt s) State.pending = some s.pending := by
  unfold execDramUe
  try simp
  repeat' ((first | split | (intro; split)) <;> try simp)
  all_goals (first | done | (intros; simp; done) | (apply foldl_pending; intro s a; repeat' (split <;> try simp)))

@[simp] theorem nodeLost_pending (s : State) (k : Nat) : (State.nodeLost s k).pending = s.pending := by cases s; rfl

@[simp] theorem nodeLost_dram (s : State) (k : Nat) : (State.nodeLost s k).dram = s.dram := by cases s; rfl

@[simp] theorem busLost_pending (s : State) (b : Nat) : (State.busLost s b).pending = s.pending := by cases s; rfl

@[simp] theorem busLost_dram (s : State) (b : Nat) : (State.busLost s b).dram = s.dram := by cases s; rfl

@[simp] theorem shadowLost_kept (s : State) (off : Nat) :
    (State.shadowLost s off).pending = s.pending ∧ (State.shadowLost s off).dram = s.dram := by
  unfold State.shadowLost; simp

@[simp] theorem pendLost_kept (s : State) (ring tag : Nat) :
    (State.pendLost s ring tag).pending = s.pending ∧ (State.pendLost s ring tag).dram = s.dram := by
  unfold State.pendLost
  repeat' split
  all_goals simp

theorem execSramUe_kept (word : SramWord) (addr : Nat) (dt : DT) (s : State) :
    nextGet (execSramUe word addr dt s) State.kept = some s.kept := by
  unfold execSramUe
  repeat' split
  all_goals simp

theorem execMemScrubPeriodEnd_kept (linesLeft : Nat) (dt : DT) (s : State) :
    nextGet (execMemScrubPeriodEnd linesLeft dt s) State.kept = some s.kept := by
  unfold execMemScrubPeriodEnd
  try simp
  repeat' ((first | split | (intro; split)) <;> try simp)

@[simp] theorem bankLose_kept (s : State) (b : Nat) :
    (State.bankLose s b).pending = s.pending ∧ (State.bankLose s b).dram = s.dram := by
  unfold State.bankLose
  repeat' split
  all_goals simp

@[simp] theorem tablesLose_kept (s : State) :
    (State.tablesLose s).pending = s.pending ∧ (State.tablesLose s).dram = s.dram := by
  unfold State.tablesLose; simp

@[simp] theorem dramLose_pending (s : State) :
    (State.dramLose s).pending = s.pending := by
  unfold State.dramLose; simp

@[simp] theorem applyLost_pending (s : State) (lost : Nat) : (State.applyLost s lost).pending = s.pending := by
  unfold State.applyLost; dsimp only [State.freeNat]
  simp only [pending_ite, dramLose_pending, tablesLose_kept, ite_self]
  rw [foldl_pending _ _ _ (by intro s a; split <;> simp)]

@[simp] theorem perfLevelRefused_kept (h : Hdr) (level : Nat) (st : Status) (s : State) :
    (perfLevelRefused h level st s).pending = s.pending ∧ (perfLevelRefused h level st s).dram = s.dram := by
  unfold perfLevelRefused; simp

@[simp] theorem perfLevelEffect_kept (level : Nat) (s : State) :
    (perfLevelEffect level s).st.pending = s.pending ∧ (perfLevelEffect level s).st.dram = s.dram := by
  unfold perfLevelEffect; simp

theorem execPerfLevel_kept (h : Hdr) (level : Nat) (s : State) :
    nextGet (execPerfLevel h level s) State.kept = some s.kept := by
  unfold execPerfLevel; simp

@[simp] theorem levelSwitch_kept (s : State) :
    (State.levelSwitch s).pending = s.pending ∧ (State.levelSwitch s).dram = s.dram := by
  unfold State.levelSwitch
  repeat' split
  all_goals simp

theorem execLevelRaiseSwitch_kept (s : State) :
    nextGet (execLevelRaiseSwitch s) State.kept = some s.kept := by
  unfold execLevelRaiseSwitch; simp

theorem execVsettleEnd_kept (s : State) :
    nextGet (execVsettleEnd s) State.kept = some s.kept := by
  unfold execVsettleEnd; simp

@[simp] theorem sleepEffect_kept (h : Hdr) (p : SleepP) (s : State) :
    (sleepEffect h p s).st.pending = s.pending ∧ (sleepEffect h p s).st.dram = s.dram := by
  unfold sleepEffect; simp

theorem execSleep_kept (h : Hdr) (p : SleepP) (s : State) :
    nextGet (execSleep h p s) State.kept = some s.kept := by
  unfold execSleep; simp

@[simp] theorem setSleep_kept (s : State) (z : SleepSt) :
    (State.setSleep s z).pending = s.pending ∧ (State.setSleep s z).dram = s.dram := by
  unfold State.setSleep; simp

@[simp] theorem sleepRefuse_kept (s : State) (z : SleepSt) (reason : Nat) :
    (State.sleepRefuse s z reason).pending = s.pending ∧ (State.sleepRefuse s z reason).dram = s.dram := by
  unfold State.sleepRefuse; simp

@[simp] theorem voteYes_kept (s : State) (z : SleepSt) :
    (State.voteYes s z).pending = s.pending ∧ (State.voteYes s z).dram = s.dram := by
  unfold State.voteYes
  repeat' split
  all_goals simp

@[simp] theorem voteTurn_kept (s : State) :
    (State.voteTurn s).pending = s.pending ∧ (State.voteTurn s).dram = s.dram := by
  unfold State.voteTurn
  repeat' split
  all_goals simp

theorem execSleepVoteTurn_kept (s : State) :
    nextGet (execSleepVoteTurn s) State.kept = some s.kept := by
  unfold execSleepVoteTurn; simp

theorem execSleepLinkHoldEnd_kept (linkAway : Bool) (s : State) :
    nextGet (execSleepLinkHoldEnd linkAway s) State.kept = some s.kept := by
  unfold execSleepLinkHoldEnd
  repeat' split
  all_goals simp

@[simp] theorem blockResume_kept (s : State) (i : Nat) :
    (State.blockResume s i).pending = s.pending ∧ (State.blockResume s i).dram = s.dram := by
  unfold State.blockResume; simp

@[simp] theorem rollTick_kept (s : State) :
    (State.rollTick s).pending = s.pending ∧ (State.rollTick s).dram = s.dram := by
  unfold State.rollTick
  repeat' split
  all_goals simp

@[simp] theorem keysErase_kept (s : State) (why : Nat) (dt : DT) :
    (State.keysErase s why dt).pending = s.pending ∧ (State.keysErase s why dt).dram = s.dram := by
  unfold State.keysErase; simp

@[simp] theorem hwdStop_kept (s : State) :
    (State.hwdStop s).pending = s.pending ∧ (State.hwdStop s).dram = s.dram := by
  unfold State.hwdStop; simp

theorem execHardwareEntry_pending (dt : DT) (s : State) :
    nextGet (execHardwareEntry dt s) State.pending = some s.pending := by
  unfold execHardwareEntry
  try simp
  repeat' ((first | split | (intro; split)) <;> try simp)
  all_goals (first | done | (intros; simp; done) | (apply foldl_pending; intro s a; repeat' (split <;> try simp)))

theorem execHardwareEntryEnd_kept (dt : DT) (s : State) :
    nextGet (execHardwareEntryEnd dt s) State.kept = some s.kept := by
  unfold execHardwareEntryEnd
  try simp
  repeat' ((first | split | (intro; split)) <;> try simp)

theorem execCanopyTimer_kept (dt : DT) (s : State) :
    nextGet (execCanopyTimer dt s) State.kept = some s.kept := by
  unfold execCanopyTimer
  try simp
  repeat' ((first | split | (intro; split)) <;> try simp)

theorem execGpioWakeLevel_kept (pin : Nat) (dt : DT) (s : State) :
    nextGet (execGpioWakeLevel pin dt s) State.kept = some s.kept := by
  unfold execGpioWakeLevel; simp

theorem execSapWakeActivity_kept (port : Nat) (dt : DT) (s : State) :
    nextGet (execSapWakeActivity port dt s) State.kept = some s.kept := by
  unfold execSapWakeActivity; simp

theorem execSapWakePattern_kept (port : Nat) (dt : DT) (s : State) :
    nextGet (execSapWakePattern port dt s) State.kept = some s.kept := by
  unfold execSapWakePattern; simp

@[simp] theorem canopyStage_kept (s : State) :
    (State.canopyStage s).pending = s.pending ∧ (State.canopyStage s).dram = s.dram := by
  unfold State.canopyStage; simp

@[simp] theorem hwdStart_kept (s : State) :
    (State.hwdStart s).pending = s.pending ∧ (State.hwdStart s).dram = s.dram := by
  unfold State.hwdStart; simp

@[simp] theorem wakeStep4_pending (s : State) (badBanks : BitVec 12) (dt : DT) :
    (State.wakeStep4 s badBanks dt).pending = s.pending := by
  unfold State.wakeStep4; simp

@[simp] theorem startStep4_pending (s : State) : (State.startStep4 s).pending = s.pending := by
  unfold State.startStep4; dsimp only [State.freeNat]; simp

@[simp] theorem startStep4_dram (s : State) : (State.startStep4 s).dram = s.dram := by
  unfold State.startStep4; dsimp only [State.freeNat]; simp

theorem execExitStepReady_pending (badBanks : BitVec 12) (saveUe : Bool) (dt : DT) (s : State) :
    nextGet (execExitStepReady badBanks saveUe dt s) State.pending = some s.pending := by
  unfold execExitStepReady; simp

theorem execExitStepTimeout_kept (dt : DT) (s : State) :
    nextGet (execExitStepTimeout dt s) State.kept = some s.kept := by
  unfold execExitStepTimeout
  try simp
  repeat' ((first | split | (intro; split)) <;> try simp)

@[simp] theorem awake_kept (s : State) (w : TS) (dt : DT) :
    (State.awake s w dt).pending = s.pending ∧ (State.awake s w dt).dram = s.dram := by
  unfold State.awake
  repeat' split
  all_goals simp

@[simp] theorem setWoke_kept (s : State) (b : Bool) :
    (State.setWoke s b).pending = s.pending ∧ (State.setWoke s b).dram = s.dram := by
  unfold State.setWoke; simp

theorem execWakeBoundary_kept (dt : DT) (s : State) :
    nextGet (execWakeBoundary dt s) State.kept = some s.kept := by
  unfold execWakeBoundary
  try simp
  repeat' ((first | split | (intro; split)) <;> try simp)

theorem execShadeExit_kept (source : Nat) (dt : DT) (s : State) :
    nextGet (execShadeExit source dt s) State.kept = some s.kept := by
  unfold execShadeExit
  try simp
  repeat' ((first | split | (intro; split)) <;> try simp)

@[simp] theorem resetTo_kept (s : State) (code : Nat) (dt : DT) :
    (State.resetTo s code dt).pending = s.pending ∧ (State.resetTo s code dt).dram = s.dram := by
  unfold State.resetTo; simp

@[simp] theorem startIf_kept (s : State) (dt : DT) :
    (State.startIf s dt).pending = s.pending ∧ (State.startIf s dt).dram = s.dram := by
  unfold State.startIf; simp

theorem execColdStart_pending (sel : BitVec 3) (s : State) :
    nextGet (execColdStart sel s) State.pending = some s.pending := by
  unfold execColdStart; simp

theorem execVsysLoss_kept (canopy : Bool) (s : State) :
    nextGet (execVsysLoss canopy s) State.kept = some s.kept := by
  unfold execVsysLoss; simp

theorem execResetNAssert_kept (dt : DT) (s : State) :
    nextGet (execResetNAssert dt s) State.kept = some s.kept := by
  unfold execResetNAssert; simp

theorem execResetNRelease_kept (sel : BitVec 3) (dt : DT) (s : State) :
    nextGet (execResetNRelease sel dt s) State.kept = some s.kept := by
  unfold execResetNRelease
  try simp
  repeat' ((first | split | (intro; split)) <;> try simp)

theorem execCoreSupplyLoss_kept (dt : DT) (s : State) :
    nextGet (execCoreSupplyLoss dt s) State.kept = some s.kept := by
  unfold execCoreSupplyLoss
  repeat' split
  all_goals simp

theorem execCoreSupplyReturn_kept (dt : DT) (s : State) :
    nextGet (execCoreSupplyReturn dt s) State.kept = some s.kept := by
  unfold execCoreSupplyReturn
  try simp
  repeat' ((first | split | (intro; split)) <;> try simp)

theorem execVio2Loss_kept (s : State) :
    nextGet (execVio2Loss s) State.kept = some s.kept := by
  unfold execVio2Loss
  try simp
  repeat' ((first | split | (intro; split)) <;> try simp)

theorem execVio2Valid_kept (high : Bool) (s : State) :
    nextGet (execVio2Valid high s) State.kept = some s.kept := by
  unfold execVio2Valid; simp

@[simp] theorem memReady_kept (s : State) :
    (State.memReady s).pending = s.pending ∧ (State.memReady s).dram = s.dram := by
  unfold State.memReady; simp

theorem execDramSupplyLoss_kept (vddq : Bool) (s : State) :
    nextGet (execDramSupplyLoss vddq s) State.kept = some s.kept := by
  unfold execDramSupplyLoss; simp

theorem execDramSupplyValid_kept (vddq : Bool) (s : State) :
    nextGet (execDramSupplyValid vddq s) State.kept = some s.kept := by
  unfold execDramSupplyValid; simp

@[simp] theorem devReset_kept (s : State) (dt : DT) :
    (State.devReset s dt).pending = s.pending ∧ (State.devReset s dt).dram = s.dram := by
  unfold State.devReset; simp

@[simp] theorem resetTicks_kept (s : State) :
    (State.resetTicks s).pending = s.pending ∧ (State.resetTicks s).dram = s.dram := by
  unfold State.resetTicks; simp

theorem execNetPps_kept (dt : DT) (s : State) :
    nextGet (execNetPps dt s) State.kept = some s.kept := by
  unfold execNetPps
  try simp
  repeat' ((first | split | (intro; split)) <;> try simp)

theorem execGpioPulseEnd_kept (pin : Nat) (dt : DT) (s : State) :
    nextGet (execGpioPulseEnd pin dt s) State.kept = some s.kept := by
  unfold execGpioPulseEnd
  try simp
  repeat' ((first | split | (intro; split)) <;> try simp)

@[simp] theorem lockedWrite_kept (s : State) (off : Nat) (who : Writer) :
    (State.lockedWrite s off who).pending = s.pending ∧ (State.lockedWrite s off who).dram = s.dram := by
  unfold State.lockedWrite; simp

@[simp] theorem setLock_kept (s : State) (who : Writer) :
    (State.setLock s who).pending = s.pending ∧ (State.setLock s who).dram = s.dram := by
  unfold State.setLock; simp

@[simp] theorem runGo_kept (s : State) :
    (State.runGo s).pending = s.pending ∧ (State.runGo s).dram = s.dram := by
  unfold State.runGo; simp

@[simp] theorem clkCtrlDone_kept (s : State) (old : Word) :
    (State.clkCtrlDone s old).pending = s.pending ∧ (State.clkCtrlDone s old).dram = s.dram := by
  unfold State.clkCtrlDone; simp

@[simp] theorem claimRefused_kept (s : State) (off : Nat) (st : Status) :
    (State.claimRefused s off st).pending = s.pending ∧ (State.claimRefused s off st).dram = s.dram := by
  unfold State.claimRefused; simp

@[simp] theorem fltCtrl_kept (s : State) (who : Writer) (v : Word) :
    (State.fltCtrl s who v).pending = s.pending ∧ (State.fltCtrl s who v).dram = s.dram := by
  unfold State.fltCtrl; simp

@[simp] theorem apStatusDone_kept (s : State) :
    (State.apStatusDone s).pending = s.pending ∧ (State.apStatusDone s).dram = s.dram := by
  unfold State.apStatusDone; simp

@[simp] theorem clipCntClear_kept (s : State) :
    (State.clipCntClear s).pending = s.pending ∧ (State.clipCntClear s).dram = s.dram := by
  unfold State.clipCntClear; simp

@[simp] theorem mdioStart_kept (s : State) :
    (State.mdioStart s).pending = s.pending ∧ (State.mdioStart s).dram = s.dram := by
  unfold State.mdioStart; simp

@[simp] theorem gptpDone_kept (s : State) (old : Nat) :
    (State.gptpDone s old).pending = s.pending ∧ (State.gptpDone s old).dram = s.dram := by
  unfold State.gptpDone; simp

@[simp] theorem bootGo_kept (s : State) :
    (State.bootGo s).pending = s.pending ∧ (State.bootGo s).dram = s.dram := by
  unfold State.bootGo; simp

@[simp] theorem scrubStart_kept (s : State) :
    (State.scrubStart s).pending = s.pending ∧ (State.scrubStart s).dram = s.dram := by
  unfold State.scrubStart; simp

@[simp] theorem memCfgDone_kept (s : State) :
    (State.memCfgDone s).pending = s.pending ∧ (State.memCfgDone s).dram = s.dram := by
  unfold State.memCfgDone; simp

@[simp] theorem alertDone_kept (s : State) (oldMask : Word) :
    (State.alertDone s oldMask).pending = s.pending ∧ (State.alertDone s oldMask).dram = s.dram := by
  unfold State.alertDone; simp

@[simp] theorem pwrCtrlDone_kept (s : State) :
    (State.pwrCtrlDone s).pending = s.pending ∧ (State.pwrCtrlDone s).dram = s.dram := by
  unfold State.pwrCtrlDone; simp

@[simp] theorem regDone_pending (s : State) (who : Writer) (off : Nat) (old v : Word) : (State.regDone s who off old v).pending = s.pending := by
  obtain ⟨t, e, h⟩ : ∃ t, execTimeSnap s = .next t ∧ t.pending = s.pending := ⟨_, rfl, by simp⟩
  unfold State.regDone
  simp only [e]
  simp [h]

@[simp] theorem regDone_dram (s : State) (who : Writer) (off : Nat) (old v : Word) : (State.regDone s who off old v).dram = s.dram := by
  obtain ⟨t, e, h⟩ : ∃ t, execTimeSnap s = .next t ∧ t.dram = s.dram := ⟨_, rfl, by simp⟩
  unfold State.regDone
  simp only [e]
  simp [h]

@[simp] theorem laneWrite_kept (s : State) (off : Nat) (v : Word) :
    (State.laneWrite s off v).st.pending = s.pending ∧ (State.laneWrite s off v).st.dram = s.dram := by
  unfold State.laneWrite
  try simp
  repeat' ((first | split | (intro; split)) <;> try simp)

@[simp] theorem regWrite_pending (s : State) (who : Writer) (off : Nat) (v : Word) : (s.regWrite who off v).st.pending = s.pending := by
  unfold State.regWrite
  dsimp only
  split
  · rfl
  · simp [apply_ite Wrote.st]
    intros
    repeat' split
    all_goals simp [apply_ite Wrote.st]

@[simp] theorem regWrite_dram (s : State) (who : Writer) (off : Nat) (v : Word) : (s.regWrite who off v).st.dram = s.dram := by
  unfold State.regWrite
  dsimp only
  split
  · rfl
  · simp [apply_ite Wrote.st]
    intros
    repeat' split
    all_goals simp [apply_ite Wrote.st]

@[simp] theorem hostWrite_kept (s : State) (off : Nat) (v : Word) :
    (State.hostWrite s off v).pending = s.pending ∧ (State.hostWrite s off v).dram = s.dram := by
  unfold State.hostWrite
  repeat' split
  all_goals simp

theorem execRegisterWrite_kept (off : Nat) (value : Word) (aligned32 : Bool) (s : State) :
    nextGet (execRegisterWrite off value aligned32 s) State.kept = some s.kept := by
  unfold execRegisterWrite
  repeat' split
  all_goals simp

theorem execRingEnable_kept (n : Nat) (cfg : Word) (s : State) :
    nextGet (execRingEnable n cfg s) State.kept = some s.kept := by
  unfold execRingEnable; simp

theorem execRingDisable_kept (n : Nat) (cfg : Word) (s : State) :
    nextGet (execRingDisable n cfg s) State.kept = some s.kept := by
  unfold execRingDisable; simp

theorem execRun_kept (value : Word) (s : State) :
    nextGet (execRun value s) State.kept = some s.kept := by
  unfold execRun; simp

theorem execRangeWrite_kept (value : Word) (s : State) :
    nextGet (execRangeWrite value s) State.kept = some s.kept := by
  unfold execRangeWrite; simp

theorem execMeterEnable_kept (value : Word) (s : State) :
    nextGet (execMeterEnable value s) State.kept = some s.kept := by
  unfold execMeterEnable; simp

theorem execMdioGo_kept (value : Word) (s : State) :
    nextGet (execMdioGo value s) State.kept = some s.kept := by
  unfold execMdioGo; simp

theorem execNetCtxSel_kept (ctx : Word) (s : State) :
    nextGet (execNetCtxSel ctx s) State.kept = some s.kept := by
  unfold execNetCtxSel; simp

theorem execClipClr_kept (value : Word) (s : State) :
    nextGet (execClipClr value s) State.kept = some s.kept := by
  unfold execClipClr; simp

theorem execPeakClr_kept (value : Word) (s : State) :
    nextGet (execPeakClr value s) State.kept = some s.kept := by
  unfold execPeakClr; simp

theorem execBlzRelease_kept (seq : Word) (s : State) :
    nextGet (execBlzRelease seq s) State.kept = some s.kept := by
  unfold execBlzRelease; simp

theorem execBlzWinSeq_kept (seq : Word) (s : State) :
    nextGet (execBlzWinSeq seq s) State.kept = some s.kept := by
  unfold execBlzWinSeq; simp

theorem execDrainEnable_kept (value : Word) (s : State) :
    nextGet (execDrainEnable value s) State.kept = some s.kept := by
  unfold execDrainEnable; simp

theorem execAvClr_kept (s : State) :
    nextGet (execAvClr s) State.kept = some s.kept := by
  unfold execAvClr; simp

theorem execDumpNow_kept (s : State) :
    nextGet (execDumpNow s) State.kept = some s.kept := by
  unfold execDumpNow; simp

theorem execDumpClr_kept (s : State) :
    nextGet (execDumpClr s) State.kept = some s.kept := by
  unfold execDumpClr; simp

theorem execRangerRst_kept (s : State) :
    nextGet (execRangerRst s) State.kept = some s.kept := by
  unfold execRangerRst; simp

theorem execDevReset_kept (dt : DT) (s : State) :
    nextGet (execDevReset dt s) State.kept = some s.kept := by
  unfold execDevReset; simp

theorem execLock_kept (s : State) :
    nextGet (execLock s) State.kept = some s.kept := by
  unfold execLock; simp

theorem execBootOrder_kept (s : State) :
    nextGet (execBootOrder s) State.kept = some s.kept := by
  unfold execBootOrder; simp

theorem execGpioCfgWrite_kept (pin : Nat) (value : Word) (s : State) :
    nextGet (execGpioCfgWrite pin value s) State.kept = some s.kept := by
  unfold execGpioCfgWrite; simp

theorem execSapxCfgWrite_kept (value : Word) (s : State) :
    nextGet (execSapxCfgWrite value s) State.kept = some s.kept := by
  unfold execSapxCfgWrite; simp

theorem execGpioSet_kept (value : Word) (s : State) :
    nextGet (execGpioSet value s) State.kept = some s.kept := by
  unfold execGpioSet; simp

theorem execGpioClr_kept (value : Word) (s : State) :
    nextGet (execGpioClr value s) State.kept = some s.kept := by
  unfold execGpioClr; simp

@[simp] theorem apWrite_kept (s : State) (off : Nat) (w : Word) :
    (State.apWrite s off w).pending = s.pending ∧ (State.apWrite s off w).dram = s.dram := by
  unfold State.apWrite; simp

theorem execApertureWrite_kept (off : Nat) (lo : Word) (hi : Option Word) (aligned : Bool) (s : State) :
    nextGet (execApertureWrite off lo hi aligned s) State.kept = some s.kept := by
  unfold execApertureWrite
  try simp
  repeat' ((first | split | (intro; split)) <;> try simp)

theorem execTimeDtRead_kept (target : Bool) (s : State) :
    nextGet (execTimeDtRead target s) State.kept = some s.kept := by
  unfold execTimeDtRead; simp

theorem execTimeTickRead_kept (target : Bool) (s : State) :
    nextGet (execTimeTickRead target s) State.kept = some s.kept := by
  unfold execTimeTickRead; simp

@[simp] theorem fltLatch_kept (s : State) (c : Nat) :
    (State.fltLatch s c).pending = s.pending ∧ (State.fltLatch s c).dram = s.dram := by
  unfold State.fltLatch; simp

theorem execFltLoRead_kept (counter : Nat) (s : State) :
    nextGet (execFltLoRead counter s) State.kept = some s.kept := by
  unfold execFltLoRead; simp

@[simp] theorem bootOk_kept (s : State) (i : ImageFacts) :
    (State.bootOk s i).pending = s.pending ∧ (State.bootOk s i).dram = s.dram := by
  unfold State.bootOk; simp

@[simp] theorem bootFail_kept (s : State) (i : ImageFacts) (st : Status) :
    (State.bootFail s i st).pending = s.pending ∧ (State.bootFail s i st).dram = s.dram := by
  unfold State.bootFail; simp

theorem execHwdBootDone_kept (image : ImageFacts) (s : State) :
    nextGet (execHwdBootDone image s) State.kept = some s.kept := by
  unfold execHwdBootDone
  repeat' split
  all_goals simp

@[simp] theorem cfgWrite_kept (s : State) (e : Nat × Word) :
    (State.cfgWrite s e).pending = s.pending ∧ (State.cfgWrite s e).dram = s.dram := by
  unfold State.cfgWrite; simp

@[simp] theorem cfgHash_kept (s : State) (h : BitVec 256) :
    (State.cfgHash s h).pending = s.pending ∧ (State.cfgHash s h).dram = s.dram := by
  unfold State.cfgHash; simp

@[simp] theorem cfgApply_kept (s : State) (i : ImageFacts) :
    (State.cfgApply s i).pending = s.pending ∧ (State.cfgApply s i).dram = s.dram := by
  unfold State.cfgApply; simp

theorem execCfgOrder_kept (image : ImageFacts) (s : State) :
    nextGet (execCfgOrder image s) State.kept = some s.kept := by
  unfold execCfgOrder; simp

@[simp] theorem configLoadEffect_kept (p : ConfigLoadP) (s : State) :
    (configLoadEffect p s).st.pending = s.pending ∧ (configLoadEffect p s).st.dram = s.dram := by
  unfold configLoadEffect; simp

theorem execConfigLoad_kept (h : Hdr) (p : ConfigLoadP) (s : State) :
    nextGet (execConfigLoad h p s) State.kept = some s.kept := by
  unfold execConfigLoad; simp

@[simp] theorem keyLoadRefused_pending (p : KeyLoadP) (x : Status) (s : State) : (keyLoadRefused p x s).pending = s.pending := by
  unfold keyLoadRefused; simp

@[simp] theorem keyLoadRefused_dram (p : KeyLoadP) (x : Status) (s : State) : (keyLoadRefused p x s).dram = s.dram := by
  unfold keyLoadRefused; simp

@[simp] theorem keyLoadEffect_kept (p : KeyLoadP) (s : State) :
    (keyLoadEffect p s).st.pending = s.pending ∧ (keyLoadEffect p s).st.dram = s.dram := by
  unfold keyLoadEffect; simp

theorem execKeyLoad_kept (h : Hdr) (p : KeyLoadP) (s : State) :
    nextGet (execKeyLoad h p s) State.kept = some s.kept := by
  unfold execKeyLoad; simp

@[simp] theorem keyClearEffect_kept (slot : Nat) (s : State) :
    (keyClearEffect slot s).st.pending = s.pending ∧ (keyClearEffect slot s).st.dram = s.dram := by
  unfold keyClearEffect; simp

theorem execKeyClear_kept (h : Hdr) (slot : Nat) (s : State) :
    nextGet (execKeyClear h slot s) State.kept = some s.kept := by
  unfold execKeyClear; simp

@[simp] theorem attestEffect_kept (p : AttestP) (s : State) :
    (attestEffect p s).st.pending = s.pending ∧ (attestEffect p s).st.dram = s.dram := by
  unfold attestEffect; simp

theorem execAttest_kept (h : Hdr) (p : AttestP) (s : State) :
    nextGet (execAttest h p s) State.kept = some s.kept := by
  unfold execAttest; simp

@[simp] theorem newNonce_pending (s : State) : (State.newNonce s).pending = s.pending := rfl

@[simp] theorem newNonce_dram (s : State) : (State.newNonce s).dram = s.dram := rfl

@[simp] theorem debugUnlockRefused_pending (p : DebugUnlockP) (x : Status) (s : State) : (debugUnlockRefused p x s).pending = s.pending := by
  unfold debugUnlockRefused; split <;> simp

@[simp] theorem debugUnlockRefused_dram (p : DebugUnlockP) (x : Status) (s : State) : (debugUnlockRefused p x s).dram = s.dram := by
  unfold debugUnlockRefused; split <;> simp

@[simp] theorem debugUnlockEffect_kept (p : DebugUnlockP) (s : State) :
    (debugUnlockEffect p s).st.pending = s.pending ∧ (debugUnlockEffect p s).st.dram = s.dram := by
  unfold debugUnlockEffect; simp

theorem execDebugUnlock_kept (h : Hdr) (p : DebugUnlockP) (s : State) :
    nextGet (execDebugUnlock h p s) State.kept = some s.kept := by
  unfold execDebugUnlock; simp

theorem execDebugExpire_kept (dt : DT) (s : State) :
    nextGet (execDebugExpire dt s) State.kept = some s.kept := by
  unfold execDebugExpire
  try simp
  repeat' ((first | split | (intro; split)) <;> try simp)

@[simp] theorem twbBegin_kept (s : State) (cmd : BitVec 8) (dt : DT) :
    (State.twbBegin s cmd dt).pending = s.pending ∧ (State.twbBegin s cmd dt).dram = s.dram := by
  unfold State.twbBegin; simp

@[simp] theorem twbAbandoned_kept (s : State) (cmd : BitVec 8) :
    (State.twbAbandoned s cmd).pending = s.pending ∧ (State.twbAbandoned s cmd).dram = s.dram := by
  unfold State.twbAbandoned; simp

@[simp] theorem twbPecFail_kept (s : State) (cmd : BitVec 8) (data : List Byte) (tx : Tx) :
    (State.twbPecFail s cmd data tx).pending = s.pending ∧ (State.twbPecFail s cmd data tx).dram = s.dram := by
  unfold State.twbPecFail; simp

@[simp] theorem twbLast_kept (s : State) (st : Status) :
    (State.twbLast s st).pending = s.pending ∧ (State.twbLast s st).dram = s.dram := by
  unfold State.twbLast; simp

@[simp] theorem twbWrite_pending (s : State) (cmd : BitVec 8) (data : List Byte) (tx : Tx) (eff : State → State × Status)
    (h : ∀ s, (eff s).1.pending = s.pending) : (s.twbWrite cmd data tx eff).pending = s.pending := by
  unfold State.twbWrite; simp [h]

@[simp] theorem twbWrite_dram (s : State) (cmd : BitVec 8) (data : List Byte) (tx : Tx) (eff : State → State × Status)
    (h : ∀ s, (eff s).1.dram = s.dram) : (s.twbWrite cmd data tx eff).dram = s.dram := by
  unfold State.twbWrite; simp [h]

@[simp] theorem answer_kept (s : State) (bytes : List Byte) :
    (State.answer s bytes).pending = s.pending ∧ (State.answer s bytes).dram = s.dram := by
  unfold State.answer; simp

@[simp] theorem respond_kept (s : State) (st : Status) (data : List Byte) :
    (State.respond s st data).pending = s.pending ∧ (State.respond s st data).dram = s.dram := by
  unfold State.respond; simp

@[simp] theorem respondBlock_kept (s : State) (st : Status) (data : List Byte) :
    (State.respondBlock s st data).pending = s.pending ∧ (State.respondBlock s st data).dram = s.dram := by
  unfold State.respondBlock; simp

@[simp] theorem respondBusy_kept (s : State) (n : Nat) :
    (State.respondBusy s n).pending = s.pending ∧ (State.respondBusy s n).dram = s.dram := by
  unfold State.respondBusy; simp

theorem execStatus_kept (tx : Tx) (s : State) :
    nextGet (execStatus tx s) State.kept = some s.kept := by
  unfold execStatus; simp

theorem execIdent_kept (tx : Tx) (s : State) :
    nextGet (execIdent tx s) State.kept = some s.kept := by
  unfold execIdent; simp

theorem execDt_kept (tx : Tx) (s : State) :
    nextGet (execDt tx s) State.kept = some s.kept := by
  unfold execDt; simp

theorem execAlert_kept (tx : Tx) (s : State) :
    nextGet (execAlert tx s) State.kept = some s.kept := by
  unfold execAlert; simp

@[simp] theorem twbPointer_kept (s : State) (cmd : BitVec 8) (w : Option Word) (tx : Tx) (get : TwbSt → Word) (set : TwbSt → Word → TwbSt) :
    (State.twbPointer s cmd w tx get set).pending = s.pending ∧ (State.twbPointer s cmd w tx get set).dram = s.dram := by
  unfold State.twbPointer
  try simp
  repeat' ((first | split | (intro; split)) <;> try simp)
  all_goals (first | done | (intros; simp; done) | (apply foldl_pending; intro s a; repeat' (split <;> try simp)))

theorem execRegAddr_kept (w : Option Word) (tx : Tx) (s : State) :
    nextGet (execRegAddr w tx s) State.kept = some s.kept := by
  unfold execRegAddr; simp

theorem execLogPtr_kept (w : Option Word) (tx : Tx) (s : State) :
    nextGet (execLogPtr w tx s) State.kept = some s.kept := by
  unfold execLogPtr; simp

theorem execDumpPtr_kept (w : Option Word) (tx : Tx) (s : State) :
    nextGet (execDumpPtr w tx s) State.kept = some s.kept := by
  unfold execDumpPtr; simp

@[simp] theorem targetWrite_kept (s : State) (off : Nat) (v : Word) :
    (State.targetWrite s off v).1.pending = s.pending ∧ (State.targetWrite s off v).1.dram = s.dram := by
  unfold State.targetWrite
  repeat' split
  all_goals simp

@[simp] theorem targetLatch_kept (s : State) (off : Nat) :
    (State.targetLatch s off).pending = s.pending ∧ (State.targetLatch s off).dram = s.dram := by
  unfold State.targetLatch; simp

@[simp] theorem twbAinc_kept (s : State) :
    (State.twbAinc s).pending = s.pending ∧ (State.twbAinc s).dram = s.dram := by
  unfold State.twbAinc; simp

@[simp] theorem regDataRead_pending (s : State) (tx : Tx) : (State.regDataRead s tx).pending = s.pending := by
  unfold State.regDataRead; dsimp only [State.freeNat]; simp

@[simp] theorem regDataRead_dram (s : State) (tx : Tx) : (State.regDataRead s tx).dram = s.dram := by
  unfold State.regDataRead; dsimp only [State.freeNat]; simp

theorem execRegData_kept (w : Option Word) (tx : Tx) (s : State) :
    nextGet (execRegData w tx s) State.kept = some s.kept := by
  unfold execRegData
  try simp
  repeat' ((first | split | (intro; split)) <;> try simp)
  all_goals (first | done | (intros; simp; done) | (apply foldl_pending; intro s a; repeat' (split <;> try simp)))

@[simp] theorem logReadGo_kept (s : State) (tx : Tx) :
    (State.logReadGo s tx).pending = s.pending ∧ (State.logReadGo s tx).dram = s.dram := by
  unfold State.logReadGo; simp

theorem execLogRead_kept (tx : Tx) (s : State) :
    nextGet (execLogRead tx s) State.kept = some s.kept := by
  unfold execLogRead; simp

@[simp] theorem dumpReadGo_kept (s : State) (tx : Tx) :
    (State.dumpReadGo s tx).pending = s.pending ∧ (State.dumpReadGo s tx).dram = s.dram := by
  unfold State.dumpReadGo
  repeat' split
  all_goals simp

theorem execDumpRead_kept (tx : Tx) (s : State) :
    nextGet (execDumpRead tx s) State.kept = some s.kept := by
  unfold execDumpRead; simp

@[simp] theorem twbWake_kept (s : State) (num : Nat) (dt : DT) :
    (State.twbWake s num dt).pending = s.pending ∧ (State.twbWake s num dt).dram = s.dram := by
  unfold State.twbWake; simp

theorem execWake_kept (tx : Tx) (s : State) :
    nextGet (execWake tx s) State.kept = some s.kept := by
  unfold execWake; simp

theorem execSmbusAddressWake_kept (dt : DT) (s : State) :
    nextGet (execSmbusAddressWake dt s) State.kept = some s.kept := by
  unfold execSmbusAddressWake; simp

theorem execArm_kept (code : BitVec 8) (tx : Tx) (s : State) :
    nextGet (execArm code tx s) State.kept = some s.kept := by
  unfold execArm; simp

theorem execArmExpire_kept (dt : DT) (s : State) :
    nextGet (execArmExpire dt s) State.kept = some s.kept := by
  unfold execArmExpire
  try simp
  repeat' ((first | split | (intro; split)) <;> try simp)

@[simp] theorem recoverRefused_kept (s : State) (why : Nat) :
    (State.recoverRefused s why).pending = s.pending ∧ (State.recoverRefused s why).dram = s.dram := by
  unfold State.recoverRefused; simp

@[simp] theorem recoverCores_kept (s : State) :
    (State.recoverCores s).pending = s.pending ∧ (State.recoverCores s).dram = s.dram := by
  unfold State.recoverCores; simp

@[simp] theorem recoverGo_kept (s : State) (action : Nat) :
    (State.recoverGo s action).pending = s.pending ∧ (State.recoverGo s action).dram = s.dram := by
  unfold State.recoverGo
  repeat' split
  all_goals simp

theorem execRecover_kept (action : BitVec 8) (tx : Tx) (s : State) :
    nextGet (execRecover action tx s) State.kept = some s.kept := by
  unfold execRecover; simp

theorem execAlertResponse_kept (won : Bool) (s : State) :
    nextGet (execAlertResponse won s) State.kept = some s.kept := by
  unfold execAlertResponse; simp

theorem execTwbAbandon_kept (cmd : BitVec 8) (dt : DT) (s : State) :
    nextGet (execTwbAbandon cmd dt s) State.kept = some s.kept := by
  unfold execTwbAbandon; simp

theorem execTwbSdaRelease_kept (cmd : BitVec 8) (s : State) :
    nextGet (execTwbSdaRelease cmd s) State.kept = some s.kept := by
  unfold execTwbSdaRelease; simp

theorem execTwbBusTimeout_kept (sdaHeld : Bool) (cmd : BitVec 8) (dt : DT) (s : State) :
    nextGet (execTwbBusTimeout sdaHeld cmd dt s) State.kept = some s.kept := by
  unfold execTwbBusTimeout; simp

@[simp] theorem unpick_kept (s : State) (g : List Item) :
    (State.unpick s g).pending = s.pending ∧ (State.unpick s g).dram = s.dram := by
  unfold State.unpick; simp

@[simp] theorem claimPrep_kept (s : State) (l : List Item) :
    (State.claimPrep s l).pending = s.pending ∧ (State.claimPrep s l).dram = s.dram := by
  unfold State.claimPrep; simp

@[simp] theorem claimClear_kept (s : State) :
    (State.claimClear s).pending = s.pending ∧ (State.claimClear s).dram = s.dram := by
  unfold State.claimClear; simp

/-- What a refusal leaves beside its write-back keeps the field. -/
def Refused.fair_pending (f : Refused) : Prop := ∀ s, (f.note s).pending = s.pending

/-- What a refusal leaves beside its write-back keeps the field. -/
def Refused.fair_dram (f : Refused) : Prop := ∀ s, (f.note s).dram = s.dram

theorem cmdSpec_eff_pending (s : State) (h : Hdr) (k : TS) (c : Cmd) (t : State) : ((cmdSpec s h k c).eff t).st.pending = t.pending := by
  cases c <;> simp [cmdSpec, cmdPlain, cmdNone]

theorem cmdSpec_note_pending (s : State) (h : Hdr) (k : TS) (c : Cmd) (x : Status) (t : State) :
    ((cmdSpec s h k c).onRefuse x t).pending = t.pending := by
  cases c <;> simp [cmdSpec, cmdPlain, cmdNone]

theorem cmdSpec_note_dram (s : State) (h : Hdr) (k : TS) (c : Cmd) (x : Status) (t : State) :
    ((cmdSpec s h k c).onRefuse x t).dram = t.dram := by
  cases c <;> simp [cmdSpec, cmdPlain, cmdNone]

theorem check5_pending (s t : State) (x : Item) (h : check5 s x = .inr t) : t.pending = s.pending := by
  unfold check5 at h
  dsimp only at h
  split at h
  · cases h; rfl
  · split at h
    · cases h
    · split at h
      · cases h; exact cmdSpec_eff_pending _ _ _ _ _
      · cases h

theorem check5_fair_pending (s : State) (x : Item) (f : Refused) (h : check5 s x = .inl f) : f.fair_pending := by
  unfold check5 at h
  dsimp only at h
  split at h
  · cases h
  · split at h
    · cases h; intro u; exact cmdSpec_note_pending _ _ _ _ _ _
    · split at h
      · cases h
      · cases h; intro u; simp

theorem check5_fair_dram (s : State) (x : Item) (f : Refused) (h : check5 s x = .inl f) : f.fair_dram := by
  unfold check5 at h
  dsimp only at h
  split at h
  · cases h
  · split at h
    · cases h; intro u; exact cmdSpec_note_dram _ _ _ _ _ _
    · split at h
      · cases h
      · cases h; intro u; simp

theorem checkGroup_pending (g : List Item) (s t : State) (h : checkGroup s g = .inr t) : t.pending = s.pending := by
  induction g generalizing s with
  | nil => cases h; rfl
  | cons x r ih =>
    unfold checkGroup at h
    split at h
    · cases h
    · rename_i u e; exact (ih u h).trans (check5_pending _ _ _ e)

theorem checkGroup_fair_pending (g : List Item) (s : State) (f : Refused) (h : checkGroup s g = .inl f) : f.fair_pending := by
  induction g generalizing s with
  | nil => cases h
  | cons x r ih =>
    unfold checkGroup at h
    split at h
    · rename_i e; cases h; exact check5_fair_pending _ _ _ e
    · exact ih _ h

theorem checkGroup_fair_dram (g : List Item) (s : State) (f : Refused) (h : checkGroup s g = .inl f) : f.fair_dram := by
  induction g generalizing s with
  | nil => cases h
  | cons x r ih =>
    unfold checkGroup at h
    split at h
    · rename_i e; cases h; exact check5_fair_dram _ _ _ e
    · exact ih _ h

theorem stageGroup_pending (a : Staged) (g : List Item) : (stageGroup a g).sim.pending = a.sim.pending := by
  unfold stageGroup
  split
  · rename_i e; exact checkGroup_pending _ _ _ e
  · rfl

theorem stageGroup_fair_pending (a : Staged) (g : List Item) (h : ∀ f ∈ a.no, f.fair_pending) : ∀ f ∈ (stageGroup a g).no, f.fair_pending := by
  unfold stageGroup
  split
  · exact h
  · rename_i f e
    intro x hx
    rcases List.mem_append.mp hx with hx | hx
    · exact h x hx
    · obtain ⟨y, _, rfl⟩ := List.mem_map.mp hx
      split
      · exact checkGroup_fair_pending _ _ _ e
      · intro s; rfl

theorem stageGroup_fair_dram (a : Staged) (g : List Item) (h : ∀ f ∈ a.no, f.fair_dram) : ∀ f ∈ (stageGroup a g).no, f.fair_dram := by
  unfold stageGroup
  split
  · exact h
  · rename_i f e
    intro x hx
    rcases List.mem_append.mp hx with hx | hx
    · exact h x hx
    · obtain ⟨y, _, rfl⟩ := List.mem_map.mp hx
      split
      · exact checkGroup_fair_dram _ _ _ e
      · intro s; rfl

theorem stageFold_pending (gs : List (List Item)) (a : Staged) : (gs.foldl stageGroup a).sim.pending = a.sim.pending := by
  induction gs generalizing a with
  | nil => rfl
  | cons g gs ih => exact (ih (stageGroup a g)).trans (stageGroup_pending a g)

theorem stageFold_fair_pending (gs : List (List Item)) (a : Staged) (h : ∀ f ∈ a.no, f.fair_pending) :
    ∀ f ∈ (gs.foldl stageGroup a).no, f.fair_pending := by
  induction gs generalizing a with
  | nil => exact h
  | cons g gs ih => exact ih (stageGroup a g) (stageGroup_fair_pending a g h)

theorem stageFold_fair_dram (gs : List (List Item)) (a : Staged) (h : ∀ f ∈ a.no, f.fair_dram) :
    ∀ f ∈ (gs.foldl stageGroup a).no, f.fair_dram := by
  induction gs generalizing a with
  | nil => exact h
  | cons g gs ih => exact ih (stageGroup a g) (stageGroup_fair_dram a g h)

theorem stageAll_pending (s : State) (n : Nat) (gs : List (List Item)) : (stageAll s n gs).sim.pending = s.pending := by
  induction n generalizing gs with
  | zero => exact stageFold_pending gs ⟨s, [], []⟩
  | succ n ih =>
    unfold stageAll
    dsimp only
    split
    · exact ih _
    · exact stageFold_pending gs ⟨s.claimPrep gs.flatten, [], []⟩

theorem stageGroups_pending (s : State) (gs : List (List Item)) : (stageGroups s gs).sim.pending = s.pending := stageAll_pending _ _ _

theorem stageAll_fair_pending (s : State) (n : Nat) (gs : List (List Item)) : ∀ f ∈ (stageAll s n gs).no, f.fair_pending := by
  induction n generalizing gs with
  | zero => exact stageFold_fair_pending gs ⟨s, [], []⟩ (by simp)
  | succ n ih =>
    have h := stageFold_fair_pending gs ⟨s.claimPrep gs.flatten, [], []⟩ (by simp)
    unfold stageAll
    dsimp only
    split
    · intro f hf
      rcases List.mem_append.mp hf with hf | hf
      · exact h f hf
      · exact ih _ f hf
    · exact h

theorem stageAll_fair_dram (s : State) (n : Nat) (gs : List (List Item)) : ∀ f ∈ (stageAll s n gs).no, f.fair_dram := by
  induction n generalizing gs with
  | zero => exact stageFold_fair_dram gs ⟨s, [], []⟩ (by simp)
  | succ n ih =>
    have h := stageFold_fair_dram gs ⟨s.claimPrep gs.flatten, [], []⟩ (by simp)
    unfold stageAll
    dsimp only
    split
    · intro f hf
      rcases List.mem_append.mp hf with hf | hf
      · exact h f hf
      · exact ih _ f hf
    · exact h

theorem stageGroups_fair_pending (s : State) (gs : List (List Item)) : ∀ f ∈ (stageGroups s gs).no, f.fair_pending := stageAll_fair_pending _ _ _

theorem stageGroups_fair_dram (s : State) (gs : List (List Item)) : ∀ f ∈ (stageGroups s gs).no, f.fair_dram := stageAll_fair_dram _ _ _

theorem notes_pending {g : State → Refused → State} (l : List Refused) (hl : ∀ f ∈ l, f.fair_pending)
    (hg : ∀ s f, (g s f).pending = (f.note s).pending) (s : State) : (l.foldl g s).pending = s.pending := by
  induction l generalizing s with
  | nil => rfl
  | cons f l ih =>
    rw [List.foldl_cons, ih (fun x hx => hl x (List.mem_cons_of_mem _ hx)), hg]
    exact hl f (List.mem_cons_self ..) s

theorem notes_dram {g : State → Refused → State} (l : List Refused) (hl : ∀ f ∈ l, f.fair_dram)
    (hg : ∀ s f, (g s f).dram = (f.note s).dram) (s : State) : (l.foldl g s).dram = s.dram := by
  induction l generalizing s with
  | nil => rfl
  | cons f l ih =>
    rw [List.foldl_cons, ih (fun x hx => hl x (List.mem_cons_of_mem _ hx)), hg]
    exact hl f (List.mem_cons_self ..) s

theorem refuseAll_pending (s : State) (l : List Refused) (h : ∀ f ∈ l, f.fair_pending) : (s.refuseAll l).pending = s.pending := by
  unfold State.refuseAll
  simp only [faderFullLog_kept]
  exact notes_pending l h (by simp) s

theorem refuseAll_dram (s : State) (l : List Refused) (h : ∀ f ∈ l, f.fair_dram) : (s.refuseAll l).dram = s.dram := by
  unfold State.refuseAll
  simp only [faderFullLog_kept]
  exact notes_dram l h (by simp) s

@[simp] theorem writeOut_kept (s : State) (o : CmdOut) :
    (State.writeOut s o).pending = s.pending ∧ (State.writeOut s o).dram = s.dram := by
  unfold State.writeOut; simp

theorem commitItem_pending (gs : List (List Item)) (a : Commits) (x : Item) : (commitItem gs a x).st.pending = a.st.pending := by
  unfold commitItem
  dsimp only
  cases a.verd.find? (fun v => v.1 == x.1.grp) <;> dsimp only <;> repeat' split
  all_goals simp only [cmdSpec_note_pending, cmdSpec_eff_pending]

theorem applyItems_pending (s : State) (l : List Item) : (s.applyItems l).pending = s.pending := by
  unfold State.applyItems
  dsimp only
  rw [foldl_pending _ _ _ (fun s o => by simp)]
  simp only [claimClear_kept]
  have h : ∀ (gs : List (List Item)) (xs : List Item) (a : Commits), (xs.foldl (commitItem gs) a).st.pending = a.st.pending := by
    intro gs xs; induction xs with
    | nil => intro a; rfl
    | cons x xs ih => intro a; rw [List.foldl_cons, ih, commitItem_pending]
  rw [h]; simp

theorem refate_pending (s : State) (gs : List (List Item)) : (s.refate gs).1.pending = s.pending := by
  unfold State.refate
  have h : ∀ (gs : List (List Item)) (a : State × List (List Item)), (gs.foldl (fun (a : State × List (List Item)) g => match g with
    | [] => a
    | x :: _ => match a.1.lateFate x.1.hdr with
      | .expired => (g.foldl (fun s y => s.reject y.1.hdr (opcodeOf y.1.cmd) .expired) a.1, a.2)
      | st => (a.1, a.2 ++ [g.map (fun y => ({ y.1 with late := st == .late }, y.2))])) a).1.pending = a.1.pending := by
    intro gs; induction gs with
    | nil => intro a; rfl
    | cons g gs ih =>
      intro a; rw [List.foldl_cons, ih]
      split
      · rfl
      · split
        · exact foldl_pending _ _ _ (by simp)
        · rfl
  exact h gs (s, [])

theorem refate_dram (s : State) (gs : List (List Item)) : (s.refate gs).1.dram = s.dram := by
  unfold State.refate
  have h : ∀ (gs : List (List Item)) (a : State × List (List Item)), (gs.foldl (fun (a : State × List (List Item)) g => match g with
    | [] => a
    | x :: _ => match a.1.lateFate x.1.hdr with
      | .expired => (g.foldl (fun s y => s.reject y.1.hdr (opcodeOf y.1.cmd) .expired) a.1, a.2)
      | st => (a.1, a.2 ++ [g.map (fun y => ({ y.1 with late := st == .late }, y.2))])) a).1.dram = a.1.dram := by
    intro gs; induction gs with
    | nil => intro a; rfl
    | cons g gs ih =>
      intro a; rw [List.foldl_cons, ih]
      split
      · rfl
      · split
        · exact foldl_dram _ _ _ (by simp)
        · rfl
  exact h gs (s, [])

theorem checkNow_pending (s : State) (gs : List (List Item)) : (s.checkNow gs).1.pending = s.pending := by
  unfold State.checkNow
  split
  · rfl
  · exact refuseAll_pending _ _ (stageGroups_fair_pending s gs)

@[simp] theorem releaseFreed_pending (s : State) : (s.releaseFreed).pending = s.pending := by
  unfold State.releaseFreed
  split
  · rfl
  · dsimp only
    simp only [applyItems_pending, checkNow_pending]
    rw [foldl_pending _ _ _ (fun s a => foldl_pending _ _ _ (by simp))]
    simp only [refate_pending]

@[simp] theorem commitBoundary_pending (s : State) (virt : Bool) : (s.commitBoundary virt).pending = s.pending := by
  unfold State.commitBoundary
  cases virt <;> simp [applyItems_pending, checkNow_pending, refate_pending]

theorem execFirebreakCtrl_pending (h : Hdr) (op : Nat) (s : State) :
    nextGet (execFirebreakCtrl h op s) State.pending = some s.pending := by
  unfold execFirebreakCtrl; simp

theorem execTimedCommit_pending (ring tag : Nat) (s : State) : nextGet (execTimedCommit ring tag s) State.pending = some s.pending := by
  unfold execTimedCommit
  dsimp only
  split
  · rfl
  · split
    · rfl
    · split <;> simp [applyItems_pending, checkNow_pending, refate_pending]

@[simp] theorem reserve_kept (s : State) (n k : Nat) :
    (State.reserve s n k).pending = s.pending ∧ (State.reserve s n k).dram = s.dram := by
  unfold State.reserve; simp

@[simp] theorem ringWait_kept (s : State) (n : Nat) :
    (State.ringWait s n).pending = s.pending ∧ (State.ringWait s n).dram = s.dram := by
  unfold State.ringWait; simp

@[simp] theorem slotBad_kept (s : State) (n idx : Nat) :
    (State.slotBad s n idx).pending = s.pending ∧ (State.slotBad s n idx).dram = s.dram := by
  unfold State.slotBad; simp

@[simp] theorem takeGroup_kept (s : State) (n : Nat) (l : List Desc) (ended : Bool) :
    (State.takeGroup s n l ended).pending = s.pending ∧ (State.takeGroup s n l ended).dram = s.dram := by
  unfold State.takeGroup; simp

theorem pickTake_pending (a : Pick) (n : Nat) (l : List Desc) (o : Bool) : (a.take n l o).1.st.pending = a.st.pending := by
  unfold Pick.take
  dsimp only
  repeat' split
  all_goals simp

theorem pickTake_dram (a : Pick) (n : Nat) (l : List Desc) (o : Bool) : (a.take n l o).1.st.dram = a.st.dram := by
  unfold Pick.take
  dsimp only
  repeat' split
  all_goals simp

theorem pickRing_pending (a : Pick) (n f : Nat) (l : List Desc) : (a.ring n f l).st.pending = a.st.pending := by
  induction f generalizing a l with
  | zero => rfl
  | succ f ih =>
    unfold Pick.ring
    split
    · rfl
    · split
      · rfl
      · simp
      · dsimp only
        split
        · rw [ih]; exact pickTake_pending _ _ _ _
        · exact pickTake_pending _ _ _ _
      · dsimp only
        have e : ∀ (c : Bool) (b : Pick) (f : Ring → Ring), (if c then { b with st := b.st.updRing n f } else b).st.pending = b.st.pending := by
          intro c b f; cases c <;> simp
        split
        · rw [ih, e]; exact pickTake_pending _ _ _ _
        · rw [e]; exact pickTake_pending _ _ _ _

theorem pickRing_dram (a : Pick) (n f : Nat) (l : List Desc) : (a.ring n f l).st.dram = a.st.dram := by
  induction f generalizing a l with
  | zero => rfl
  | succ f ih =>
    unfold Pick.ring
    split
    · rfl
    · split
      · rfl
      · simp
      · dsimp only
        split
        · rw [ih]; exact pickTake_dram _ _ _ _
        · exact pickTake_dram _ _ _ _
      · dsimp only
        have e : ∀ (c : Bool) (b : Pick) (f : Ring → Ring), (if c then { b with st := b.st.updRing n f } else b).st.dram = b.st.dram := by
          intro c b f; cases c <;> simp
        split
        · rw [ih, e]; exact pickTake_dram _ _ _ _
        · rw [e]; exact pickTake_dram _ _ _ _

@[simp] theorem pickCmd_pending (s : State) (l : List (Nat × Desc)) : (s.pickCmd l).pending = s.pending := by
  unfold State.pickCmd
  dsimp only
  have h : ∀ (xs : List Nat) (a : Pick), (xs.foldl (fun (a : Pick) n =>
      if a.limited.isSome then a else let l := fetchedOf l n; a.ring n l.length l) a).st.pending = a.st.pending := by
    intro xs; induction xs with
    | nil => intro a; rfl
    | cons x xs ih =>
      intro a; rw [List.foldl_cons, ih]
      split
      · rfl
      · exact pickRing_pending _ _ _ _
  rw [h]

@[simp] theorem pickCmd_dram (s : State) (l : List (Nat × Desc)) : (s.pickCmd l).dram = s.dram := by
  unfold State.pickCmd
  dsimp only
  have h : ∀ (xs : List Nat) (a : Pick), (xs.foldl (fun (a : Pick) n =>
      if a.limited.isSome then a else let l := fetchedOf l n; a.ring n l.length l) a).st.dram = a.st.dram := by
    intro xs; induction xs with
    | nil => intro a; rfl
    | cons x xs ih =>
      intro a; rw [List.foldl_cons, ih]
      split
      · rfl
      · exact pickRing_dram _ _ _ _
  rw [h]

@[simp] theorem dataTake_kept (s : State) (n : Nat) (d : Desc) :
    (State.dataTake s n d).pending = s.pending ∧ (State.dataTake s n d).dram = s.dram := by
  unfold State.dataTake
  repeat' split
  all_goals simp

@[simp] theorem dataRing_pending (s : State) (n : Nat) (l : List Desc) : (s.dataRing n l).pending = s.pending := by
  induction l generalizing s with
  | nil => rfl
  | cons d l ih => unfold State.dataRing; simp [ih]

@[simp] theorem dataRing_dram (s : State) (n : Nat) (l : List Desc) : (s.dataRing n l).dram = s.dram := by
  induction l generalizing s with
  | nil => rfl
  | cons d l ih => unfold State.dataRing; simp [ih]

@[simp] theorem pickup_pending (s : State) (l : List (Nat × Desc)) : (s.pickup l).pending = s.pending := by
  unfold State.pickup; simp

@[simp] theorem pickup_dram (s : State) (l : List (Nat × Desc)) : (s.pickup l).dram = s.dram := by
  unfold State.pickup; simp

@[simp] theorem pendFull_kept (s : State) (l : List Nat) :
    (State.pendFull s l).pending = s.pending ∧ (State.pendFull s l).dram = s.dram := by
  unfold State.pendFull; simp

@[simp] theorem fireVerdicts_pending (s sim : State) (next : TS) : (s.fireVerdicts sim next).pending = s.pending := by
  unfold State.fireVerdicts
  dsimp only
  simp only [faderFullLog_kept]
  exact notes_pending _ (stageGroups_fair_pending _ _) (by simp) s

theorem enterGroups_pending (gs : List (List Item)) (a : Enter) (h : ∀ f ∈ a.no, f.fair_pending) : ∀ f ∈ (gs.foldl enterGroup a).no, f.fair_pending := by
  induction gs generalizing a with
  | nil => exact h
  | cons g gs ih =>
    apply ih
    unfold enterGroup
    dsimp only
    split
    · exact h
    · split
      · exact h
      · intro f hf
        rcases List.mem_append.mp hf with hf | hf
        · exact h f hf
        · obtain ⟨x, _, rfl⟩ := List.mem_map.mp hf; intro s; rfl

theorem enterGroups_dram (gs : List (List Item)) (a : Enter) (h : ∀ f ∈ a.no, f.fair_dram) : ∀ f ∈ (gs.foldl enterGroup a).no, f.fair_dram := by
  induction gs generalizing a with
  | nil => exact h
  | cons g gs ih =>
    apply ih
    unfold enterGroup
    dsimp only
    split
    · exact h
    · split
      · exact h
      · intro f hf
        rcases List.mem_append.mp hf with hf | hf
        · exact h f hf
        · obtain ⟨x, _, rfl⟩ := List.mem_map.mp hf; intro s; rfl

theorem fireRefused_pending (l : List (List Item)) : ∀ f ∈ l.flatMap fireRefused, f.fair_pending := by
  intro f hf
  obtain ⟨g, _, hg⟩ := List.mem_flatMap.mp hf
  obtain ⟨x, _, rfl⟩ := List.mem_map.mp hg
  intro s; rfl

theorem fireRefused_dram (l : List (List Item)) : ∀ f ∈ l.flatMap fireRefused, f.fair_dram := by
  intro f hf
  obtain ⟨g, _, hg⟩ := List.mem_flatMap.mp hf
  obtain ⟨x, _, rfl⟩ := List.mem_map.mp hg
  intro s; rfl

@[simp] theorem stageTick_pending (s : State) (all : Bool) : (s.stageTick all).pending = s.pending := by
  unfold State.stageTick
  dsimp only
  simp only [ledger_kept, pending_ite, fireVerdicts_pending, pendFull_kept, ite_self]
  rw [refuseAll_pending]
  intro f hf
  rcases List.mem_append.mp hf with hf | hf
  · rcases List.mem_append.mp hf with hf | hf
    · exact fireRefused_pending _ f hf
    · exact enterGroups_pending _ _ (by simp) f hf
  · exact (stageGroups_fair_pending _ _) f hf

@[simp] theorem ainPlace_kept (s : State) (x : TickIn) (n : Nat) :
    (State.ainPlace s x n).pending = s.pending ∧ (State.ainPlace s x n).dram = s.dram := by
  unfold State.ainPlace; simp

@[simp] theorem pdmPlace_kept (s : State) (x : TickIn) (n : Nat) :
    (State.pdmPlace s x n).pending = s.pending ∧ (State.pdmPlace s x n).dram = s.dram := by
  unfold State.pdmPlace; simp

@[simp] theorem trailPlace_kept (s : State) (x : TickIn) :
    (State.trailPlace s x).pending = s.pending ∧ (State.trailPlace s x).dram = s.dram := by
  unfold State.trailPlace; simp

@[simp] theorem biasMon_kept (s : State) (l : List (Nat × Nat)) :
    (State.biasMon s l).pending = s.pending ∧ (State.biasMon s l).dram = s.dram := by
  unfold State.biasMon; simp

@[simp] theorem placeInputs_kept (s : State) (x : TickIn) :
    (State.placeInputs s x).pending = s.pending ∧ (State.placeInputs s x).dram = s.dram := by
  unfold State.placeInputs; simp

@[simp] theorem ainRamps_kept (s : State) (n : Nat) :
    (State.ainRamps s n).pending = s.pending ∧ (State.ainRamps s n).dram = s.dram := by
  unfold State.ainRamps; simp

@[simp] theorem pdmRamps_kept (s : State) (n : Nat) :
    (State.pdmRamps s n).pending = s.pending ∧ (State.pdmRamps s n).dram = s.dram := by
  unfold State.pdmRamps; simp

@[simp] theorem allRamps_kept (s : State) :
    (State.allRamps s).pending = s.pending ∧ (State.allRamps s).dram = s.dram := by
  unfold State.allRamps
  try simp
  repeat' ((first | split | (intro; split)) <;> try simp)
  all_goals (first | done | (intros; simp; done) | (apply foldl_pending; intro s a; repeat' (split <;> try simp)))

@[simp] theorem ainFirst_kept (s : State) :
    (State.ainFirst s).pending = s.pending ∧ (State.ainFirst s).dram = s.dram := by
  unfold State.ainFirst; simp

@[simp] theorem outFirst_kept (s : State) :
    (State.outFirst s).pending = s.pending ∧ (State.outFirst s).dram = s.dram := by
  unfold State.outFirst; simp

@[simp] theorem firstTick_kept (s : State) :
    (State.firstTick s).pending = s.pending ∧ (State.firstTick s).dram = s.dram := by
  unfold State.firstTick; simp

@[simp] theorem setConv_kept (s : State) (k : Nat) (v : Int) :
    (State.setConv s k v).pending = s.pending ∧ (State.setConv s k v).dram = s.dram := by
  unfold State.setConv; simp

@[simp] theorem convTick_kept (s : State) :
    (State.convTick s).pending = s.pending ∧ (State.convTick s).dram = s.dram := by
  unfold State.convTick; simp

@[simp] theorem convStep_kept (s : State) (dl : List (Nat × Int)) :
    (State.convStep s dl).pending = s.pending ∧ (State.convStep s dl).dram = s.dram := by
  unfold State.convStep; simp

@[simp] theorem countOutputs_kept (s : State) :
    (State.countOutputs s).pending = s.pending ∧ (State.countOutputs s).dram = s.dram := by
  unfold State.countOutputs; simp

@[simp] theorem avClear_kept (s : State) :
    (State.avClear s).pending = s.pending ∧ (State.avClear s).dram = s.dram := by
  unfold State.avClear; simp

@[simp] theorem timeouts_kept (s : State) :
    (State.timeouts s).pending = s.pending ∧ (State.timeouts s).dram = s.dram := by
  unfold State.timeouts; simp

theorem execWaitTimeout_kept (s : State) :
    nextGet (execWaitTimeout s) State.kept = some s.kept := by
  unfold execWaitTimeout; simp

@[simp] theorem closeData_kept (s : State) (x : TickIn) :
    (State.closeData s x).pending = s.pending ∧ (State.closeData s x).dram = s.dram := by
  unfold State.closeData; simp

@[simp] theorem pendFullLog_kept (s : State) :
    (State.pendFullLog s).pending = s.pending ∧ (State.pendFullLog s).dram = s.dram := by
  unfold State.pendFullLog; simp

@[simp] theorem countCe_kept (s : State) (x : Nat × Nat) :
    (State.countCe s x).pending = s.pending ∧ (State.countCe s x).dram = s.dram := by
  unfold State.countCe; simp

@[simp] theorem closePhases_pending (s : State) (x : TickIn) (gap : Bool) :
    (State.closePhases s x gap).pending = s.pending := by
  unfold State.closePhases; simp

@[simp] theorem closeTick_pending (s : State) (x : TickIn) :
    (State.closeTick s x).pending = s.pending := by
  unfold State.closeTick; simp

@[simp] theorem openTime_kept (s : State) (dt : DT) :
    (State.openTime s dt).pending = s.pending ∧ (State.openTime s dt).dram = s.dram := by
  unfold State.openTime; simp

@[simp] theorem rateDone_kept (s : State) :
    (State.rateDone s).pending = s.pending ∧ (State.rateDone s).dram = s.dram := by
  unfold State.rateDone
  repeat' split
  all_goals simp

@[simp] theorem dueWrites_kept (s : State) :
    (State.dueWrites s).pending = s.pending ∧ (State.dueWrites s).dram = s.dram := by
  unfold State.dueWrites; simp

@[simp] theorem openWrites_kept (s : State) :
    (State.openWrites s).pending = s.pending ∧ (State.openWrites s).dram = s.dram := by
  unfold State.openWrites; simp

@[simp] theorem resumeRamps_kept (s : State) :
    (State.resumeRamps s).pending = s.pending ∧ (State.resumeRamps s).dram = s.dram := by
  unfold State.resumeRamps
  try simp
  repeat' ((first | split | (intro; split)) <;> try simp)

@[simp] theorem openConfig_pending (s : State) (virt : Bool) :
    (State.openConfig s virt).pending = s.pending := by
  unfold State.openConfig; simp

@[simp] theorem openArrivals_kept (s : State) (x : TickIn) :
    (State.openArrivals s x).pending = s.pending ∧ (State.openArrivals s x).dram = s.dram := by
  unfold State.openArrivals; simp

@[simp] theorem interErrors_kept (s : State) :
    (State.interErrors s).pending = s.pending ∧ (State.interErrors s).dram = s.dram := by
  unfold State.interErrors; simp

@[simp] theorem edgesUsed_kept (s : State) :
    (State.edgesUsed s).pending = s.pending ∧ (State.edgesUsed s).dram = s.dram := by
  unfold State.edgesUsed; simp

@[simp] theorem computeTick_pending (s : State) (absent : List (Nat × List Nat)) :
    (State.computeTick s absent).pending = s.pending := by
  unfold State.computeTick
  try simp
  repeat' ((first | split | (intro; split)) <;> try simp)
  all_goals (first | done | (intros; simp; done) | (apply foldl_pending; intro s a; repeat' (split <;> try simp)))

@[simp] theorem openTick_pending (s : State) (x : TickIn) (first virt : Bool) :
    (State.openTick s x first virt).pending = s.pending := by
  unfold State.openTick
  try simp
  repeat' ((first | split | (intro; split)) <;> try simp)
  all_goals (first | done | (intros; simp; done) | (apply foldl_pending; intro s a; repeat' (split <;> try simp)))

theorem execTickBoundary_pending (x : TickIn) (s : State) :
    nextGet (execTickBoundary x s) State.pending = some s.pending := by
  unfold execTickBoundary; simp

@[simp] theorem tapSteps_kept (s : State) (x : StepIn) :
    (State.tapSteps s x).pending = s.pending ∧ (State.tapSteps s x).dram = s.dram := by
  unfold State.tapSteps; simp

@[simp] theorem stepWork_kept (s : State) (x : StepIn) :
    (State.stepWork s x).pending = s.pending ∧ (State.stepWork s x).dram = s.dram := by
  unfold State.stepWork
  try simp
  repeat' ((first | split | (intro; split)) <;> try simp)
  all_goals (first | done | (intros; simp; done) | (apply foldl_pending; intro s a; repeat' (split <;> try simp)))

theorem execStepBoundary_kept (x : StepIn) (s : State) :
    nextGet (execStepBoundary x s) State.kept = some s.kept := by
  unfold execStepBoundary; simp

end Sys2Proof.Machine
end

