-- ==== Sys2Proof/Laws/Commands.lean ====
section
/-! SUPPORT. A command at its commit boundary: what its write-back leaves alone, when it runs, when admission takes it. -/
namespace Sys2Proof.Safety
open Sys2Proof.Machine

/-! ## Registers left alone -/

theorem RegsBut.refl (l : List Nat) (s : State) : RegsBut l s s := fun _ _ _ => rfl

theorem RegsBut.trans {l : List Nat} {s t u : State} (h : RegsBut l s t) (k : RegsBut l t u) : RegsBut l s u :=
  fun o a b => (k o a b).trans (h o a b)

theorem RegsBut.mono {l m : List Nat} {s t : State} (h : RegsBut l s t) (k : ∀ o ∈ l, o ∈ m) : RegsBut m s t :=
  fun o a b => h o a (fun c => b (k o c))

theorem RegsBut.of_regs {l : List Nat} {s t : State} (h : t.regs = s.regs) : RegsBut l s t := fun o _ _ => State.rd_congr h o

theorem RegsBut.wr {l : List Nat} (s : State) {o : Nat} (v : Word) (h : o ∈ l) : RegsBut l s (s.wr o v) :=
  fun _ _ b => s.rd_wr_ne (fun e => b (by rw [e]; exact h)) v

theorem RegsBut.setFld {l : List Nat} (s : State) {f : Field} (v : Nat) (h : f.off ∈ l) : RegsBut l s (s.setFld f v) :=
  RegsBut.wr s _ h

theorem RegsBut.bump {l : List Nat} (s : State) {o : Nat} (h : o ∈ l) : RegsBut l s (s.bump o) := RegsBut.wr s _ h

theorem logReg_off {o : Nat} (h : logReg o = false) : o < 0x13020 ∨ 0x13040 < o := by
  simp only [logReg, Bool.and_eq_false_iff, decide_eq_false_iff_not] at h; omega

theorem RegsBut.stage (l : List Nat) (s : State) (e : Ev) : RegsBut l s (s.stage e) := fun _ a _ => stage_rd _ _ (logReg_off a)

theorem RegsBut.logAt (l : List Nat) (s : State) (src code sev : Nat) (dt : DT) (p0 p1 p2 : Word) :
    RegsBut l s (s.logAt src code sev dt p0 p1 p2) := fun _ a _ => stage_rd _ _ (logReg_off a)

theorem RegsBut.log (l : List Nat) (s : State) (src code sev : Nat) (p0 p1 p2 : Word) :
    RegsBut l s (s.log src code sev p0 p1 p2) := fun _ a _ => stage_rd _ _ (logReg_off a)

theorem RegsBut.logLim (l : List Nat) (s : State) (src code sev key cp n : Nat) (dt : DT) (p0 p1 p2 : Word) :
    RegsBut l s (s.logLim src code sev key cp n dt p0 p1 p2) := fun _ a _ => logLim_rd _ _ _ _ _ _ _ _ _ _ _ (logReg_off a)

theorem RegsBut.hstErr (s : State) {f : Field} (h : f.off = Reg.HST_ERR) : RegsBut wbRegs s (s.hstErr f) :=
  fun o _ b => hstErr_rd s f (fun e => b (by simp [e, h]))

theorem RegsBut.winViol (s : State) (u : Nat) (a : Addr) : RegsBut wbRegs s (s.winViol u a) := by
  unfold State.winViol
  exact ((RegsBut.bump s (by simp)).trans (RegsBut.hstErr _ rfl)).trans (RegsBut.log _ _ _ _ _ _ _ _)

theorem RegsBut.drainBreak (l : List Nat) (s : State) (r : Nat) : RegsBut l s (s.drainBreak r) := RegsBut.of_regs (by simp)

theorem RegsBut.ringErr1 (s : State) (n why : Nat) : RegsBut wbRegs s (s.ringErr1 n why) := by
  unfold State.ringErr1
  dsimp only
  split
  · refine RegsBut.trans ?_ (((RegsBut.hstErr _ rfl).trans (RegsBut.log _ _ _ _ _ _ _ _)).trans (RegsBut.drainBreak _ _ _))
    generalize hu : s.setRing n _ = u
    have k : RegsBut wbRegs s u := RegsBut.of_regs (by rw [← hu]; rfl)
    split
    · exact k
    · exact k.trans (RegsBut.wr _ _ (by simp))
  · exact RegsBut.refl _ _

theorem RegsBut.foldl {α : Type} {l : List Nat} (f : State → α → State) (k : ∀ s a, RegsBut l s (f s a)) (xs : List α) (s : State) :
    RegsBut l s (xs.foldl f s) := by
  induction xs generalizing s with
  | nil => exact RegsBut.refl _ _
  | cons a xs ih => exact (k s a).trans (ih _)

theorem RegsBut.ringErr (s : State) (n why : Nat) : RegsBut wbRegs s (s.ringErr n why) := by
  unfold State.ringErr
  dsimp only
  split
  · refine (RegsBut.ringErr1 s n why).trans (RegsBut.foldl _ ?_ _ _)
    intro s a; split
    · exact RegsBut.ringErr1 _ _ _
    · exact RegsBut.refl _ _
  · exact RegsBut.ringErr1 s n why

theorem RegsBut.putWb (s : State) (cpl op : Nat) (st : Status) (tag : BitVec 8) (ts : TS) (dt : DT) (r0 r1 r2 : Word) :
    RegsBut wbRegs s (s.putWb cpl op st tag ts dt r0 r1 r2) := by
  unfold State.putWb
  dsimp only
  split
  · split
    · exact (RegsBut.winViol _ _ _).trans (RegsBut.ringErr _ _ _)
    · exact RegsBut.of_regs rfl
  · exact RegsBut.refl _ _

theorem RegsBut.complete (s : State) (h : Hdr) (op : Nat) (st : Status) (ts : TS) (dt : DT) (r0 r1 r2 : Word) (force : Bool) :
    RegsBut wbRegs s (s.complete h op st ts dt r0 r1 r2 force) := by
  unfold State.complete
  dsimp only
  split
  · exact RegsBut.refl _ _
  · split
    · exact RegsBut.putWb _ _ _ _ _ _ _ _ _ _
    · exact RegsBut.of_regs rfl

theorem RegsBut.badDesc (l : List Nat) (s : State) (h : Hdr) (op : Nat) (st : Status) : RegsBut l s (s.badDesc h op st) := by
  unfold State.badDesc
  split
  · exact RegsBut.logLim _ _ _ _ _ _ _ _ _ _ _ _
  · exact RegsBut.refl _ _

theorem RegsBut.reject (s : State) (h : Hdr) (op : Nat) (st : Status) : RegsBut wbRegs s (s.reject h op st) :=
  (RegsBut.badDesc _ _ _ _ _).trans (RegsBut.complete _ _ _ _ _ _ _ _ _ _)

theorem RegsBut.rejectStaged (s : State) (h : Hdr) (op : Nat) (st : Status) : RegsBut wbRegs s (s.rejectStaged h op st) :=
  (RegsBut.badDesc _ _ _ _ _).trans (RegsBut.complete _ _ _ _ _ _ _ _ _ _)

theorem RegsBut.finish (h : Hdr) (op : Nat) (late : Bool) (d : Done) : RegsBut wbRegs d.st (State.finish h op late d) := by
  unfold State.finish
  dsimp only
  split
  · exact RegsBut.refl _ _
  · exact (RegsBut.badDesc _ _ _ _ _).trans (RegsBut.complete _ _ _ _ _ _ _ _ _ _)

/-! ## A command that runs -/

theorem whenOf_ready {s : State} {h : Hdr} (r : Ready s h) : whenOf s h = .now := by
  unfold whenOf lateness tsDiff
  rcases r.2.2.2.2 with e | e
  · simp [e]
  · cases h.timed <;> simp [e]

theorem headerOk_ready {s : State} {h : Hdr} (r : Ready s h) : headerOk s h [0] = true := by
  obtain ⟨a, b, c, -⟩ := r
  simp [headerOk, a, b, c]

/-- A command that passes its checks and admission has its effect, with its write-back. -/
theorem runCmd_ready {s : State} {h : Hdr} (r : Ready s h) (c : Cmd) (op : Nat) (eff : State → Done) (onR : Status → State → State)
    {v k : Bool} {x : Status} (hv : v = true) (hk : k = true) (hx : x = .ok) (ha : admitCheck s (eff s).st = none) :
    s.runCmd h c op v k x eff onR = State.finish h op false (eff s) := by
  subst hv hk hx
  simp [State.runCmd, headerOk_ready r, whenOf_ready r, r.2.2.2.1, State.admitted, ha]

theorem keyUnion_self (a : List Nat) (n : Nat) (h : a.length ≤ n) : keyUnion a a n = if n = 0 then a ++ a else a := by
  induction a generalizing n with
  | nil => cases n <;> simp [keyUnion]
  | cons x r ih =>
    cases n with
    | zero => simp at h
    | succ n =>
      unfold keyUnion
      simp only [Nat.lt_irrefl, if_false]
      rw [ih n (by simpa using h)]
      by_cases e : n = 0
      · subst e
        have : r = [] := by simpa using h
        simp [this]
      · simp [e]

theorem unionKeys_self (a : List Nat) : unionKeys a a = a := by
  unfold unionKeys
  rw [keyUnion_self a _ (by omega)]
  split
  · have : a.length = 0 := by omega
    simp [List.length_eq_zero_iff.mp this]
  · rfl

/-- Admission takes a command that leaves the priced engines as they are. -/
theorem admit_same {s t : State} (h1 : t.thk = s.thk) (h2 : t.sel = s.sel) (h3 : t.fx = s.fx) (h4 : t.clip = s.clip)
    (h5 : t.loop = s.loop) (h6 : t.net = s.net) (h7 : t.clk.rate = s.clk.rate) (h8 : t.time.ts = s.time.ts) :
    admitCheck s t = none := by
  have e : ∀ n, t.costs s.clk.rate n = s.costs s.clk.rate n := by
    intro n
    simp only [State.costs, State.thkCost, State.fxCost, State.fxUnits, State.fxSlots, State.fxLive, State.fxWord, State.clipCost,
      State.dramCost, h1, h2, h3, h4, h5, h6, h7, h8]
    rfl
  have k : t.thkNodes = s.thkNodes := by simp only [State.thkNodes, State.nodeKeys, h1]
  unfold admitCheck
  dsimp only
  rw [k, unionKeys_self, e]
  simp

end Sys2Proof.Safety
end

