-- ==== Sys2Proof/Laws/Shapes.lean ====
section
/-! SUPPORT. What the log, an error flag and a write-back make of a state, said as one record: the fields they may change
and the state they leave otherwise. A proof rewrites with these and never unfolds the operations. -/
namespace Sys2Proof.Machine

theorem stage_shape (s : State) (e : Ev) : s.stage e = { s with blz := (s.stage e).blz, regs := (s.stage e).regs } := by
  apply State.ext <;> simp

theorem logAt_shape (s : State) (src code sev : Nat) (dt : DT) (p0 p1 p2 : Word) :
    s.logAt src code sev dt p0 p1 p2 = { s with blz := (s.logAt src code sev dt p0 p1 p2).blz,
                                                 regs := (s.logAt src code sev dt p0 p1 p2).regs } := by
  apply State.ext <;> simp

theorem logLim_shape (s : State) (src code sev key cp n : Nat) (dt : DT) (p0 p1 p2 : Word) :
    s.logLim src code sev key cp n dt p0 p1 p2 = { s with blz := (s.logLim src code sev key cp n dt p0 p1 p2).blz,
                                                           regs := (s.logLim src code sev key cp n dt p0 p1 p2).regs } := by
  apply State.ext <;> simp

theorem hstErr_shape (s : State) (f : Field) : s.hstErr f = { s with host := (s.hstErr f).host, regs := (s.hstErr f).regs } := by
  apply State.ext <;> simp

theorem alertSet_shape (s : State) (f : Field) :
    s.alertSet f = { s with twb := (s.alertSet f).twb, regs := (s.alertSet f).regs } := by
  apply State.ext <;> simp

theorem fltSet_shape (s : State) (f : Field) : s.fltSet f = { s with twb := (s.fltSet f).twb, regs := (s.fltSet f).regs } := by
  apply State.ext <;> simp

theorem complete_shape (s : State) (h : Hdr) (op : Nat) (st : Status) (ts : TS) (dt : DT) (r0 r1 r2 : Word) (force : Bool) :
    s.complete h op st ts dt r0 r1 r2 force = { s with
      host := (s.complete h op st ts dt r0 r1 r2 force).host, blz := (s.complete h op st ts dt r0 r1 r2 force).blz,
      regs := (s.complete h op st ts dt r0 r1 r2 force).regs } := by
  apply State.ext <;> simp

theorem finish_shape (h : Hdr) (op : Nat) (late : Bool) (d : Done) :
    State.finish h op late d = { d.st with
      host := (State.finish h op late d).host, blz := (State.finish h op late d).blz, regs := (State.finish h op late d).regs } := by
  apply State.ext <;> simp

/-- What the log becomes rests on Blaze, on whether the core is powered, and on the epoch. -/
theorem logAt_blz_congr {s t : State} (h1 : t.blz = s.blz) (h2 : t.pwr = s.pwr) (h3 : t.time.epoch = s.time.epoch)
    (src code sev : Nat) (dt : DT) (p0 p1 p2 : Word) :
    (t.logAt src code sev dt p0 p1 p2).blz = (s.logAt src code sev dt p0 p1 p2).blz := by
  have h4 : t.coreDown = s.coreDown := by simp only [State.coreDown, h2]
  unfold State.logAt State.stage
  simp only [h1, h3, h4]
  generalize stageInto _ _ _ = x; obtain ⟨q, d, co⟩ := x
  cases d <;> cases co <;> cases s.coreDown <;> simp [State.countDrop, State.bump, State.bumpBy, State.wr] <;> split <;> rfl

end Sys2Proof.Machine
end

