-- ==== Sys2Proof/Laws/Blocks.lean ====
section
/-! SUPPORT. The channel tables of the analog and digital microphone inputs, and single bits of a register: a read after a
write, and what a write leaves alone. -/
namespace Sys2Proof.Machine

@[simp] theorem setAin_ainCh (s : State) (n : Nat) (c : AinCh) : (s.setAin n c).ainCh n = c := by simp [State.ainCh, State.setAin]
theorem setAin_ainCh_ne (s : State) {n m : Nat} (h : m ≠ n) (c : AinCh) : (s.setAin n c).ainCh m = s.ainCh m := by
  simp [State.ainCh, State.setAin, smGet_set_ne, h]
@[simp] theorem setPdm_pdmCh (s : State) (n : Nat) (c : PdmCh) : (s.setPdm n c).pdmCh n = c := by simp [State.pdmCh, State.setPdm]
theorem setPdm_pdmCh_ne (s : State) {n m : Nat} (h : m ≠ n) (c : PdmCh) : (s.setPdm n c).pdmCh m = s.pdmCh m := by
  simp [State.pdmCh, State.setPdm, smGet_set_ne, h]
@[simp] theorem ainCh_wr (s : State) (o : Nat) (v : Word) (n : Nat) : (s.wr o v).ainCh n = s.ainCh n := rfl
@[simp] theorem ainCh_setBit (s : State) (o : Nat) (v : Nat) (n : Nat) : (s.setBit o v).ainCh n = s.ainCh n := rfl
@[simp] theorem ainCh_advance (s : State) (d : DT) (n : Nat) : (s.advance d).ainCh n = s.ainCh n := rfl
@[simp] theorem pdmCh_advance (s : State) (d : DT) (n : Nat) : (s.advance d).pdmCh n = s.pdmCh n := rfl
theorem bitN_lor (n i : Nat) : bitN (Nat.lor n (2^i)) i = true := by
  have := Nat.testBit_or n (2^i) i
  simp only [Nat.testBit_two_pow_self, Bool.or_true] at this
  have e : bitN (Nat.lor n (2^i)) i = (n ||| 2^i).testBit i := by
    rw [Nat.testBit_eq_decide_div_mod_eq]; rfl
  rw [e, this]
theorem bit_setBit (s : State) (o i : Nat) (h : i < 32) : (s.setBit o i).bit o i = true := by
  simp only [State.bit, State.setBit, State.rd_wr_self, wN, BitVec.toNat_ofNat]
  rw [Nat.mod_eq_of_lt]; exact bitN_lor _ _
  exact Nat.or_lt_two_pow (s.rd o).isLt (Nat.pow_lt_pow_right (by omega) h)
@[simp] theorem logAt_bit (s : State) (src code sev : Nat) (dt : DT) (p0 p1 p2 : Word) (o i : Nat) (h : o < 0x13020 ∨ 0x13040 < o) :
   (s.logAt src code sev dt p0 p1 p2).bit o i = s.bit o i := by
  simp [State.bit, logAt_rd, h]
end Sys2Proof.Machine
end

