-- ==== Sys2Proof/Laws/Memory.lean ====
section
/-! SUPPORT. Device DRAM: every store keeps the canonical form, a byte read after a store is the byte stored, every other byte
is as before. -/
namespace Sys2Proof.Machine

theorem memWfFrom_mono {lo hi : Nat} (h : lo ≤ hi) (m : List Host.Cell) (w : memWfFrom hi m = true) : memWfFrom lo m = true := by
  cases m with
  | nil => rfl
  | cons c r =>
    obtain ⟨k, b⟩ := c
    simp only [memWfFrom, Bool.and_eq_true, decide_eq_true_eq] at w ⊢
    exact ⟨⟨Nat.le_trans h w.1.1, w.1.2⟩, w.2⟩

theorem memWfFrom_put {lo : Nat} (m : List Host.Cell) (a : Nat) (b : Byte) (h : lo ≤ a) (w : memWfFrom lo m = true) :
    memWfFrom lo (memPut m a b) = true := by
  induction m generalizing lo with
  | nil =>
    by_cases e : b = memBlank
    · simp [memPut, e, memWfFrom]
    · have e' : ¬ b = 0#8 := e
      simp [memPut, e', memWfFrom, h]
  | cons c r ih =>
    obtain ⟨k, v⟩ := c
    have w' := w
    simp only [memWfFrom, Bool.and_eq_true, decide_eq_true_eq] at w'
    unfold memPut
    split
    · rename_i l
      split
      · exact w
      · rename_i e
        simp only [memWfFrom, Bool.and_eq_true, decide_eq_true_eq, bne_iff_ne, ne_eq]
        refine ⟨⟨h, e⟩, ⟨by omega, ?_⟩, w'.2⟩
        simpa using w'.1.2
    · split
      · rename_i e; subst e
        split
        · exact memWfFrom_mono (by omega) r w'.2
        · rename_i n
          simp only [memWfFrom, Bool.and_eq_true, decide_eq_true_eq, bne_iff_ne, ne_eq]
          exact ⟨⟨h, n⟩, w'.2⟩
      · simp only [memWfFrom, Bool.and_eq_true, decide_eq_true_eq]
        exact ⟨w'.1, ih (by omega) w'.2⟩

/-- One byte stored keeps the canonical form. -/
theorem memWf_put (m : List Host.Cell) (a : Nat) (b : Byte) (w : memWf m = true) : memWf (memPut m a b) = true :=
  memWfFrom_put m a b (Nat.zero_le a) w

/-- A number stored keeps the canonical form. -/
theorem memWf_write (m : List Host.Cell) (a v n : Nat) (w : memWf m = true) : memWf (memWrite m a v n) = true := by
  induction n generalizing m a v with
  | zero => exact w
  | succ n ih => exact ih _ _ _ (memWf_put m a _ w)

/-- A list of bytes stored keeps the canonical form. -/
theorem memWf_bytes (m : List Host.Cell) (a : Nat) (l : List Byte) (w : memWf m = true) : memWf (memBytes m a l) = true := by
  induction l generalizing m a with
  | nil => exact w
  | cons b r ih => exact ih _ _ (memWf_put m a b w)

theorem memGet_below {lo : Nat} (m : List Host.Cell) (a : Nat) (h : a < lo) (w : memWfFrom lo m = true) : memGet m a = memBlank := by
  cases m with
  | nil => rfl
  | cons c r =>
    obtain ⟨k, b⟩ := c
    simp only [memWfFrom, Bool.and_eq_true, decide_eq_true_eq] at w
    unfold memGet
    rw [if_neg (by omega), if_pos (by omega)]

theorem memGet_putFrom {lo : Nat} (m : List Host.Cell) (a : Nat) (b : Byte) (w : memWfFrom lo m = true) (x : Nat) :
    memGet (memPut m a b) x = if x = a then b else memGet m x := by
  induction m generalizing lo with
  | nil =>
    by_cases e : b = memBlank
    · by_cases h : x = a <;> simp [memPut, e, h, memGet]
    · have e' : ¬ b = 0#8 := e
      by_cases h : x = a
      · simp [memPut, e', h, memGet]
      · simp [memPut, e', h, memGet, Ne.symm h]
  | cons c r ih =>
    obtain ⟨k, v⟩ := c
    simp only [memWfFrom, Bool.and_eq_true, decide_eq_true_eq] at w
    unfold memPut
    split
    · rename_i l
      split
      · rename_i e
        by_cases h : x = a
        · subst h; subst e; unfold memGet; rw [if_neg (by omega), if_pos l]; simp
        · simp [h]
      · by_cases h : x = a
        · subst h; simp [memGet]
        · rw [if_neg h, memGet, if_neg (Ne.symm h)]
          by_cases g : x < a
          · rw [if_pos g]; unfold memGet; rw [if_neg (by omega), if_pos (by omega)]
          · rw [if_neg g]
    · split
      · rename_i e; subst e
        split
        · rename_i e
          by_cases h : x = a
          · subst h; subst e; rw [memGet_below r x (by omega) w.2]; simp
          · rw [if_neg h]
            by_cases g : x < a
            · rw [memGet_below r x (by omega) w.2, memGet, if_neg (Ne.symm h), if_pos g]
            · rw [memGet, if_neg (Ne.symm h), if_neg g]
        · by_cases h : x = a
          · subst h; simp [memGet]
          · simp [memGet, h, Ne.symm h]
      · rename_i l n
        by_cases h : k = x
        · subst h; rw [memGet, if_pos rfl, if_neg (by omega), memGet, if_pos rfl]
        · by_cases g : x < k
          · rw [memGet, if_neg h, if_pos g, if_neg (by omega), memGet, if_neg h, if_pos g]
          · rw [memGet, if_neg h, if_neg g, ih w.2, memGet, if_neg h, if_neg g]

/-- A byte read after a byte was stored. -/
theorem memGet_put (m : List Host.Cell) (a : Nat) (b : Byte) (w : memWf m = true) (x : Nat) :
    memGet (memPut m a b) x = if x = a then b else memGet m x := memGet_putFrom m a b w x

/-- A byte outside what was stored. -/
theorem memGet_write_outside (m : List Host.Cell) (a v n : Nat) (w : memWf m = true) (x : Nat) (h : x < a ∨ a + n ≤ x) :
    memGet (memWrite m a v n) x = memGet m x := by
  induction n generalizing m a v with
  | zero => rfl
  | succ n ih =>
    unfold memWrite
    rw [ih _ _ _ (memWf_put m a _ w) (by omega), memGet_put m a _ w, if_neg (by omega)]

end Sys2Proof.Machine
end

