-- ==== Sys2Proof/Laws/DramWf.lean ====
section
/-! SUPPORT. The operations that write device DRAM keep its canonical form. -/
namespace Sys2Proof.Machine

theorem wf_of_eq {s t : State} (e : t.dram = s.dram) (h : memWf s.dram = true) : memWf t.dram = true := e ▸ h

theorem foldl_wf {α : Type} (f : State → α → State) (k : ∀ s a, memWf s.dram = true → memWf (f s a).dram = true) (l : List α)
    (s : State) (h : memWf s.dram = true) : memWf (l.foldl f s).dram = true := by
  induction l generalizing s with
  | nil => exact h
  | cons a l ih => exact ih _ (k _ _ h)

theorem putFrame_wf (s : State) (base fmt i : Nat) (x : Int) (h : memWf s.dram = true) :
    memWf (s.putFrame base fmt i x).dram = true := memWf_write _ _ _ _ h

theorem lineZero_wf (s : State) (a : Addr) (h : memWf s.dram = true) : memWf (s.lineZero a).dram = true := by
  unfold State.lineZero
  dsimp only
  exact memWf_write _ _ _ _ h

theorem dramLose_wf (s : State) : memWf (s.dramLose).dram = true := rfl

theorem blkWrite_wf (s : State) (b : BlkXfer) (moved : Nat) (data : List Byte) (h : memWf s.dram = true) :
    memWf (s.blkWrite b moved data).dram = true := by
  unfold State.blkWrite
  split
  · exact memWf_bytes _ _ _ h
  · show memWf (List.foldl _ _ _) = true
    generalize List.range (moved / 4) = l
    have : ∀ m : List Host.Cell, memWf m = true → memWf (l.foldl (fun m i => memWrite m (b.p.dram.toNat + 4 * i) b.p.word.toNat 4) m) = true := by
      induction l with
      | nil => intro m hm; exact hm
      | cons a l ih => intro m hm; exact ih _ (memWf_write _ _ _ _ hm)
    exact this _ h
  · exact h

theorem fxSlot_wf (s : State) (n : Nat) (fr : FxFront) (e g : Rat) (opened : Bool) (hold : Nat) (h : memWf s.dram = true) :
    memWf (s.fxSlot n fr e g opened hold).dram = true := by
  unfold State.fxSlot
  extract_lets f x dyn lin r3 y3 xd0 xd place tap w0 w dOut r4 y4 r5 y5 byp mix out bad s1 err back x2 s2 sats s3
  have h1 : memWf s1.dram = true := by
    simp only [s1]
    split
    · exact memWf_write _ _ _ _ h
    · exact h
  clear_value s1
  refine wf_of_eq ?_ h1
  simp only [put_keeps, s3]
  rw [foldl_dram _ _ _ (by intro s a; split <;> simp)]
  simp [s2]

theorem fxSingle_wf (s : State) (n : Nat) (h : memWf s.dram = true) : memWf (s.fxSingle n).dram = true := by
  unfold State.fxSingle
  dsimp only
  repeat' split
  all_goals first | exact h | exact fxSlot_wf _ _ _ _ _ _ _ h

theorem fxLinked_wf (s : State) (a b : Nat) (h : memWf s.dram = true) : memWf (s.fxLinked a b).dram = true := by
  have one (s t : State) (n : Nat) (fr : FxFront) (e g : Rat) (o : Bool) (k : Nat) (h : memWf s.dram = true)
      (e' : t.dram = s.dram) : memWf (if s.fxRuns n then s.fxSlot n fr e g o k else t).dram = true := by
    split
    · exact fxSlot_wf _ _ _ _ _ _ _ h
    · exact wf_of_eq e' h
  unfold State.fxLinked
  exact one _ _ _ _ _ _ _ _ (one _ _ _ _ _ _ _ _ h (setFx_kept _ _ _).2) (setFx_kept _ _ _).2

theorem fxPair_wf (s : State) (m : Nat) (h : memWf s.dram = true) : memWf (s.fxPair m).dram = true := by
  unfold State.fxPair
  dsimp only
  split
  · exact fxLinked_wf _ _ _ h
  · exact fxSingle_wf _ _ (fxSingle_wf _ _ h)

theorem fxRun_wf (s : State) (h : memWf s.dram = true) : memWf (s.fxRun).dram = true := foldl_wf _ fxPair_wf _ _ h

theorem takeZeros_wf (s : State) (fmt base : Nat) (start from_ : TS) (n : Nat) (h : memWf s.dram = true) :
    memWf (s.takeZeros fmt base start from_ n).dram = true :=
  foldl_wf _ (fun _ _ hs => putFrame_wf _ _ _ _ _ hs) _ _ h

theorem takeGap_wf (s : State) (fmt : Nat) (run : LoopRun) (k : TS) (h : memWf s.dram = true) :
    memWf (s.takeGap fmt run k).dram = true := by
  unfold State.takeGap
  split
  · exact takeZeros_wf _ _ _ _ _ _ h
  · exact h

theorem takeFlush_wf (s : State) (fmt : Nat) (run : LoopRun) (h : memWf s.dram = true) : memWf (s.takeFlush fmt run).dram = true := by
  unfold State.takeFlush
  split
  · exact foldl_wf _ (fun s p hs => putFrame_wf _ _ _ _ _ hs) _ _ (takeZeros_wf _ _ _ _ _ _ h)
  · exact h

theorem takeDone_wf (s : State) (r : Nat) (run : LoopRun) (h : memWf s.dram = true) : memWf (s.takeDone r run).dram = true := by
  unfold State.takeDone
  dsimp only
  refine wf_of_eq (s := s.takeGap (s.recOf r).fmt run (run.b + 1)) ?_ (takeGap_wf _ _ _ _ h)
  first
    | (simp; done)
    | (split <;> simp)

theorem takesEnd_wf (s : State) (h : memWf s.dram = true) : memWf (s.takesEnd).dram = true := by
  refine foldl_wf _ (fun s p hs => ?_) _ _ h
  repeat' split
  all_goals first | exact hs | exact takeDone_wf _ _ _ hs

theorem ringCopyErr_wf (s : State) (r line : Nat) (h : memWf s.dram = true) : memWf (s.ringCopyErr r line).dram = true := by
  unfold State.ringCopyErr
  dsimp only
  repeat' split
  all_goals first
    | exact h
    | exact foldl_wf _ (fun _ _ hs => putFrame_wf _ _ _ _ _ hs) _ _ h

theorem ringRun_wf (s : State) (r : Nat) (v : Int) (h : memWf s.dram = true) : memWf (s.ringRun r v).dram = true := by
  unfold State.ringRun
  dsimp only
  split
  · exact putFrame_wf _ _ _ _ _ h
  · exact h

theorem takeRun_wf (s : State) (r : Nat) (v : Int) (h : memWf s.dram = true) : memWf (s.takeRun r v).dram = true := by
  unfold State.takeRun
  dsimp only
  repeat' split
  all_goals first
    | exact h
    | exact putFrame_wf _ _ _ _ _ (takeGap_wf _ _ _ _ h)

theorem recRun_wf (s : State) (r : Nat) (h : memWf s.dram = true) : memWf (s.recRun r).dram = true :=
  wf_of_eq (playRun_kept _ _).2 (takeRun_wf _ _ _ (ringRun_wf _ _ _ h))

theorem loopRun_wf (s : State) (h : memWf s.dram = true) : memWf (s.loopRun).dram = true := foldl_wf _ recRun_wf _ _ h

theorem computeTick_wf (s : State) (absent : List (Nat × List Nat)) (h : memWf s.dram = true) :
    memWf (s.computeTick absent).dram = true := by
  unfold State.computeTick
  dsimp only
  split
  · exact wf_of_eq (by simp) h
  · apply loopRun_wf
    refine wf_of_eq (clipRun_kept _ _).2 (fxRun_wf _ ?_)
    exact wf_of_eq (by simp) h

theorem blkLost_wf (s : State) (n moved : Nat) (data : List Byte) (h : memWf s.dram = true) :
    memWf (s.blkLost n moved data).dram = true := by
  unfold State.blkLost
  split
  · split
    · rename_i b _ _ _
      exact wf_of_eq (s := s.blkWrite b moved data) (by simp) (blkWrite_wf _ _ _ _ h)
    · exact h
  · exact h

theorem loopErr_wf (s : State) (r : Nat) (a : Addr) (dt : DT) (h : memWf s.dram = true) : memWf (s.loopErr r a dt).dram = true :=
  wf_of_eq (by simp [State.loopErr]) (lineZero_wf s a h)

theorem loopCommitEffect_wf (h : Hdr) (p : LoopCommitP) (s : State) (w : memWf s.dram = true) :
    memWf (loopCommitEffect h p s).st.dram = true := by
  unfold loopCommitEffect
  dsimp only
  simp only [laterDone_st, setRec_kept]
  split
  · exact w
  · exact takeFlush_wf _ _ _ w

theorem applyLost_wf (s : State) (lost : Nat) (h : memWf s.dram = true) : memWf (s.applyLost lost).dram = true := by
  unfold State.applyLost
  dsimp only [State.freeNat]
  split
  · exact dramLose_wf _
  · refine wf_of_eq ?_ h
    simp only [dram_ite, tablesLose_kept, ite_self]
    rw [foldl_dram _ _ _ (by intro s a; split <;> simp)]

theorem wakeStep4_wf (s : State) (b : BitVec 12) (dt : DT) (h : memWf s.dram = true) : memWf (s.wakeStep4 b dt).dram = true := by
  unfold State.wakeStep4
  dsimp only
  simp only [wr_keeps, dram_ite, enginesClear_kept, hwdStart_kept, ite_self]
  exact applyLost_wf _ _ (wf_of_eq (canopyStage_kept _).2 h)

theorem cmdSpec_eff_wf (s : State) (h : Hdr) (k : TS) (c : Cmd) (t : State) (w : memWf t.dram = true) :
    memWf ((cmdSpec s h k c).eff t).st.dram = true := by
  cases c with
  | loopCommit p => exact loopCommitEffect_wf h p t w
  | _ => exact wf_of_eq (by simp [cmdSpec, cmdPlain, cmdNone]) w

theorem check5_wf (s t : State) (x : Item) (h : check5 s x = .inr t) (w : memWf s.dram = true) : memWf t.dram = true := by
  unfold check5 at h
  dsimp only at h
  split at h
  · cases h; exact w
  · split at h
    · cases h
    · split at h
      · cases h; exact cmdSpec_eff_wf _ _ _ _ _ w
      · cases h

theorem commitItem_wf (gs : List (List Item)) (a : Commits) (x : Item) (w : memWf a.st.dram = true) :
    memWf (commitItem gs a x).st.dram = true := by
  unfold commitItem
  dsimp only
  cases a.verd.find? (fun v => v.1 == x.1.grp) <;> dsimp only <;> repeat' split
  all_goals first
    | exact w
    | exact wf_of_eq (cmdSpec_note_dram _ _ _ _ _ _) w
    | exact cmdSpec_eff_wf _ _ _ _ _ w

theorem applyItems_wf (s : State) (l : List Item) (w : memWf s.dram = true) : memWf (s.applyItems l).dram = true := by
  unfold State.applyItems
  dsimp only
  rw [foldl_dram _ _ _ (fun s o => by simp)]
  simp only [claimClear_kept]
  have h : ∀ (gs : List (List Item)) (xs : List Item) (a : Commits), memWf a.st.dram = true →
      memWf (xs.foldl (commitItem gs) a).st.dram = true := by
    intro gs xs; induction xs with
    | nil => intro a h; exact h
    | cons x xs ih => intro a h; exact ih _ (commitItem_wf _ _ _ h)
  exact h _ _ _ (wf_of_eq (by simp) w)

theorem checkNow_dram (s : State) (gs : List (List Item)) : (s.checkNow gs).1.dram = s.dram := by
  unfold State.checkNow
  split
  · rfl
  · exact refuseAll_dram _ _ (stageGroups_fair_dram s gs)

theorem releaseFreed_wf (s : State) (w : memWf s.dram = true) : memWf (s.releaseFreed).dram = true := by
  unfold State.releaseFreed
  split
  · exact w
  · dsimp only
    apply applyItems_wf
    rw [checkNow_dram, foldl_dram _ _ _ (fun s a => foldl_dram _ _ _ (by simp)), refate_dram]
    exact w

theorem commitBoundary_wf (s : State) (virt : Bool) (w : memWf s.dram = true) : memWf (s.commitBoundary virt).dram = true := by
  unfold State.commitBoundary
  dsimp only
  apply releaseFreed_wf
  apply applyItems_wf
  cases virt
  · simp only [Bool.false_eq_true, if_false, checkNow_dram, refate_dram]; exact w
  · simp only [if_true, checkNow_dram, refate_dram]; exact w

theorem openConfig_wf (s : State) (virt : Bool) (w : memWf s.dram = true) : memWf (s.openConfig virt).dram = true := by
  unfold State.openConfig
  dsimp only
  refine wf_of_eq (dueWrites_kept _).2 (commitBoundary_wf _ _ ?_)
  have h := takesEnd_wf (((((s.fireEngage).avClear).resetTicks).ringsOpen).openWrites).voicesEnd (wf_of_eq (by simp) w)
  exact wf_of_eq (by simp) h

theorem fireVerdicts_dram (s sim : State) (next : TS) : (s.fireVerdicts sim next).dram = s.dram := by
  unfold State.fireVerdicts
  dsimp only
  simp only [faderFullLog_kept]
  exact notes_dram _ (stageGroups_fair_dram _ _) (by simp) s

theorem stageTick_dram (s : State) (all : Bool) : (s.stageTick all).dram = s.dram := by
  unfold State.stageTick
  dsimp only
  simp only [ledger_kept, dram_ite, fireVerdicts_dram, pendFull_kept, ite_self]
  rw [refuseAll_dram]
  intro f hf
  rcases List.mem_append.mp hf with hf | hf
  · rcases List.mem_append.mp hf with hf | hf
    · exact fireRefused_dram _ f hf
    · exact enterGroups_dram _ _ (by simp) f hf
  · exact stageGroups_fair_dram _ _ f hf

theorem closePhases_dram (s : State) (x : TickIn) (gap : Bool) : (s.closePhases x gap).dram = s.dram := by
  unfold State.closePhases
  dsimp only
  cases gap <;> simp [stageTick_dram]

theorem closeTick_dram (s : State) (x : TickIn) : (s.closeTick x).dram = s.dram := by
  unfold State.closeTick
  dsimp only
  split
  · rfl
  · exact (closePhases_dram _ _ _).trans (countCe_kept _ _).2

theorem openTick_wf (s : State) (x : TickIn) (first virt : Bool) (w : memWf s.dram = true) :
    memWf (s.openTick x first virt).dram = true := by
  unfold State.openTick
  extract_lets s1 s2 s3 s4 s5 s6 s7 s8 s9
  have h3 : memWf s3.dram = true := wf_of_eq (by simp only [s3, s2, s1]; cases first <;> simp) w
  clear_value s3
  have h4 : memWf s4.dram = true := wf_of_eq (dbFetch_kept _).2 (openConfig_wf s3 virt h3)
  clear_value s4
  have h8 : memWf s8.dram = true := wf_of_eq (by simp only [s8, s7, s6, s5]; cases s4.rateHalt <;> simp) h4
  clear_value s8
  have h9 := computeTick_wf s8 x.starved h8
  exact wf_of_eq (by simp [s9]) h9

end Sys2Proof.Machine
end

