-- ==== Sys2Proof/Machine/Balls.lean ====
section
/-! DEFINITION. The ball map of the package, viewed from the top (R524): the net of each of the 484 balls, and how many balls a
net has (R525). -/
namespace Sys2Proof.Machine

def ballsA : List String :=
  ["DDR_DQ0", "DDR_DQ1", "DDR_DQ2", "DDR_DQ3", "DDR_DQS0_T", "DDR_DQS0_C", "DDR_DQ4", "DDR_DQ5", "DDR_DQ6",
   "DDR_DQ7", "DDR_DMI0", "DDR_DMI2", "DDR_DQ16", "DDR_DQ17", "DDR_DQ18", "DDR_DQ19", "DDR_DQS2_T", "DDR_DQS2_C",
   "DDR_DQ20", "DDR_DQ21", "DDR_DQ22", "DDR_DQ23"]

def ballsB : List String :=
  ["DDR_DQ8", "DDR_DQ9", "DDR_DQ10", "DDR_DQ11", "DDR_DQS1_T", "DDR_DQS1_C", "DDR_DQ12", "DDR_DQ13", "DDR_DQ14",
   "DDR_DQ15", "DDR_DMI1", "DDR_DMI3", "DDR_DQ24", "DDR_DQ25", "DDR_DQ26", "DDR_DQ27", "DDR_DQS3_T", "DDR_DQS3_C",
   "DDR_DQ28", "DDR_DQ29", "DDR_DQ30", "DDR_DQ31"]

def ballsC : List String :=
  ["DDR_A_CA0", "DDR_A_CA1", "DDR_A_CA2", "DDR_A_CK_T", "DDR_A_CK_C", "DDR_A_CA3", "DDR_A_CA4", "DDR_A_CA5",
   "DDR_A_CKE0", "DDR_A_CKE1", "DDR_RESET_N", "DDR_ZQ", "DDR_B_CKE1", "DDR_B_CKE0", "DDR_B_CA5", "DDR_B_CA4",
   "DDR_B_CA3", "DDR_B_CK_C", "DDR_B_CK_T", "DDR_B_CA2", "DDR_B_CA1", "DDR_B_CA0"]

def ballsD : List String :=
  ["DDR_A_CS0", "DDR_A_CS1", "VDDQ", "VSS", "VDD2", "VDDQ", "VSS", "VDD2", "VDDQ", "VSS", "VDD2", "VDD2", "VSS",
   "VDDQ", "VDD2", "VSS", "VDDQ", "VDD2", "VSS", "VDDQ", "DDR_B_CS1", "DDR_B_CS0"]

def ballsE : List String :=
  ["SAP0_BCLK_RX", "SAP0_FS_RX", "SAP0_DAT_RX", "VSS", "PE_TX0_P", "PE_TX0_N", "VSS", "PE_TX1_P", "PE_TX1_N", "VSS",
   "ETHA_TX_P", "ETHA_TX_N", "VSS", "ETHB_TX_P", "ETHB_TX_N", "VSS", "XTAL_IN", "XTAL_OUT", "AIN0_DET", "AIN0_BIAS",
   "AIN0_N", "AIN0_P"]

def ballsF : List String :=
  ["SAP0_BCLK_TX", "SAP0_FS_TX", "SAP0_DAT_TX", "VIO1", "PE_RX0_P", "PE_RX0_N", "VSS", "PE_RX1_P", "PE_RX1_N", "VSS",
   "ETHA_RX_P", "ETHA_RX_N", "VSS", "ETHB_RX_P", "ETHB_RX_N", "VSS", "PE_REFCLK_P", "PE_REFCLK_N", "AIN1_DET",
   "AIN1_BIAS", "AIN1_N", "AIN1_P"]

def ballsG : List String :=
  ["SAP1_BCLK_RX", "SAP1_FS_RX", "SAP1_DAT_RX", "VSS", "PERST_N", "WAKE_N", "CLKREQ_N", "VIO2", "ETHA_MDC",
   "ETHA_MDIO", "ETHA_INT_N", "ETHB_MDC", "ETHB_MDIO", "ETHB_INT_N", "VIO2", "XTAL32_IN", "XTAL32_OUT", "VCAN",
   "AVREF", "AIN2_BIAS", "AIN2_N", "AIN2_P"]

def ballsH : List String :=
  ["SAP1_BCLK_TX", "SAP1_FS_TX", "SAP1_DAT_TX", "VSS", "TWB_SCL", "TWB_SDA", "TWB_ALERT_N", "TWB_SEL_0", "TWB_SEL_1",
   "TWB_SEL_2", "FAULT_N", "RESET_N", "DBG_TCK", "DBG_TMS", "DBG_TDI", "DBG_TDO", "TEST_MODE", "VIO2", "AVREF",
   "AIN3_BIAS", "AIN3_N", "AIN3_P"]

def ballsJ : List String :=
  ["SAP2_BCLK_RX", "SAP2_FS_RX", "SAP2_DAT_RX", "WCLK_IN", "GPIO0", "GPIO1", "GPIO2", "GPIO3", "GPIO4", "GPIO5",
   "GPIO6", "GPIO7", "GPIO8", "GPIO9", "GPIO10", "GPIO11", "GPIO12", "GPIO13", "AVCM", "AIN4_BIAS", "AIN4_N",
   "AIN4_P"]

def ballsK : List String :=
  ["SAP2_BCLK_TX", "SAP2_FS_TX", "SAP2_DAT_TX", "VSS", "GPIO14", "GPIO15", "VIO2", "VSS", "VSS", "VSS", "VSS", "VSS",
   "VSS", "VSS", "VSS", "VSS", "VSS", "VSS", "AVDD", "AIN5_BIAS", "AIN5_N", "AIN5_P"]

def ballsL : List String :=
  ["SAP3_BCLK_RX", "SAP3_FS_RX", "SAP3_DAT_RX", "VSS", "VSS", "VCORE", "VSS", "VCORE", "VSS", "VCORE", "VSS",
   "VCORE", "VSS", "VSS", "VSS", "AVSS", "AVSS", "AVSS", "AVDD", "AIN6_BIAS", "AIN6_N", "AIN6_P"]

def ballsM : List String :=
  ["SAP3_BCLK_TX", "SAP3_FS_TX", "SAP3_DAT_TX", "VIO1", "VSS", "VCORE", "VSS", "VCORE", "VSS", "VCORE", "VSS",
   "VCORE", "VSS", "VSS", "VSS", "AVSS", "AVSS", "AVSS", "AVDD", "AIN7_BIAS", "AIN7_N", "AIN7_P"]

def ballsN : List String :=
  ["SAP4_BCLK_RX", "SAP4_FS_RX", "SAP4_DAT_RX", "VSS", "VSS", "VCORE", "VSS", "VCORE", "VSS", "VCORE", "VSS",
   "VCORE", "VSS", "VSS", "VSS", "AVSS", "AVSS", "AVSS", "VIB1_GND", "VIB1_IN", "VIB0_GND", "VIB0_IN"]

def ballsP : List String :=
  ["SAP4_BCLK_TX", "SAP4_FS_TX", "SAP4_DAT_TX", "VSS", "VSS", "VCORE", "VSS", "VCORE", "VSS", "VCORE", "VSS",
   "VCORE", "VSS", "VSS", "VSS", "AVSS", "AVSS", "AVSS", "LINE1_N", "LINE1_P", "LINE0_N", "LINE0_P"]

def ballsT : List String :=
  ["SAP5_BCLK_RX", "SAP5_FS_RX", "SAP5_DAT_RX", "MCLK_IO", "VSS", "VCORE", "VSS", "VCORE", "VSS", "VCORE", "VSS",
   "VCORE", "VSS", "VSS", "VSS", "AVSS", "AVSS", "AVSS", "LINE3_N", "LINE3_P", "LINE2_N", "LINE2_P"]

def ballsU : List String :=
  ["SAP5_BCLK_TX", "SAP5_FS_TX", "SAP5_DAT_TX", "VSS", "VSS", "VCORE", "VSS", "VCORE", "VSS", "VCORE", "VSS",
   "VCORE", "VSS", "VSS", "VSS", "AVSS", "AVSS", "AVSS", "LINE5_N", "LINE5_P", "LINE4_N", "LINE4_P"]

def ballsV : List String :=
  ["SAP6_BCLK_RX", "SAP6_FS_RX", "SAP6_DAT_RX", "VSS", "VSYS", "VSYS", "VSYS", "CORE_SW", "CORE_SW", "VSS", "VSS",
   "VSS", "VSS", "VSS", "VSS", "AVSS", "AVSS", "AVSS", "LINE7_N", "LINE7_P", "LINE6_N", "LINE6_P"]

def ballsW : List String :=
  ["SAP6_BCLK_TX", "SAP6_FS_TX", "SAP6_DAT_TX", "VIO1", "VSYS", "VSYS", "VSYS", "CORE_SW", "CORE_SW", "VCORE_SENSE",
   "VSS", "VSS", "VSS", "VSS", "VSS", "AVSS", "AVSS", "AVSS", "HP0_RING2", "HP0_SLV", "HP0_OUTR", "HP0_OUTL"]

def ballsY : List String :=
  ["SAP7_BCLK_RX", "SAP7_FS_RX", "SAP7_DAT_RX", "VSS", "SPK0_FBP", "SPK0_FBN", "BST_OUT", "BST_OUT", "PVDD", "PVDD",
   "PVDD", "BST_OUT", "BST_OUT", "BST_OUT", "BST_OUT", "SPK1_FBN", "SPK1_FBP", "PGND", "AVDD", "VIO1", "HP0_MIC",
   "HP0_DET"]

def ballsAA : List String :=
  ["SAP7_BCLK_TX", "SAP7_FS_TX", "SAP7_DAT_TX", "VIO1", "PGND", "PGND", "PGND", "PGND", "PVDD", "PVDD", "PVDD",
   "BST_OUT", "BST_OUT", "PGND", "PGND", "PGND", "PGND", "PGND", "HP1_RING2", "HP1_SLV", "HP1_OUTR", "HP1_OUTL"]

def ballsAB : List String :=
  ["PDM_CLK0", "PDM_DAT0", "PDM_CLK1", "PDM_DAT1", "SPK0_OUTA", "SPK0_OUTA", "SPK0_OUTB", "SPK0_OUTB", "PGND",
   "BST_SW", "BST_SW", "BST_SW", "PGND", "SPK1_OUTB", "SPK1_OUTB", "SPK1_OUTA", "SPK1_OUTA", "PGND", "AVDD", "VIO1",
   "HP1_MIC", "HP1_DET"]

def ballsAC : List String :=
  ["PDM_CLK2", "PDM_DAT2", "PDM_CLK3", "PDM_DAT3", "SPK0_OUTA", "SPK0_OUTA", "SPK0_OUTB", "SPK0_OUTB", "PGND",
   "BST_SW", "BST_SW", "BST_SW", "PGND", "SPK1_OUTB", "SPK1_OUTB", "SPK1_OUTA", "SPK1_OUTA", "PGND", "AVDD",
   "HP_CP_VNEG", "HP_CP_FLY_N", "HP_CP_FLY_P"]

/-- Rows A to AC, 22 of them, in order. -/
def ballRows : List (List String) :=
  [ballsA, ballsB, ballsC, ballsD, ballsE, ballsF, ballsG, ballsH, ballsJ, ballsK, ballsL,
   ballsM, ballsN, ballsP, ballsT, ballsU, ballsV, ballsW, ballsY, ballsAA, ballsAB, ballsAC]

/-- The net of the ball in a row, 0 for A, and a column from 1. -/
def ballNet (row col : Nat) : String := (ballRows.getD row []).getD (col - 1) ""

/-- How many balls a net has. -/
def netBalls (net : String) : Nat := (ballRows.map (fun r => (r.filter (fun b => b == net)).length)).sum

end Sys2Proof.Machine
end

