-- ==== Sys2Proof/Machine/Pins.lean ====
section
/-! DEFINITION. What the device puts on its signals (R527, R536 with Table BL-11, and the rules of the blocks that own them):
every signal is computed from the state, none is stored twice. What comes in on an input is a command of the table. -/
namespace Sys2Proof.Machine

/-- How a digital signal stands at the device's side. `pull` is high impedance with the 50 kΩ pull-down; `run` is driven by
its block (a running clock, link or bus); `copy` repeats the receive clock (R530); `idle` is electrical idle. -/
inductive Drive where
  | hiZ | pull | input | low | high | run | copy | idle | released | asserted | unpowered
  deriving DecidableEq, Repr

/-- How an analog output stands (Table AO-5). -/
inductive Leg where
  | ground10k | ground1k | vcmRamp | vcm1k | clamp | driving
  deriving DecidableEq, Repr

/-- The columns of Table BL-11. Before set-up a signal stands as its block's reset configuration says, so that column and
the awake state are one here. -/
inductive PinPhase where
  | reset | on | shade | glade | deep
  deriving DecidableEq, Repr

def State.pinPhase (s : State) : PinPhase :=
  if s.sup.resetN || !s.sup.core && s.twbPower ≤ 2 then .reset
  else match s.twbPower with
    | 0 => .on | 1 => .shade | 2 => .glade | _ => .deep

/-- A signal supplied from VIO1, or from VIO2: it drives nothing while its rail is not valid (R543, R544). -/
def State.onVio1 (s : State) (d : Drive) : Drive := if s.sup.vio1 then d else .hiZ
def State.onVio2 (s : State) (d : Drive) : Drive := if s.sup.vio2 then d else .hiZ

/-- An open-drain signal supplied from VIO2. -/
def State.openDrain (s : State) (low : Bool) : Drive := if low && s.sup.vio2 && s.pinPhase != .reset then .asserted else .released

/-! ## Clocks, serial ports and digital microphones -/

def State.mclkIoPin (s : State) : Drive := s.onVio1 <| match s.pinPhase with
  | .reset => .pull
  | .on | .shade => (match s.fld Fl.CLK_CTRL.MCLK_IO_MODE with
      | 1 | 2 | 3 => if s.runSet then .run else .low
      | 4 => .input
      | _ => .hiZ)
  | .glade | .deep => if s.fld Fl.CLK_CTRL.MCLK_IO_MODE = 4 then .input
      else if s.fld Fl.CLK_CTRL.MCLK_IO_MODE = 0 then .hiZ else .low

/-- A clock or frame pin that belongs to its direction (R250); `dir` is 0 to 7 receive, 8 to 15 transmit. -/
def State.sapOwnClk (s : State) (dir : Nat) : Drive :=
  let w := s.sapCfg dir
  s.onVio1 <| match s.pinPhase with
  | .reset => .pull
  | .on =>
    -- a master drives clocks while it is enabled and no row of Table SA-5 idles it; none in virtual ticks (Table TK-3)
    if scMaster w then (if scEn w && (s.sapDir dir).state != .off && s.time.running then .run else .low) else .input
  | _ => if scMaster w then .low else .input

/-- SAPp_BCLK_RX and SAPp_FS_RX. -/
def State.sapRxClkPin (s : State) (p : Nat) : Drive := s.sapOwnClk p

/-- SAPp_BCLK_TX (fs 0) and SAPp_FS_TX (fs 1): the modes of R530 while CLK_SHARE is set. -/
def State.sapTxClkPin (s : State) (p fs : Nat) : Drive :=
  s.onVio1 <| if s.pinPhase = .reset then .pull
  else if s.flag (Fl.SAP_TX_CFG.CLK_SHARE p) then
    match bitsOf (s.rd Reg.PIN_SAPX_CFG) (4 * p + 2 * fs) 2 with
    | 0 => .pull
    | 1 => .copy
    | 2 => if bitN (s.rd Reg.PIN_SAPX_OUT).toNat (2 * p + fs) then .high else .low
    | _ => .input
  else s.sapOwnClk (8 + p)

/-- The level of SAPp_FS_RX (dir 0) or SAPp_FS_TX (dir 1) of a master in BCLK period `pos` of its frame (Table SA-1). -/
def State.sapFsPin (s : State) (p dir pos : Nat) : Drive :=
  let k := p + 8 * dir
  match s.sapOwnClk k with
  | .run => if sapFsHigh (s.sapCfg k) (s.rd (sapFrameReg k)) pos then .high else .low
  | d => d

/-- SAPp_DAT_TX in BCLK period `pos` of the frame that goes out (R250, R253); it changes on the falling edge of BCLK, or on the
rising edge with BCLK_INV. -/
def State.sapTxDataPin (s : State) (p pos : Nat) : Drive :=
  let k := p + 8
  let x := s.sapDir k
  let rest : Drive := if s.flag (Fl.SAP_TX_CFG.TRI p) then .hiZ else .low
  s.onVio1 <| if s.pinPhase = .reset then .pull
  else if scEn (s.sapCfg k) && x.state != .off && s.time.running && s.pinPhase = .on then
    match txBit (s.sapCfg k) (s.rd (sapFrameReg k)) (s.rd (sapSlotsReg k)) x.sent x.sentP pos with
    | some b => if b then .high else .low
    | none => rest
  else rest

/-- PDMp_CLK (R87, R417): runs while either channel is enabled; asleep only for the listening source. -/
def State.pdmClkPin (s : State) (p : Nat) : Drive :=
  let on : Bool := cfgEn (s.rd (Reg.AIN_PDMCH (2 * p))) || cfgEn (s.rd (Reg.AIN_PDMCH (2 * p + 1)))
  let src := s.fld Fl.WAK_LSN_CTRL.SRC
  let lsn : Bool := s.flag Fl.WAK_LSN_CTRL.EN && decide (src / 2 = 512 + p)
  s.onVio1 <| match s.pinPhase with
  | .reset => .pull
  | .on => if on && (s.runSet || lsn) then .run else .low
  | .shade | .glade => if lsn then .run else .low
  | .deep => .low

/-- SAPp_DAT_RX, PDM_DATp and WCLK_IN: inputs, pulled down in reset. -/
def State.audioInPin (s : State) : Drive := if s.pinPhase = .reset then .pull else .input

/-! ## Control pins -/

/-- PERST_N, PE_RX*, PE_REFCLK*, ETHx_INT_N, RESET_N, AIN0_DET, AIN1_DET, HPn_DET and SPKn_FB* are inputs at all times. -/
def inputPin : Drive := .input

/-- GPIO n (R528, R536): in reset the pin is pulled down, without VIO2 it drives
nothing (R544); asleep outputs hold and functions 1 to 6 are low. -/
def State.gpioPin (s : State) (n : Nat) : Drive :=
  let func := s.fld (Fl.PIN_GPIO_CFG.FUNC n)
  let out (b : Bool) : Drive :=
    if b then (if s.flag (Fl.PIN_GPIO_CFG.OD n) then .released else .high) else .low
  s.onVio2 <| match s.pinPhase with
  | .reset => .pull
  | .on | .shade => if func = 0 && !s.flag (Fl.PIN_GPIO_CFG.DIR n) then .input else out (s.gpioLevel n)
  | .glade | .deep => if func = 0 then (if s.flag (Fl.PIN_GPIO_CFG.DIR n) then out (s.gpioLevel n) else .input) else .low

/-- FAULT_N (R476). -/
def State.faultNPin (s : State) : Drive := s.openDrain s.faultN

/-- TWB_ALERT_N (R365). -/
def State.alertNPin (s : State) : Drive := s.openDrain s.twb.alertN

/-- TWB_SCL and TWB_SDA: served by the target, by Canopy asleep; released in reset, without acknowledge. -/
def State.twbPins (s : State) : Drive := if s.twbOn && s.pinPhase != .reset then .run else .released

/-- WAKE_N (R403). -/
def State.wakeNPin (s : State) : Drive := s.openDrain s.pwr.wakeN

/-- CLKREQ_N: the link's clock is asked for while the link is up, awake and in Shade; released in L1.2 and below. -/
def State.clkreqNPin (s : State) : Drive :=
  s.openDrain ((s.pinPhase == .on || s.pinPhase == .shade) && s.host.speed != 0)

/-- DBG_TCK, DBG_TMS, DBG_TDI and TEST_MODE are inputs with a pull-down; DBG_TDO is active only while the port is open (R504). -/
def dbgInPin : Drive := .pull
def State.dbgTdoPin (s : State) : Drive := s.onVio2 (if s.pinPhase ≠ .reset && s.hwd.unlocked.isSome then .run else .hiZ)

/-- The transmit lanes of the PCIe link. -/
def State.pcieTxPin (s : State) : Drive := match s.pinPhase with
  | .reset | .glade => .idle
  | .deep => .unpowered
  | _ => if s.host.speed ≠ 0 then .run else .idle

/-- Is a MAC enabled, 0 ETHA and 1 ETHB, in a state in which its pins follow it? -/
def State.ethOn (s : State) (mac : Nat) : Bool :=
  (s.pinPhase == .on || s.pinPhase == .shade) && (if mac = 0 then s.flag Fl.NET_CTRL.ETHA_EN else s.flag Fl.NET_CTRL.ETHB_EN)

/-- The lanes of a MAC. -/
def State.ethTxPin (s : State) (mac : Nat) : Drive :=
  if s.pinPhase = .deep then .unpowered else if s.ethOn mac then .run else .idle

/-- ETHx_MDC and ETHx_MDIO. -/
def State.ethMgmtPins (s : State) (mac : Nat) : Drive × Drive :=
  if s.pinPhase = .deep then (.unpowered, .unpowered)
  else if s.ethOn mac then (s.onVio2 .run, s.onVio2 .run) else (s.onVio2 .low, .hiZ)

/-- DDR_*_CKE and DDR_*_CS of rank 1 are low with one rank (R524). -/
def State.ddrRank (s : State) (rank : Nat) (d : Drive) : Drive := if rank = 1 ∧ s.fld Fl.MEM_CFG.RANKS = 0 then .low else d

/-- Other DDR outputs than those of `ddrPins`, and DDR_DQ*, DDR_DQS* and DDR_DMI*: active while the controller runs. -/
def State.ddrOutPin (s : State) : Drive := if bitN (s.rd Reg.MEM_STATUS).toNat 0 then .run else .low
def State.ddrDataPin (s : State) : Drive := if bitN (s.rd Reg.MEM_STATUS).toNat 0 then .run else .hiZ

/-- DDR_RESET_N and the clock enables (R481, Table BL-11): reset pin, then clock enable. -/
def State.ddrPins (s : State) : Drive × Drive :=
  let w := (s.rd Reg.MEM_STATUS).toNat
  if s.twbPower = 4 then (.low, .low) else if bitN w 1 then (.high, .low) else if bitN w 0 then (.high, .high) else (.low, .low)

/-! ## Analog outputs -/

/-- Both legs of line output n (Tables AO-5 and AO-6). -/
def State.lineLeg (s : State) (n : Nat) : Leg := match s.aout.vcm with
  | .off => .ground10k
  | .ramping => .vcmRamp
  | .ok => if s.pinPhase = .on && s.drives n then .driving else .vcm1k

/-- Headphone channel n, 0 to 3 (Tables AO-5 and AO-6). -/
def State.hpLeg (s : State) (n : Nat) : Leg :=
  if !s.sup.avdd || !s.sup.vio1 then .ground1k
  else if s.pinPhase = .on && s.drives (8 + n) then .driving else .clamp

/-- Table AO-8: HPn_RING2 grounded, HPn_SLV grounded, the detect source on (R118). -/
def State.hpContacts (s : State) (j : Nat) : Bool × Bool × Bool :=
  let poles := if s.pinPhase = .reset then 0 else s.fld (Fl.AOUT_JACK_STAT.POLES j)
  let headset : Bool := decide (poles = 2) || decide (poles = 3)
  let linked : Bool := decide (j = 1) && cfgLink (s.ainCh 7).analog
  let awake : Bool := s.pinPhase = .on || s.pinPhase = .shade
  (poles != 3, !(decide (poles = 2) || decide (poles = 4)), headset && !linked && awake)

/-- The bias level of input n in mV (R81, R82, Table BL-11). -/
def State.biasMv (s : State) (n : Nat) : Rat := match s.pinPhase with
  | .on | .shade => (s.ainCh n).bias.cur
  | .glade => if s.flag Fl.WAK_LSN_CTRL.EN && decide (s.fld Fl.WAK_LSN_CTRL.SRC = n) then (s.ainCh n).bias.cur else 0
  | _ => 0

/-- Is AIN7's front end with its bias on HP1_MIC (R83)? -/
def State.hsLinked (s : State) : Bool := cfgLink (s.ainCh 7).analog

/-- AINn_BIAS, and HP1_MIC, which carries AIN7's bias in its place while HS_LINK joins them (R83), in mV. -/
def State.biasPin (s : State) (n : Nat) : Rat := if n = 7 && s.hsLinked then 0 else s.biasMv n
def State.hp1Mic (s : State) : Rat := if s.hsLinked then s.biasMv 7 else 0

/-- Is the analog input n connected, 0 to 7 AINn and 8, 9 VIB (Table BL-11)? Otherwise its balls are at high impedance. -/
def State.ainConnected (s : State) (n : Nat) : Bool := match s.pinPhase with
  | .on | .shade => cfgEn (s.ainCh n).analog
  | .glade => s.flag Fl.WAK_LSN_CTRL.EN && decide (s.fld Fl.WAK_LSN_CTRL.SRC = n)
  | _ => false

/-- HP_CP_FLY_P, HP_CP_FLY_N and HP_CP_VNEG switch while the charge pump runs (R111). -/
def State.cpPins (s : State) : Drive := if s.pinPhase ≠ .reset && s.cpOn then .run else .idle

/-- How both legs of a loudspeaker channel stand: switching, high impedance after a latch (R148), or held at PGND. -/
inductive Bridge where
  | switching | highZ | ground
  deriving DecidableEq, Repr

/-- A channel switches while it drives, in a probe after a latch too (R151); a sleep's converters' turn stops it (R155). -/
def State.spkBridge (s : State) (n : Nat) : Bridge :=
  let c := s.spkCh n
  if s.pinPhase = .on && c.drive && !s.blockStopped 4 then .switching
  else if c.latch && s.stageOk && s.pinPhase = .on then .highZ
  else .ground

/-- The isolation switch between PVDD and the boost is closed and passes PVDD (R136). -/
def State.spkIsoClosed (s : State) : Bool :=
  s.pinPhase ≠ .deep && s.sup.pvdd && (s.boostMode == .switching || s.boostMode == .passing)

/-- BST_SW switches while the boost does; BST_OUT stands at the measured level, mV (R136, R155). -/
def State.bstSwPin (s : State) : Drive :=
  if s.pinPhase = .on && (s.boostMode == .switching || s.boostMode == .regulating) then .run else .idle
def State.bstOutMv (s : State) : Nat := s.spk.bst

/-- CORE_SW switches from step 1 of a start or an exit (R409); VCAN stands while Canopy holds. -/
def State.coreSwPin (s : State) : Drive :=
  if s.pwr.state = .waking then .run
  else match s.pinPhase with
    | .on | .shade => if s.hwd.running then .run else .hiZ
    | _ => .hiZ
def State.vcanOn (s : State) : Bool := s.sup.canopy

/-- The 32.768 kHz oscillator runs while Canopy holds. -/
def State.xtal32Runs (s : State) : Bool := s.sup.canopy

/-- The main crystal oscillator runs (Table BL-11). -/
def State.xtalRuns (s : State) : Bool := s.pinPhase ≠ .reset && s.pinPhase ≠ .deep

end Sys2Proof.Machine
end

