-- ==== Sys2Proof/Tests/Slice0.lean ====
section
/-! SUPPORT. Tests of the model: the smoke test of well-formedness, the decoder, small tests whose expected values come
from the spec's worked examples and tables, and one witness per statement that has hypotheses: a state and operands that
meet all of them. -/
namespace Sys2Proof.Tests
open Sys2Proof.Machine Sys2Proof.Safety

section
set_option maxRecDepth 4000
set_option linter.unusedVariables false
set_option Elab.async false


def cfgW (ty : Nat) : Word := wN (0x80000000 + 0x02000000 + 0x40000 + ty)
def rigRegs : SMap Word :=
  [(0x01000, 0x101), (0x0B000, 0x80000000), (0x0B004, 1), (0x10108, 0x1000), (0x1010C, 3)]
    ++ (List.range 8).flatMap (fun n => [(0x10400 + 32 * n, wN (0x10000 * (n + 1))), (0x10408 + 32 * n, cfgW n)])
def rigRing : Ring := { Ring.init with state := .running }

/-- An awake device with running rings of every type, a DMA window over the first 16 MiB and DRAM, at tick 1000. -/
def rig : State := { State.reset with
  regs := rigRegs
  time := { TimeSt.reset with dt := 1000000, hadTick := true, running := true, ts := 1000, bdt := 1000000, vrate := 1, bdts := [1000000], lastTs := 1000, lastDt := 1000000, started := true }
  clk := { ClkSt.reset with rate := 1, lock := true }
  host := { HostSt.reset with rings := (List.range 8).map (fun n => (n, rigRing)), dbOk := true, speed := 3, width := 2, bme := true }
  hwd := { HwdSt.reset with running := true, booted := true }
  flt := { FltSt.reset with coreA := { CoreSt.reset with run := .active }, coreB := { CoreSt.reset with run := .standby }, alive := true }
  sup := ⟨true, true, true, true, true, true, true, true, true, true, false⟩
  blz := { BlzSt.reset with boot := none } }

/-- An untimed command of ring 0 with a write-back. -/
def cmd : Hdr := ⟨0, false, 0, true, false, false, 0x21, 0⟩
/-- A DT long after every other one used here. -/
def dtZ : DT := 40000000000
def txn : Tx := ⟨true, some 0, dtZ⟩
def tin : TickIn := ⟨2000000, [], [], [], [], [], [], false, [], (0, 0)⟩
def sin : StepIn := ⟨2000000, [], [], [], 0, 0⟩
/-- The state of an outcome; the state after reset where it is none. -/
def nxt (o : Host.Outcome State Fault Refusal) : State := match o with
  | .next t => t
  | _ => State.reset

/-! ## Well-formedness: an ill-formed term for each check, and terms at the bounds -/

theorem test_payload_refused_1 :
    ([
      .clockLeader ⟨256, 0, 0⟩,
      .clockLeader ⟨0, 65536, 0⟩,
      .clockLeader ⟨0, 0, 8⟩,
      .houseRate 256,
      .timeWallSet ⟨0, 0, 0, 256⟩,
      .perfLevel 256,
      .sleep ⟨256, false, 0⟩,
      .ainSet ⟨256, 0, 0⟩,
      .pdmSet ⟨256, 0, 0⟩,
      .spkMeas ⟨256, 0, 0, 0⟩,
      .spkMeas ⟨0, 256, 0, 0⟩,
      .spkWatch ⟨256, 0, 0⟩,
      .routeSet ⟨0, 0, 16⟩,
      .thkSwap 256,
      .thkFader ⟨65536, 0, 0, 0⟩,
      .thkFader ⟨0, 65536, 0, 0⟩,
      .thkFader ⟨0, 0, 0, 65536⟩,
      .toneSet ⟨256, 0, 0, 0, 0⟩,
      .toneSet ⟨0, 256, 0, 0, 0⟩,
      .toneSet ⟨0, 0, 16, 0, 0⟩,
      .trailCommit ⟨0, 256⟩,
      .fxCommit ⟨65536, 0, 0⟩,
      .fxCommit ⟨0, 65536, 0⟩,
      .fxCommit ⟨0, 0, 256⟩,
      .clipCommit ⟨65536, 0, 0⟩] : List Cmd).all (fun c => !c.wf) = true := by decide

theorem test_payload_refused_2 :
    ([
      .clipCommit ⟨0, 65536, 0⟩,
      .clipCommit ⟨0, 0, 256⟩,
      .clipStart ⟨65536, 0, 0, 0, 0, 0, false⟩,
      .clipStart ⟨0, 65536, 0, 0, 0, 0, false⟩,
      .clipStart ⟨0, 0, 4294967296, 0, 0, 0, false⟩,
      .clipStart ⟨0, 0, 0, 4294967296, 0, 0, false⟩,
      .clipStart ⟨0, 0, 0, 0, 0, 256, false⟩,
      .clipCtrl ⟨65536, 0, 0, 0, 0⟩,
      .clipCtrl ⟨0, 256, 0, 0, 0⟩,
      .clipCtrl ⟨0, 0, 0, 4294967296, 0⟩,
      .loopSet ⟨256, 0, false, 0, false, 0, 0⟩,
      .loopSet ⟨0, 256, false, 0, false, 0, 0⟩,
      .loopSet ⟨0, 0, false, 4, false, 0, 0⟩,
      .loopSet ⟨0, 0, false, 0, false, 4294967296, 0⟩,
      .loopCommit ⟨256, false, 0, 0, 0, 0⟩,
      .loopCommit ⟨0, false, 0, 0, 0, 4294967296⟩,
      .blkLoad ⟨0, 0, 0, 4294967296⟩,
      .blkUnload ⟨0, 0, 0, 4294967296⟩,
      .blkFill ⟨0, 0, 0, 4294967296⟩,
      .sapSet ⟨256, 0, 0, 0, 0, 0, 0, false⟩,
      .sapSet ⟨0, 2, 0, 0, 0, 0, 0, false⟩,
      .sapSet ⟨0, 0, 0, 0, 0, 0, 256, false⟩,
      .groveSet ⟨256, 0, 0, 0, 0, 0⟩,
      .groveSet ⟨0, 256, 0, 0, 0, 0⟩,
      .groveSet ⟨0, 0, 0, 0, 65536, 0⟩] : List Cmd).all (fun c => !c.wf) = true := by decide

theorem test_payload_refused_3 :
    ([
      .groveSet ⟨0, 0, 0, 0, 0, 65536⟩,
      .groveStart 256,
      .groveStop 256,
      .streamCtrl ⟨65536, 0, 0, 0⟩,
      .streamCtrl ⟨0, 65536, 0, 0⟩,
      .streamCtrl ⟨0, 0, 256, 0⟩,
      .ntxFrame ⟨0, 65536, 0, false, 0⟩,
      .ntxFrame ⟨0, 0, 2, false, 0⟩,
      .ntxFrame ⟨0, 0, 0, false, 4⟩,
      .nrxBuf ⟨0, 65536⟩,
      .hpbData ⟨0, 65536⟩,
      .hcpData ⟨0, 65536⟩,
      .listenSet ⟨256, false, false, 0, 0, 0⟩,
      .listenSet ⟨0, false, false, 4, 0, 0⟩,
      .prerollRead ⟨0, 65536, 0⟩,
      .blzMark ⟨0, 0, 0, 8⟩,
      .fwActivate ⟨0, 4294967296, ⟨false, 0, 0, 0, false, 0, false, 0, []⟩⟩,
      .firebreakCtrl 256,
      .keyLoad ⟨65536, 0, 0, 0, false, 0, 0, 0⟩,
      .keyLoad ⟨0, 4294967296, 0, 0, false, 0, 0, 0⟩,
      .keyClear 65536,
      .attest ⟨256, 0, 0, 0⟩,
      .configLoad ⟨0, 4294967296, ⟨false, 0, 0, 0, false, 0, false, 0, []⟩⟩,
      .undefined 65536] : List Cmd).all (fun c => !c.wf) = true := by decide

theorem test_event_refused_1 :
    ([
      .timedCommit 64 0,
      .timedCommit 0 256,
      .gptpRoleChange 4 false 0,
      .budgetOverrun 3,
      .blkTransferEnd 64 0 0 [],
      .gainMoveIncrement 10,
      .ainFeSwitch 10,
      .ainFeSettled 10,
      .biasLimit 8 0,
      .biasOff 8 0,
      .pdmStuck 8 0 0,
      .pdmStuck 0 2 0,
      .pdmRecover 8 0,
      .modReset 10 0,
      .ainJackIn 2 ⟨0, 0⟩,
      .ainJackOut 2 ⟨0, 0⟩,
      .aoutSeqSwitch 14,
      .aoutStageSettled 14,
      .outputShort 12 0,
      .hpPlugDetect 2 0,
      .hpIdentify 2 0 0 0 0,
      .hpMeasure 2 0 0 0,
      .hpPresent 2 0,
      .hpInsertAfterWake 2 0,
      .hpRemove 2 0] : List Instr).all (fun c => !c.wf) = true := by decide

theorem test_event_refused_2 :
    ([
      .hpBtnPress 2 0 0,
      .hpBtnRelease 2 0,
      .boostReady 2,
      .spkLimitEvent 2 0,
      .spkBroadbandShort 2 0 0,
      .spkRetryAttempt 2 0,
      .spkProbeEnd 2 0 0,
      .spkPilotWindow 2 false 0 0 0,
      .spkCapTrip 2 0 0,
      .clipTagFail 256 0,
      .loopCopyDone 32 0 0,
      .sapFrameRx 8 0 0 [],
      .sapFrameTx 8 0 0,
      .sapSeqApply 8 0,
      .sapSeqApply 0 2,
      .sapLock 8 0,
      .sapLock 0 2,
      .sapClkLoss 8 0 0,
      .sapClkLoss 0 2 0,
      .sapClkReturn 8 0 0,
      .sapClkReturn 0 2 0,
      .sapRateJump 8 0 0 0,
      .sapRateJump 0 2 0 0,
      .sapRateMeasure 8 0 0,
      .sapRateMeasure 0 2 0] : List Instr).all (fun c => !c.wf) = true := by decide

theorem test_event_refused_3 :
    ([
      .groveMemberJoin 8 (.ring 0),
      .netRealign 1024,
      .netStreamLoss 1024 0,
      .ntxEgress 64 0,
      .netLinkUp 2 0,
      .netLinkUp 0 4,
      .netLinkDown 2,
      .netPhyInt 2 0,
      .mdioLinkMonitor 2 0,
      .mdioLinkMonitor 0 4,
      .ringEnable 64 0,
      .ringDisable 64 0,
      .hostDmaFail 65 0 false [],
      .pcieLinkUp 4 0 0,
      .pcieLinkUp 0 4 0,
      .registerWrite 0x40000 0 false,
      .apertureWrite 0x1000000 0 none false,
      .fltLoRead 4,
      .gpioCfgWrite 16 0,
      .shadeExit 16 0,
      .gpioWakeLevel 16 0,
      .sapWakeActivity 8 0,
      .sapWakePattern 8 0,
      .rateLimitSecondEnd 65536 0 0,
      .coreException 2 false 0] : List Instr).all (fun c => !c.wf) = true := by decide

theorem test_event_refused_4 :
    ([
      .biasLimitEnd 8 0,
      .gpioPulseEnd 16 0,
      .ainFiltSwitch true 8,
      .ainFiltSwitch false 10,
      .spkBstOvp 0 0 0,
      .spkBstOvp 3 0 0,
      .groveMemberJoin 0 (.port 8 0),
      .groveMemberJoin 0 (.port 0 2),
      .groveMemberJoin 0 (.ctx 1024),
      .groveMemberJoin 0 (.ring 64),
      .asrcLock (.port 0 2) 0,
      .asrcLock (.ctx 1024) 0,
      .doorbellReturn [(64, 0)],
      .doorbellReturn [(0, 65536)],
      .netPacketRx ⟨2, 0, 0, 0, 0, 0, 0, 0, false, 0, [], none, [], true, true, false, 0⟩,
      .lsnHop ⟨0, 0, List.replicate 63 0⟩,
      .prerollBlock (List.replicate 255 0) 0,
      .dramUe (.delayLine 256) 0 0,
      .dramUe (.clipData 256) 0 0,
      .dramUe (.loopRing 32) 0 0,
      .dramUe (.takePlay 32) 0 0,
      .dramUe (.listener 1024) 0 0,
      .dramUe (.blkUnload 64 0) 0 0,
      .sramUe (.node 384 0) 0 0,
      .sramUe (.node 0 288) 0 0] : List Instr).all (fun c => !c.wf) = true := by decide

theorem test_event_refused_5 :
    ([
      .sramUe (.busGain 288) 0 0,
      .sramUe (.shadow 0x1000000) 0 0,
      .sramUe (.interchange 65536) 0 0,
      .sramUe (.fxState 256) 0 0,
      .sramUe (.trailState 16) 0 0,
      .sramUe (.clipState 256) 0 0,
      .sramUe (.delayLine 256) 0 0,
      .sramUe (.pendingEntry 64 0) 0 0,
      .sramUe (.pendingEntry 0 256) 0 0,
      .sramUe (.coreMem 2) 0 0,
      .sramUe (.coreCode 2) 0 0,
      .sramUe (.blazeSlot 4096) 0 0,
      .tickBoundary { tin with fetched := [(64, ⟨cmd, true, .nop⟩)] },
      .tickBoundary { tin with fetched := [(0, ⟨cmd, true, .houseRate 256⟩)] },
      .tickBoundary { tin with playback := [(64, [])] },
      .tickBoundary { tin with aclip := [10] },
      .tickBoundary { tin with bias := [(8, 0)] },
      .tickBoundary { tin with samples := [(65536, 0)] },
      .stepBoundary { sin with samples := [(65536, 0)] },
      .stepBoundary { sin with merges := [(65536, 0)] },
      .stepBoundary { sin with mods := [(2, [])] },
      .tickBoundary { tin with starved := [(288, [])] },
      .nop ⟨{ cmd with ring := 64 }, 0⟩,
      .nop ⟨{ cmd with late := 4 }, 0⟩,
      .houseRate cmd 256] : List Instr).all (fun c => !c.wf) = true := by decide

theorem test_payload_accepted :
    ([
      .clockLeader ⟨255, 65535, 7⟩,
      .routeSet ⟨0xFFFF, 0xFFFF, 15⟩,
      .thkFader ⟨65535, 65535, 0xFFFFFFFF, 65535⟩,
      .clipStart ⟨65535, 65535, 2 ^ 32 - 1, 2 ^ 32 - 1, 0, 255, true⟩,
      .sapSet ⟨255, 1, 0xFFFF, 0, 0, 0, 255, true⟩,
      .ntxFrame ⟨0, 65535, 1, true, 3⟩,
      .blzMark ⟨0, 0, 0, 7⟩,
      .undefined 65535] : List Cmd).all Cmd.wf = true := by decide

theorem test_event_accepted :
    ([
      .nop ⟨{ cmd with ring := 63, late := 3 }, 0⟩,
      .ainFiltSwitch false 9 ,
      .aoutSeqSwitch 13,
      .hostDmaFail 64 0 false [],
      .registerWrite 0x3FFFC 0 true,
      .groveMemberJoin 7 (.port 7 1),
      .sramUe (.node 383 287) 0 0,
      .shadeExit 15 0,
      .netStreamLoss 1023 0] : List Instr).all Instr.wf = true := by decide

/-! ## The decoder: the table gives no row any bits -/

theorem test_no_word_decodes : decodeTableWord 32 0x01050D21 = none := rfl
theorem test_no_word_placed : (State.reset.withFetchWord 32 5) = State.reset := rfl

/-! ## Values of the spec's worked examples and tables -/

/-- Channel addresses: `sap.rx:99`, `bus:287` and `lane:383` (the example of the scope chapter). -/
theorem test_channel_addresses : addrOf 0x02 99 = 0x0863 ∧ addrOf 0x07 287 = 0x1D1F ∧ addrOf 0x28 383 = 0xA17F := by decide

/-- A wake from Moss: the house PLL locks 603,800,000 ns after DT_s, the first real boundary is virtual boundary 28,983
at DT_s + 603,812,500 (the example after R53). -/
theorem test_virtual_boundary :
    let s := { rig with time := { rig.time with ts := 1000000, bdt := 21000000000, vrate := 1 } }
    virtCeil s 21603800000 = 28983 ∧ virtDt s 28983 = 21603812500 := by decide +kernel

/-- The same rule in the example of chapter 7: DT 212,400,900,000 gives boundary 595,244 at DT 212,400,916,666. -/
theorem test_virtual_boundary_glade :
    let s := { rig with time := { rig.time with ts := 5000000, bdt := 200000000000, vrate := 1 } }
    virtCeil s 212400900000 = 595244 ∧ virtDt s 595244 = 212400916666 := by decide +kernel

/-- Front-end changes at 48 kHz: 32 tk of ramp and a settle of 512 tk, 10,000 to 10,544 (the example after R100). -/
theorem test_settle : 10000 + 32 + settleTk 1 = 10544 := by decide

/-- A mode change from line to mic on AIN3 logs and starts the front-end sequence, and the write-back's full-effect tick is
10,576 (the same example). -/
theorem test_ain_set_full_effect :
    let s := { rig with time := { rig.time with ts := 10000 } }
    (ainSetEffect ⟨3, 0x105, 0x80050000⟩ (s.wr (Reg.AIN_CFG 3) 0x80000001)).r1 = 10576 := by decide +kernel

/-- Soft clip code 2 at +2 dBFS: 0.999 of full scale (the example after R97). -/
theorem test_soft_clip : 2145300000 ≤ softClip 2 (1259 / 1000) ∧ softClip 2 (1259 / 1000) ≤ 2146000000 := by decide +kernel

/-- Usable DRAM of 4 GiB in one rank is 3,840 MiB (the example after R523). -/
theorem test_dram_size :
    ((rig.setFld Fl.MEM_CFG.DENSITY 3).setFld Fl.MEM_CFG.RANKS 0).dramSize = 3840 * 2 ^ 20 := by decide +kernel

/-- Budgets B of the example after R361: 2,395 cycles at 96 kHz on L3 and at 192 kHz on L2, 1,197 at 192 kHz on L3. -/
theorem test_budgets : budgetB 3 3 = 2395 ∧ budgetB 5 3 = 1197 ∧ budgetB 5 2 = 2395 := by decide

/-- The boundary T + 38 of the SLEEP example: 62,500,791,667 ns after a T at 62.5 s, at 48 kHz. -/
theorem test_entry_estimate : 62500791666 ≤ 62500000000 + 38 * 1000000000 / fdHz 1 ∧ entryUs 2 = 150 ∧ exitUs 2 = 350 := by decide

/-- Node words: 0x0B53BF is −3 dB over no ramp, 0x02000000 is gain 0 over 64 tk (the example after R179). -/
theorem test_node_words :
    wordTarget 0x000B53BF = 0x0B53BF ∧ wordTarget 0x02000000 = 0 ∧ rampTk (wordRamp 0x02000000) = 64
      ∧ rampTk (wordRamp 0x030B53BF) = 256 := by decide

/-- A linear ramp of 16 from 0 to 0x100000 has 1/16 of the way in its first tick and the target in its last (R173). -/
theorem test_ramp_first_and_last :
    (grGo 0 0x100000 16 false).cur = 0x10000 ∧ (Nat.repeat grTick 15 (grGo 0 0x100000 16 false)).cur = 0x100000 := by
  decide +kernel

/-- A headset of 33 ohm with the microphone on the sleeve has class 2 and poles code 2 (the example after R126); without HSID
the poles code is 1 (R119). -/
theorem test_headphone_identification :
    hpClass 330 320 = 2 ∧ polesOf false 5 2000 900 = 1 ∧ polesOf true 150 2000 900 = 2 := by decide

/-- R6: an event out of order leaves device time where it is. -/
theorem test_time_keeps : (nxt (exec (.hstNudge 5) rig)).time.dt = 1000000 := by decide +kernel

/-- An empty queue idles; a waiting command runs. -/
theorem test_step_idles : step rig = .next rig := rfl
theorem test_step_takes_front :
    (nxt (step { rig with pending := [.hstNudge 2000000, .vsettleEnd] })).pending = [.vsettleEnd] := by decide +kernel

/-- The DRAM stores words little-endian, and a zero byte leaves no entry. -/
theorem test_dram_little_endian : memWrite [(6, 9)] 4 0x030201 4 = [(4, 1), (5, 2), (6, 3)] := by decide

/-- LATE policy 0b11 is reserved and completes with INVALID (R62). -/
theorem test_reserved_policy : (nxt (exec (.nop ⟨{ cmd with late := 3 }, 0⟩) rig)).host.heldWb.map (·.status) = [.invalid] := by
  decide +kernel

/-- The supply and ground balls of a package (the ball table of chapter 19). -/
theorem test_ball_counts :
    ["VSYS", "VCORE", "AVDD", "VIO1", "VIO2", "VDD2", "VDDQ", "PVDD", "VSS", "AVSS", "PGND"].map netBalls
      = [6, 24, 6, 6, 4, 6, 6, 6, 88, 24, 16] := by decide +kernel

/-- GPIO outputs are set and cleared bit by bit (the PIN register table, beside R537). -/
theorem test_gpio_set_clear :
    (nxt (exec (.gpioClr 1) (nxt (exec (.gpioSet 0x10003) rig)))).rd Reg.PIN_GPIO_OUT = 2 := by decide +kernel

/-- With RESET_N low the outputs stand as Table BL-11 has them: lines on their pull-downs, both rings of a headset jack
grounded, FAULT_N released, the bridges off (R536). -/
theorem test_pins_in_reset :
    State.reset.lineLeg 0 = .ground10k ∧ State.reset.hpLeg 3 = .ground1k ∧ State.reset.hpContacts 1 = (true, true, false)
      ∧ State.reset.faultNPin = .released ∧ State.reset.gpioPin 5 = .hiZ
      ∧ ({ State.reset with sup := { State.reset.sup with vio2 := true } }).gpioPin 5 = .pull ∧ State.reset.spkBridge 0 = .ground := by decide +kernel

/-- Poles code 2 grounds ring 2 and gives the microphone the sleeve (R118). -/
theorem test_swap_switch :
    (rig.setFld (Fl.AOUT_JACK_STAT.POLES 1) 2).hpContacts 1 = (true, false, true) := by
  decide +kernel

/-- A reset keeps the records of the event log (R480, Table FT-6). -/
theorem test_reset_keeps_store :
    (nxt (exec (.resetNAssert 2000000) { rig with blz := { rig.blz with store := [⟨0, 3, ⟨3, 0x3001, 3, 5, 0, 0, 0, 0, false, 0⟩⟩] } })).blz.store.length
      = 1 := by decide +kernel

/-! ## Witnesses: every statement with hypotheses has a state and operands that meet them together -/

theorem witness_mappingNeverDecreases :
    (∃ (m : Mapping) (d : DT) (e : DT), -(2 ^ 31) ≤ m.r ∧ m.r < 2 ^ 31 ∧ (∀ t, m.slew = some t → t.r = m.r) ∧ m.da.toNat ≤ d.toNat ∧ d.toNat ≤ e.toNat)
    ∧ (∃ (m : Mapping) (g : Mapping) (d : DT) (t : Slew), (slewTo m g d).slew = some t)
    ∧ (∃ (m : Mapping) (d : DT), slewOver m d = true) :=
  ⟨⟨⟨true, 5, 7, 1000, some ⟨6, 9, 1000, true⟩⟩, 10, 20, by decide +kernel⟩,
   ⟨⟨true, 5, 7, 1000, none⟩, ⟨true, 9, 50, 12, none⟩, 9, ((slewTo ⟨true, 5, 7, 1000, none⟩ ⟨true, 9, 50, 12, none⟩ 9).slew).getD ⟨0, 0, 0, true⟩, (by decide +kernel)⟩,
   ⟨⟨true, 0, 0, 0, some ⟨0, 3, 0, true⟩⟩, dtZ, by decide +kernel⟩⟩

theorem witness_epochEvents :
    (∃ (s : State) (dt : DT) (net : BitVec 64) (gm : BitVec 64), s.fld Fl.NET_GPTP.MODE = 1 ∧ s.coreUp = true ∧ (let m := s.time.net; let old := mapRead m dt; let kind := if m.valid = false then 0 else if gm ≠ s.time.netGm then 2 else 1; (kind = 1 → (s.rd Reg.TIME_NET_STEP).toNat < (net.toInt - old).natAbs)))
    ∧ (∃ (s : State), s.fld Fl.NET_GPTP.MODE = 1 ∧ s.time.net.valid = false ∧ bitsOf (s.rd Reg.NET_GPTP_STAT) 0 2 ≠ 2)
    ∧ (∃ (s : State) (h : Hdr) (p : NetSyncP), Ready s h ∧ netSyncHost s = true ∧ netSyncRefusal s p = .ok ∧ (let m := s.time.net; let d := s.time.bdt; let old := mapRead m d; let new := mapAt (mapTo p.dt p.net.toInt p.r.toInt) d; let kind := if m.valid = false then 0 else if p.tag.setWidth 64 ≠ s.time.netGm then 2 else 1; (kind = 1 → (s.rd Reg.TIME_NET_STEP).toNat < (new - old).natAbs)))
    ∧ (∃ (s : State) (h : Hdr) (p : WallSetP), Ready s h ∧ p.mode = 0 ∧ timeWallSetRefusal s p = .ok) :=
  ⟨⟨rig.setFld Fl.NET_GPTP.MODE 1, dtZ, 77, 0, by decide +kernel⟩,
   ⟨rig.setFld Fl.NET_GPTP.MODE 1, (by decide +kernel)⟩,
   ⟨rig.setFld Fl.NET_GPTP.MODE 2, cmd, ⟨500000, 77, 0, 0⟩, by unfold Ready; decide +kernel, by decide +kernel⟩,
   ⟨rig, cmd, ⟨500000, 77, 0, 0⟩, by unfold Ready; decide +kernel, by decide +kernel⟩⟩

theorem witness_timeEventsComplete :
    (∃ (s : State) (dt : DT) (net : BitVec 64), s.fld Fl.NET_GPTP.MODE = 1 ∧ s.coreUp = true ∧ s.time.net.valid = true ∧ (net.toInt - mapAt s.time.net dt).natAbs ≤ (s.rd Reg.TIME_NET_STEP).toNat)
    ∧ (∃ (s : State) (dt : DT), s.time.net.valid = true ∧ s.time.netHold = false ∧ (s.fld Fl.NET_GPTP.MODE = 1 ∨ (s.fld Fl.NET_GPTP.MODE = 2 ∧ s.time.netSync.toNat + 1000000000 ≤ dt.toNat)))
    ∧ (∃ (s : State) (role : Nat), s.fld Fl.NET_GPTP.MODE = 1 ∧ role < 4 ∧ (role = 2 → s.time.net.valid = true))
    ∧ (∃ (s : State) (h : Hdr) (p : NetSyncP), Ready s h ∧ netSyncHost s = true ∧ netSyncRefusal s p = .ok ∧ s.time.net.valid = true ∧ p.tag.setWidth 64 = s.time.netGm ∧ (mapAt (mapTo p.dt p.net.toInt p.r.toInt) s.time.bdt - mapAt s.time.net s.time.bdt).natAbs ≤ (s.rd Reg.TIME_NET_STEP).toNat)
    ∧ (∃ (s : State) (h : Hdr) (p : WallSetP), Ready s h ∧ p.mode = 1 ∧ timeWallSetRefusal s p = .ok)
    ∧ (∃ (s : State), s.time.keeper = false) :=
  ⟨⟨{ rig.setFld Fl.NET_GPTP.MODE 1 with time := { rig.time with net := ⟨true, 0, 100, 0, none⟩ } }, dtZ, 40000000100, by decide +kernel⟩,
   ⟨{ rig.setFld Fl.NET_GPTP.MODE 1 with time := { rig.time with net := ⟨true, 0, 100, 0, none⟩ } }, dtZ, (by decide +kernel)⟩,
   ⟨rig.setFld Fl.NET_GPTP.MODE 1, 1, by decide +kernel⟩,
   ⟨{ rig.setFld Fl.NET_GPTP.MODE 2 with time := { rig.time with net := ⟨true, 0, 100, 0, none⟩ } }, cmd, ⟨500000, 500100, 0, 0⟩, by unfold Ready; decide +kernel, by decide +kernel⟩,
   ⟨{ rig with time := { rig.time with wall := ⟨true, 0, 100, 0, none⟩ } }, cmd, ⟨500000, 500200, 0, 1⟩, by unfold Ready; decide +kernel, (by decide +kernel)⟩,
   ⟨rig, by decide +kernel⟩⟩

theorem witness_leaderEventsComplete :
    (∃ (s : State), s.clk.lstate = .acquiring ∧ 1024 ≤ s.clk.within)
    ∧ (∃ (s : State), (s.clk.lstate = .acquiring ∨ s.clk.lstate = .locked) ∧ 4096 ≤ s.clk.clamped)
    ∧ (∃ (s : State) (dt : DT), s.clk.kind = 3 ∧ s.clk.lstate ≠ .holdover ∧ s.wclkGone dt = true)
    ∧ (∃ (s : State), s.clk.mclkExt = true)
    ∧ (∃ (s : State) (h : Hdr) (p : ClockLeaderP), Ready s h ∧ clockLeaderValid p = true ∧ clockLeaderRefusal s p = .ok)
    ∧ (∃ (p : ClockLeaderP), p.kind = 0) :=
  ⟨⟨{ rig with clk := { rig.clk with kind := 3, lstate := .acquiring, within := 1024 } }, by decide +kernel⟩,
   ⟨{ rig with clk := { rig.clk with kind := 3, lstate := .locked, clamped := 4096 } }, (by decide +kernel)⟩,
   ⟨{ rig with clk := { rig.clk with kind := 3, lstate := .locked } }, dtZ, by decide +kernel⟩,
   ⟨{ rig with clk := { rig.clk with mclkExt := true } }, by decide +kernel⟩,
   ⟨rig, cmd, ⟨3, 0, 2⟩, by unfold Ready; decide +kernel, (by decide +kernel)⟩,
   ⟨⟨0, 0, 0⟩, by decide +kernel⟩⟩

theorem witness_rateChangeCompletes :
    (∃ (s : State) (h : Hdr) (rate : Nat), Ready s h ∧ houseRateValid s rate = true ∧ houseRateRefusal s rate = .ok ∧ rate ≠ s.clk.rate)
    ∧ (∃ (s : State) (h : Hdr), Ready s h ∧ houseRateValid s s.clk.rate = true ∧ houseRateRefusal s s.clk.rate = .ok)
    ∧ (∃ (s : State) (rc : RateChange), s.clk.rc = some rc ∧ rc.stopped = false ∧ s.time.running = true ∧ 0 ≤ tsDiff s.time.ts (rc.t + 32))
    ∧ (∃ (s : State) (rc : RateChange), s.clk.rc = some rc ∧ rc.stopped = true ∧ rc.s = none)
    ∧ (∃ (s : State), s.flag Fl.CLK_CTRL.RUN = true ∧ s.clk.lock = false ∧ s.clk.cfgErr = false ∧ s.time.started = false ∧ s.time.placed = none) :=
  ⟨⟨rig, cmd, 3, by unfold Ready; decide +kernel, by decide +kernel⟩,
   ⟨rig, cmd, by unfold Ready; decide +kernel, (by decide +kernel)⟩,
   ⟨{ rig with clk := { rig.clk with rc := some ⟨968, 900000, 1, 3, cmd, false, [], none⟩ } }, ⟨968, 900000, 1, 3, cmd, false, [], none⟩, by decide +kernel⟩,
   ⟨{ rig with clk := { rig.clk with rc := some ⟨960, 900000, 1, 3, cmd, true, [(cmd, 0x0A01)], none⟩ } }, ⟨960, 900000, 1, 3, cmd, true, [(cmd, 0x0A01)], none⟩, by decide +kernel⟩,
   ⟨{ rig with clk := { rig.clk with lock := false }, time := { rig.time with started := false, running := false } }, (by decide +kernel)⟩⟩

theorem witness_tickEventsComplete :
    (∃ (s : State), s.tickCan = true)
    ∧ (∃ (s : State), s.time.running = true ∧ s.step < stepsPerTk s.clk.rate ∧ s.rateHalt = false ∧ s.blockStopped 3 = false)
    ∧ (∃ (s : State), s.time.running = true)
    ∧ (∃ (s : State), s.host.issued = true)
    ∧ (∃ (s : State), s.host.issued = true)
    ∧ (∃ (s : State) (e : Nat), s.time.running = true ∧ e ≤ 2 ∧ (s.inter.map (·.1)).Nodup) :=
  ⟨⟨rig, by decide +kernel⟩,
   ⟨rig, (by decide +kernel)⟩,
   ⟨{ rig with host := { rig.host with waits := [⟨cmd, 0x0C02, .listen 1, 1000, 990⟩, ⟨cmd, 0x0C02, .listen 1, 1001, 990⟩] } }, by decide +kernel⟩,
   ⟨{ rig with host := { rig.host with issued := true } }, by decide +kernel⟩,
   ⟨{ rig with host := { rig.host with issued := true } }, (by decide +kernel)⟩,
   ⟨rig, 2, by decide +kernel⟩⟩

theorem witness_inputSetCompletes :
    (∃ (s : State) (h : Hdr) (p : CfgSetP), Ready s h ∧ ainSetValid s p = true ∧ ainSetRefusal s p = .ok)
    ∧ (∃ (s : State) (h : Hdr) (p : CfgSetP), Ready s h ∧ pdmSetValid s p = true ∧ pdmSetRefusal s p = .ok) :=
  ⟨⟨rig, cmd, ⟨3, 0x1FF, 0x80050A00⟩, by unfold Ready; decide +kernel, by decide +kernel⟩,
   ⟨rig.wr (Reg.AIN_PDMCH 3) 0x80000000, cmd, ⟨3, 0x120, 0x84000000⟩, by unfold Ready; decide +kernel, (by decide +kernel)⟩⟩

theorem witness_frontEndSequence :
    (∃ (s : State) (n : Nat) (q : AinSeq), (s.ainCh n).seq = some q ∧ q.fe = true ∧ q.switched = false ∧ 0 ≤ tsDiff s.time.ts (q.t + 32))
    ∧ (∃ (s : State) (n : Nat) (q : AinSeq), (s.ainCh n).seq = some q ∧ q.fe = true ∧ q.switched = true ∧ (s.ainCh n).noClip = true ∧ 0 ≤ tsDiff s.time.ts (q.t + BitVec.ofNat 32 (32 + settleTk s.clk.rate)))
    ∧ (∃ (s : State) (n : Nat) (q : AinSeq), (s.ainCh n).seq = some q ∧ q.fe = false ∧ q.switched = false ∧ 0 ≤ tsDiff s.time.ts (q.t + 32))
    ∧ (∃ (s : State) (n : Nat) (q : AinSeq), (s.pdmCh n).seq = some q ∧ q.switched = false ∧ 0 ≤ tsDiff s.time.ts (q.t + 32)) :=
  ⟨⟨(rig).setAin 2 { AinCh.init with seq := some ⟨true, 900, 0, false⟩ }|>.wr (Reg.AIN_CFG 2) 0x80000500, 2, ⟨true, 900, 0, false⟩, by decide +kernel⟩,
   ⟨(rig).setAin 2 { AinCh.init with seq := some ⟨true, 100, 0, true⟩, noClip := true }, 2, ⟨true, 100, 0, true⟩, (by decide +kernel)⟩,
   ⟨(rig).setAin 2 { AinCh.init with seq := some ⟨false, 900, 0, false⟩ }, 2, ⟨false, 900, 0, false⟩, by decide +kernel⟩,
   ⟨(rig).setPdm 2 { PdmCh.init with seq := some ⟨false, 900, 0, false⟩ }, 2, ⟨false, 900, 0, false⟩, by decide +kernel⟩⟩

theorem witness_inputFaultEvents :
    (∃ (s : State) (n : Nat), n < 8 ∧ cfgBias (s.ainCh n).analog ≠ 0 ∧ (s.ainCh n).off = false ∧ (s.ainCh n).lim = none)
    ∧ (∃ (s : State) (n : Nat) (dt : DT) (t0 : DT), n < 8 ∧ (s.ainCh n).lim = some t0 ∧ t0.toNat + 100000000 ≤ dt.toNat)
    ∧ (∃ (s : State) (n : Nat), n < 8 ∧ s.pdmClocked (n / 2) = true ∧ (s.pdmCh n).stuck = none)
    ∧ (∃ (s : State) (n : Nat) (level : Nat), (s.pdmCh n).stuck = some level)
    ∧ (∃ (n : Nat), n < 10) :=
  ⟨⟨(rig).setAin 7 { AinCh.init with analog := 0x80050000 }, 7, by decide +kernel⟩,
   ⟨(rig).setAin 7 { AinCh.init with lim := some 7, analog := 0x80050000 }, 7, dtZ, 7, (by decide +kernel)⟩,
   ⟨rig.wr (Reg.AIN_PDMCH 7) 0x80000000, 7, by decide +kernel⟩,
   ⟨(rig).setPdm 7 { PdmCh.init with stuck := some 1 }, 7, 1, by decide +kernel⟩,
   ⟨9, (by decide +kernel)⟩⟩

theorem witness_inputJackEvents :
    (∃ (s : State) (j : Nat) (since : DT) (dt : DT), j < 2 ∧ s.ainJack j = false ∧ since.toNat + s.fld Fl.AIN_JACK_CFG.DEBOUNCE * 1000000 ≤ dt.toNat)
    ∧ (∃ (s : State) (j : Nat) (since : DT) (dt : DT), j < 2 ∧ s.ainJack j = true ∧ since.toNat + 1000000 ≤ dt.toNat) :=
  ⟨⟨rig, 1, 5, dtZ, by decide +kernel⟩,
   ⟨{ rig with ain := { rig.ain with jack1 := true } }, 1, 5, dtZ, (by decide +kernel)⟩⟩

theorem witness_outputSetCompletes :
    (∃ (s : State) (h : Hdr) (p : SinkSetP) (n : Nat) (old : Word) (new : Word), Ready s h ∧ aoutSetValid s p = true ∧ aoutSetRefusal s p = .ok ∧ n = aoutChan p ∧ old = s.rd (Reg.AOUT_CFG n) ∧ new = mergeAout p.mask old p.image)
    ∧ (∃ (s : State) (h : Hdr) (p : SinkSetP) (n : Nat) (old : Word) (new : Word), Ready s h ∧ aoutSetValid s p = true ∧ aoutSetRefusal s p = .ok ∧ n = aoutChan p ∧ old = s.rd (Reg.AOUT_CFG n) ∧ new = mergeAout p.mask old p.image)
    ∧ (∃ (s : State) (h : Hdr) (p : SinkSetP) (n : Nat) (old : Word) (new : Word), Ready s h ∧ aoutSetValid s p = true ∧ aoutSetRefusal s p = .ok ∧ n = aoutChan p ∧ old = s.rd (Reg.AOUT_CFG n) ∧ new = mergeAout p.mask old p.image)
    ∧ (∃ (s : State) (h : Hdr) (p : SinkSetP) (n : Nat) (old : Word) (new : Word), Ready s h ∧ aoutSetValid s p = true ∧ aoutSetRefusal s p = .ok ∧ n = aoutChan p ∧ old = s.rd (Reg.AOUT_CFG n) ∧ new = mergeAout p.mask old p.image) :=
  ⟨⟨rig, cmd, ⟨32775, 15, 0x80000000⟩, 7, (rig).rd (Reg.AOUT_CFG 7), 0x80000000, by unfold Ready; decide +kernel, by decide +kernel⟩,
   ⟨rig.wr (Reg.AOUT_CFG 11) 0x80000000, cmd, ⟨33795, 1, 0⟩, 11, 0x80000000, 0, by unfold Ready; decide +kernel, (by decide +kernel)⟩,
   ⟨rig.wr (Reg.AOUT_CFG 0) 0x80000000, cmd, ⟨32768, 8, 0x04000000⟩, 0, 0x80000000, 0x84000000, by unfold Ready; decide +kernel, by decide +kernel⟩,
   ⟨rig.wr (Reg.AOUT_CFG 0) 0x80000000, cmd, ⟨32768, 6, 0x22000000⟩, 0, 0x80000000, 0xA2000000, by unfold Ready; decide +kernel, by decide +kernel⟩⟩

theorem witness_outputSequenceRows :
    (∃ (s : State) (n : Nat) (q : AoutSeq), n < 12 ∧ (s.aoutCh n).seq = some q ∧ (s.aoutCh n).rng = none ∧ q.switched = false ∧ s.reached q.t 32 = true)
    ∧ (∃ (s : State) (n : Nat) (q : AoutSeq), 8 ≤ n ∧ n < 12 ∧ (s.aoutCh n).seq = none ∧ (s.aoutCh n).rng = some q ∧ q.switched = false ∧ s.reached q.t 32 = true)
    ∧ (∃ (s : State) (n : Nat) (q : AoutSeq), n < 12 ∧ (s.aoutCh n).seq = some q ∧ q.kind = .enable ∧ q.switched = true ∧ q.up = false ∧ s.reached q.t (32 + stageTk s.clk.rate) = true)
    ∧ (∃ (s : State) (n : Nat) (q : AoutSeq), n < 2 ∧ (s.spkCh n).seq = some q ∧ q.switched = false ∧ s.reached q.t 32 = true)
    ∧ (∃ (s : State) (n : Nat) (q : AoutSeq), n < 2 ∧ (s.spkCh n).seq = some q ∧ q.kind = .enable ∧ q.switched = true ∧ q.up = false ∧ s.reached q.t (32 + stageTk s.clk.rate) = true)
    ∧ (∃ (s : State) (n : Nat) (q : AoutSeq), n < 2 ∧ s.boostOn = true ∧ (s.spkCh n).seq = some q ∧ q.kind = .enable ∧ q.up = false ∧ (s.spkCh n).settled = true) :=
  ⟨⟨(rig).setAout 11 { AoutCh.init with seq := some ⟨.enable, 900, 0x80000000, false, false⟩ }, 11, ⟨.enable, 900, 0x80000000, false, false⟩, by decide +kernel⟩,
   ⟨(rig.setFld Fl.AOUT_JACK_CFG.RANGE 2).setAout 11 { AoutCh.init with rng := some ⟨.range, 900, 0x80000000, false, false⟩ }, 11, ⟨.range, 900, 0x80000000, false, false⟩, (by decide +kernel)⟩,
   ⟨(rig).setAout 11 { AoutCh.init with seq := some ⟨.enable, 100, 0x80000000, true, false⟩ }, 11, ⟨.enable, 100, 0x80000000, true, false⟩, by decide +kernel⟩,
   ⟨(rig).setSpk 1 { SpkCh.init with seq := some ⟨.enable, 900, 0x80000000, false, false⟩ }, 1, ⟨.enable, 900, 0x80000000, false, false⟩, by decide +kernel⟩,
   ⟨(rig).setSpk 1 { SpkCh.init with seq := some ⟨.enable, 100, 0x80000000, true, false⟩ }, 1, ⟨.enable, 100, 0x80000000, true, false⟩, (by decide +kernel)⟩,
   ⟨(rig).setSpk 1 { SpkCh.init with seq := some ⟨.enable, 100, 0x80000000, true, false⟩, settled := true }, 1, ⟨.enable, 100, 0x80000000, true, false⟩, by decide +kernel⟩⟩

theorem witness_outputFaultsAndSupplies :
    (∃ (s : State) (mv : Int), s.cpOn = true ∧ -1500 < mv)
    ∧ (∃ (s : State) (n : Nat), n < 12 ∧ (s.aoutCh n).out = false ∧ s.drives n = true)
    ∧ (∃ (s : State), s.sup.avdd = false)
    ∧ (∃ (s : State), s.aout.vcm = .ramping)
    ∧ (∃ (s : State), s.sup.vio1 = false) :=
  ⟨⟨rig.wr (Reg.AOUT_CFG 9) 0x80000000, -1499, by decide +kernel⟩,
   ⟨(rig).setAout 0 { AoutCh.init with drive := true }, 0, (by decide +kernel)⟩,
   ⟨{ rig with sup := { rig.sup with avdd := false } }, by decide +kernel⟩,
   ⟨{ rig with aout := { rig.aout with vcm := .ramping } }, by decide +kernel⟩,
   ⟨{ rig with sup := { rig.sup with vio1 := false } }, (by decide +kernel)⟩⟩

theorem witness_headphoneJackEvents :
    (∃ (s : State) (j : Nat), j < 2 ∧ (s.hpJack j).phase ≠ .present ∧ (s.hpJack j).phase ≠ .served)
    ∧ (∃ (s : State) (j : Nat), j < 2 ∧ ((s.hpJack j).phase = .present ∨ (s.hpJack j).phase = .served) ∧ ((s.hpJack j).remReq = true ∨ (s.hpJack j).rem.isSome = true))
    ∧ (∃ (s : State) (j : Nat) (dt : DT), j < 2 ∧ (s.hpJack j).phase = .debounce ∧ (s.hpJack j).t0.toNat + 30000000 ≤ dt.toNat)
    ∧ (∃ (s : State) (j : Nat) (dt : DT), j < 2 ∧ (s.hpJack j).phase = .identified ∧ (s.hpJack j).t0.toNat + 38000000 ≤ dt.toNat)
    ∧ (∃ (s : State) (j : Nat) (dt : DT), j < 2 ∧ (s.hpJack j).phase = .measured ∧ (s.hpJack j).t0.toNat + 50000000 ≤ dt.toNat ∧ s.asleep = false ∧ s.pwr.state ≠ .waking)
    ∧ (∃ (s : State) (j : Nat) (dt : DT), j < 2 ∧ (s.hpJack j).phase ∈ [.debounce, .identified, .measured] ∧ (s.hpJack j).t0.toNat + 50000000 ≤ dt.toNat ∧ (s.asleep = true ∨ s.pwr.state = .waking))
    ∧ (∃ (s : State) (j : Nat), j < 2 ∧ (s.hpJack j).phase = .afterWake ∧ s.coreDown = false)
    ∧ (∃ (j : Nat), j < 2)
    ∧ (∃ (s : State) (j : Nat) (ua : Nat), j < 2 ∧ s.btnRuns j = true ∧ buttonOf s ua ≠ 0 ∧ (s.hpJack j).held = 0)
    ∧ (∃ (s : State) (j : Nat), j < 2 ∧ s.btnRuns j = true ∧ (s.hpJack j).held ≠ 0) :=
  ⟨⟨rig, 1, by decide +kernel⟩,
   ⟨(rig).setHp 1 { HpJack.init with phase := .present, remReq := true }, 1, (by decide +kernel)⟩,
   ⟨(rig).setHp 1 { HpJack.init with phase := .debounce, t0 := 5 }, 1, dtZ, by decide +kernel⟩,
   ⟨(rig).setHp 1 { HpJack.init with phase := .identified }, 1, dtZ, by decide +kernel⟩,
   ⟨(rig).setHp 1 { HpJack.init with phase := .measured, zl := 1, zr := 1, poles := 3 }, 1, dtZ, (by decide +kernel)⟩,
   ⟨({ rig with pwr := { rig.pwr with state := .shade } }).setHp 1 { HpJack.init with phase := .debounce }, 1, dtZ, by decide +kernel⟩,
   ⟨(rig).setHp 1 { HpJack.init with phase := .afterWake }, 1, by decide +kernel⟩,
   ⟨1, (by decide +kernel)⟩,
   ⟨(rig.setFld Fl.AOUT_JACK_CFG.BTN 3).setHp 0 { HpJack.init with phase := .served, poles := 2 }, 0, 4000, by decide +kernel⟩,
   ⟨(rig.setFld Fl.AOUT_JACK_CFG.BTN 3).setHp 0 { HpJack.init with phase := .served, poles := 2, held := 2 }, 0, by decide +kernel⟩⟩

theorem witness_spkCommandsComplete :
    (∃ (s : State) (h : Hdr) (p : SinkSetP) (n : Nat) (old : Word) (new : Word), Ready s h ∧ spkSetValid s p = true ∧ spkSetRefusal s p = .ok ∧ n = spkChan p ∧ old = s.rd (Reg.SPK_CFG n) ∧ new = mergeSpk p.mask old p.image)
    ∧ (∃ (s : State) (h : Hdr) (p : SpkMeasP), Ready s h ∧ spkMeasValid p = true ∧ spkMeasRefusal s p = .ok)
    ∧ (∃ (s : State) (h : Hdr) (p : SpkWatchP), Ready s h ∧ spkWatchValid p = true) :=
  ⟨⟨rig, cmd, ⟨34817, 0x7F, 0x80000000⟩, 1, (rig).rd (Reg.SPK_CFG 1), 0x80000000, by unfold Ready; decide +kernel, by decide +kernel⟩,
   ⟨rig, cmd, ⟨1, 0, 0, 0⟩, by unfold Ready; decide +kernel, (by decide +kernel)⟩,
   ⟨rig, cmd, ⟨255, 127, 3000⟩, by unfold Ready; decide +kernel, by decide +kernel⟩⟩

theorem witness_spkLatchAndRetry :
    (∃ (s : State) (n : Nat), n < 2 ∧ (s.spkCh n).drive = true)
    ∧ (∃ (s : State) (n : Nat) (mohm : Nat), n < 2 ∧ (s.spkCh n).drive = true ∧ mohm < 100 * s.fld Fl.SPK_PROT.SHORT_Z)
    ∧ (∃ (s : State) (mv : Nat), s.spk.clamp = true ∧ mv < 8000)
    ∧ (∃ (s : State) (n : Nat) (dt : DT) (since : DT), n < 2 ∧ s.stageOk = true ∧ (s.spkCh n).retry = .sched since ∧ (s.spkCh n).giveup = false ∧ (s.spkCh n).capTrip = false ∧ s.triesLeft (s.spkCh n) = true ∧ cfgEn (s.rd (Reg.SPK_CFG n)) = true ∧ since.toNat + attemptMs ((s.spkCh n).tries + 1) * 1000000 ≤ dt.toNat)
    ∧ (∃ (s : State) (n : Nat) (dt : DT) (t0 : DT), n < 2 ∧ (s.spkCh n).retry = .probe t0 ∧ t0.toNat + 1000000 ≤ dt.toNat)
    ∧ (∃ (s : State) (n : Nat) (mw : Nat) (l : Nat), n < 2 ∧ s.capLimit (if n = 0 then s.fld Fl.SPK_CAP.MODE0 else s.fld Fl.SPK_CAP.MODE1) = some l ∧ 5 * l < 4 * mw ∧ (s.spkCh n).capTrip = false)
    ∧ (∃ (cmp : Nat) (mv : Nat), ((cmp = 1 ∧ 27500 ≤ mv) ∨ (cmp = 2 ∧ 28500 ≤ mv))) :=
  ⟨⟨(rig).setSpk 0 { SpkCh.init with drive := true, limits := [] }, 0, by decide +kernel⟩,
   ⟨(rig.setFld Fl.SPK_PROT.SHORT_Z 10).setSpk 1 { SpkCh.init with drive := true }, 1, 999, (by decide +kernel)⟩,
   ⟨{ rig with spk := { rig.spk with clamp := true } }, 7999, by decide +kernel⟩,
   ⟨(rig.wr (Reg.SPK_CFG 1) 0x80000000).setSpk 1 { SpkCh.init with latch := true, retry := .sched 10 }, 1, dtZ, 10, by decide +kernel⟩,
   ⟨(rig.setFld Fl.SPK_PROT.SHORT_Z 10).setSpk 1 { SpkCh.init with latch := true, retry := .probe 10 }, 1, dtZ, 10, (by decide +kernel)⟩,
   ⟨((rig.setFld Fl.SPK_CAP.MODE0 1)).setSpk 0 { SpkCh.init with drive := true }, 0, 4000000, (rig.setFld Fl.SPK_CAP.MODE0 1).capLimit 1 |>.getD 0, by decide +kernel⟩,
   ⟨1, 27500, by decide +kernel⟩⟩

theorem witness_spkPilotAndPower :
    (∃ (s : State) (n : Nat) (dt : DT) (t0 : DT), n < 2 ∧ (s.spkCh n).pilot.win = some t0 ∧ t0.toNat + windowNs (s.spkCh n).pilot ≤ dt.toNat)
    ∧ (∃ (isOver : Bool) (mv : Nat), (if isOver then 22000 < mv else mv < 5500))
    ∧ (∃ (s : State), (s.spk.pvddBad = true ∨ s.sup.pvdd = false)) :=
  ⟨⟨(rig.setFld Fl.SPK_PROT.SHORT_Z 10).setSpk 1 { SpkCh.init with drive := true, pilot := { { Pilot.init with kind := 1 } with win := some 0 } }, 1, dtZ, 0, by decide +kernel⟩,
   ⟨true, 22001, (by decide +kernel)⟩,
   ⟨{ rig with spk := { rig.spk with pvddBad := true } }, by decide +kernel⟩⟩

theorem witness_busOutput :
    (∃ (b : Nat), b < 288) :=
  ⟨287, by decide +kernel⟩

theorem witness_routeSetCompletes :
    (∃ (s : State) (h : Hdr) (p : RouteSetP), Ready s h ∧ routeSetValid p = true ∧ routeSetRefusal s p = .ok ∧ admitCheck s (routeSetEffect p s).st = none) :=
  ⟨rig, cmd, ⟨40960 + 383, 3, 2⟩, by unfold Ready; decide +kernel, by decide +kernel⟩

theorem witness_swapCompletes :
    (∃ (s : State) (h : Hdr) (mode : Nat), Ready s h ∧ mode ≤ 1 ∧ thkSwapRefusal s = .ok ∧ admitCheck s (thkSwapEffect mode s).st = none) :=
  ⟨rig.setFld Fl.THK_CTRL.SWAP_EN 1, cmd, 0, by unfold Ready; decide +kernel, by decide +kernel⟩

theorem witness_faderToneMeter :
    (∃ (s : State) (h : Hdr) (p : FaderP), Ready s h ∧ thkFaderValid p = true ∧ thkFaderRefusal s p = .ok ∧ admitCheck s (thkFaderEffect p s).st = none)
    ∧ (∃ (s : State) (h : Hdr) (p : ToneSetP), Ready s h ∧ toneSetValid s p = true ∧ admitCheck s (toneSetEffect p s).st = none)
    ∧ (∃ (s : State) (r : MeterRep), s.thk.meter.due = some r) :=
  ⟨⟨rig, cmd, ⟨383, 287, 0x00080000, 100⟩, by unfold Ready; decide +kernel, by decide +kernel⟩,
   ⟨rig, cmd, ⟨7, 1, 5, 256000, 0x40000000⟩, by unfold Ready; decide +kernel, (by decide +kernel)⟩,
   ⟨{ rig with thk := { rig.thk with meter := { rig.thk.meter with on := true, due := some ⟨3, 999, 5, 0, 8, [], []⟩ } } }, ⟨3, 999, 5, 0, 8, [], []⟩, by decide +kernel⟩⟩

theorem witness_trailCommitCompletes :
    (∃ (s : State) (h : Hdr) (p : TrailCommitP), Ready s h ∧ trailCommitValid s p = true ∧ trailCommitRefusal s p = .ok ∧ admitCheck s (trailCommitEffect p s).st = none) :=
  ⟨{ rig with trl := { rig.trl with shd := [(15 * 32 + 18, 32771), (15 * 32 + 19, 1)] } }, cmd, ⟨0x8000, 7⟩, by unfold Ready; decide +kernel, by decide +kernel⟩

theorem witness_effectCommitCompletes :
    (∃ (s : State) (h : Hdr) (p : TableCommitP), Ready s h ∧ fxCommitValid p = true ∧ fxCommitRefusal s p = .ok ∧ admitCheck s (fxCommitEffect p s).st = none) :=
  ⟨{ rig with fx := { rig.fx with shd := [(255 * 128 + 3, 1)] } }, cmd, ⟨255, 1, 0⟩, by unfold Ready; decide +kernel, by decide +kernel⟩

theorem witness_clipCommandsComplete :
    (∃ (s : State) (h : Hdr) (p : TableCommitP), Ready s h ∧ clipCommitValid p = true ∧ clipCommitRefusal s p = .ok ∧ admitCheck s (clipCommitEffect p s).st = none)
    ∧ (∃ (s : State) (h : Hdr) (p : ClipStartP), Ready s h ∧ clipStartValid p = true ∧ clipStartRefusal s p = .ok ∧ admitCheck s (clipStartEffect p s).st = none)
    ∧ (∃ (s : State) (h : Hdr) (p : ClipCtrlP), Ready s h ∧ clipCtrlValid p = true ∧ admitCheck s (clipCtrlEffect h p s).st = none)
    ∧ (∃ (s : State) (voice : Nat) (x : Voice), s.voice? voice = some x ∧ ceEnc x.w = true) :=
  ⟨⟨{ rig with clip := { rig.clip with shd := [(82, 1000), (84, 1000), (85, 0), (86, 12288000)] } }, cmd, ⟨5, 1, 0⟩, by unfold Ready; decide +kernel, by decide +kernel⟩,
   ⟨{ rig with clip := { rig.clip with act := [(82, 1000), (84, 1000), (85, 0), (86, 12288000)] } }, cmd, ⟨255, 5, 999, 0x1000000, 0x100000, 0, false⟩, by unfold Ready; decide +kernel, (by decide +kernel)⟩,
   ⟨{ rig with clip := { rig.clip with voices := [] } }, cmd, ⟨7, 0, 0, 0, 3000⟩, by unfold Ready; decide +kernel, by decide +kernel⟩,
   ⟨{ rig with clip := { rig.clip with voices := [(7, ⟨1, 5, [0, 0, 0, 0, 0, 0x80000], [], false, some 8, 0, 0x1000000, 0x1000000, none, grAt 0x100000, 0, 0, 0, 0, 0, grAt 0x100000, false, false, [], 0, 0, 0⟩), (8, ⟨1, 5, [0, 0, 0, 0, 0, 0x80000], [], true, some 7, 0, 0x1000000, 0x1000000, none, grAt 0x100000, 0, 0, 0, 0, 0, grAt 0x100000, false, false, [], 0, 0, 0⟩)] } }, 7, ⟨1, 5, [0, 0, 0, 0, 0, 0x80000], [], false, some 8, 0, 0x1000000, 0x1000000, none, grAt 0x100000, 0, 0, 0, 0, 0, grAt 0x100000, false, false, [], 0, 0, 0⟩, by decide +kernel⟩⟩

theorem witness_loopCommandsComplete :
    (∃ (s : State) (h : Hdr) (p : LoopSetP), Ready s h ∧ loopSetValid p = true ∧ loopSetRefusal s p = .ok ∧ admitCheck s (loopSetEffect p s).st = none)
    ∧ (∃ (s : State) (h : Hdr) (p : LoopCommitP), Ready s h ∧ loopCommitValid p = true ∧ loopCommitRefusal s p = .ok ∧ DramWf s ∧ admitCheck s (loopCommitEffect h p s).st = none)
    ∧ (∃ (s : State) (r : Nat) (moved : Nat) (run : LoopRun), (s.recOf r).run = some run ∧ run.copied = false ∧ run.cnum ≤ moved ∧ DramWf s) :=
  ⟨⟨rig, cmd, ⟨31, 0, true, 2, false, 100, 0x1000⟩, by unfold Ready; decide +kernel, by decide +kernel⟩,
   ⟨rig.setRec 31 { Recorder.init with en := true, rlen := 100, base := 0x100000 }, cmd, ⟨31, false, 900, 1100, 0x1000, 201⟩, by unfold Ready; decide +kernel, by decide +kernel, by decide +kernel, by unfold DramWf; decide +kernel, (by decide +kernel)⟩,
   ⟨rig.setRec 31 { Recorder.init with en := true, rlen := 100, base := 0x100000, k0 := 900, fill := 90, lastK := 1000, run := some ⟨cmd, 900, 1100, 0x1000, 300, false, 1000, 950, 950, 11, some 900, [(950, 3), (951, -4)], 961, false, 0, 0⟩ }, 31, 64, ⟨cmd, 900, 1100, 0x1000, 300, false, 1000, 950, 950, 11, some 900, [(950, 3), (951, -4)], 961, false, 0, 0⟩, (by decide +kernel), by decide +kernel, by decide +kernel, by unfold DramWf; decide +kernel⟩⟩

theorem witness_dramReadAfterWrite :
    (∃ (m : List Host.Cell), memWf m = true)
    ∧ (∃ (m : List Host.Cell), memWf m = true) :=
  ⟨⟨[(4, 7)], by decide +kernel⟩,
   ⟨[(4, 7)], (by decide +kernel)⟩⟩

theorem witness_bulkTransfersComplete :
    (∃ (s : State) (h : Hdr) (p : BlkP) (op : Nat), h.rsv = false ∧ h.late ≠ 3 ∧ h.chain = false ∧ h.timed = false ∧ s.ringType (ringOf h) = 7 ∧ p.len % 64 = 0 ∧ 64 ≤ p.len ∧ p.len ≤ 2 ^ 30 ∧ s.regionOk p.dram.toNat p.len 64 = true ∧ blkHostOk s op p = true ∧ s.hitsReserved p.dram.toNat p.len = false ∧ s.flt.fire = false ∧ (op = 0x0701 ∨ op = 0x0702 ∨ op = 0x0703))
    ∧ (∃ (s : State) (n : Nat) (data : List Byte) (b : BlkXfer) (rest : List BlkXfer), (s.ring n).blk = b :: rest ∧ b.running = true ∧ DramWf s ∧ data.length = b.p.len) :=
  ⟨⟨rig, { cmd with ring := 7 }, ⟨0x1000, 5, 0x40, 64⟩, 0x0701, by decide +kernel⟩,
   ⟨rig.setRing 7 { rigRing with blk := [⟨cmd, 0x0701, ⟨0x1000, 0x01020304, 0x100, 64⟩, 990, true, 995, false⟩] }, 7, List.replicate 64 9, ⟨cmd, 0x0701, ⟨0x1000, 0x01020304, 0x100, 64⟩, 990, true, 995, false⟩, [], (by decide +kernel), by decide +kernel, by unfold DramWf; decide +kernel, (by decide +kernel)⟩⟩

theorem witness_memoryErrorEvents :
    (∃ (s : State), DramWf s)
    ∧ (∃ (s : State) (dt : DT), s.scrubRuns = true ∧ s.flt.scrubDt.toNat + s.scrubNs ≤ dt.toNat) :=
  ⟨⟨{ (rig.setCtx 1023 { NetCtx.init with queue := [(3, []), (4, [])] }) with dram := [(0x1040, 3), (0x1080, 4)], clip := { rig.clip with voices := [(7, ⟨1, 5, [], [], false, none, 0, 0x1000000, 0x1000000, none, grAt 0x100000, 0, 0, 0, 0, 0, grAt 0x100000, false, false, [], 0, 0, 0⟩)] } }, by unfold DramWf; decide +kernel⟩,
   ⟨((rig.setFld Fl.MEM_SCRUB.EN 1).setFld Fl.MEM_CFG.EN 1).setFld Fl.MEM_SCRUB.HOURS 1, 3600000000005, (by decide +kernel)⟩⟩

theorem witness_hostStreamsComplete :
    (∃ (s : State) (h : Hdr) (p : HostDataP), h.rsv = false ∧ h.late ≠ 3 ∧ h.chain = false ∧ s.ringType (ringOf h) = 2 ∧ 1 ≤ p.n ∧ p.n ≤ 4096 ∧ p.addr.toNat % 4 = 0 ∧ s.dmaAllowed p.addr (p.n * s.rsCount (ringOf h) * packBytes (s.rsPack (ringOf h))) false = true ∧ (h.timed = true → tsDiff (s.time.ts + 3) h.target ≤ 0) ∧ (h.timed = true → ∀ e, (s.ring (ringOf h)).prevEnd = some e → 0 ≤ tsDiff h.target e))
    ∧ (∃ (s : State) (h : Hdr) (p : HostDataP), h.rsv = false ∧ h.late ≠ 3 ∧ h.chain = false ∧ s.ringType (ringOf h) = 3 ∧ 1 ≤ p.n ∧ p.n ≤ 4096 ∧ p.addr.toNat % 4 = 0 ∧ s.dmaAllowed p.addr (p.n * s.rsCount (ringOf h) * packBytes (s.rsPack (ringOf h))) true = true ∧ (h.timed = true → tsDiff (s.time.ts + 2) h.target ≤ 0) ∧ (h.timed = true → ∀ e, (s.ring (ringOf h)).prevEnd = some e → 0 ≤ tsDiff h.target e)) :=
  ⟨⟨rig, { cmd with ring := 2 }, ⟨0x1000, 64⟩, by decide +kernel⟩,
   ⟨rig, { cmd with ring := 3 }, ⟨0x1000, 64⟩, (by decide +kernel)⟩⟩

theorem witness_portSetCompletes :
    (∃ (s : State) (h : Hdr) (p : SapSetP), Ready s h ∧ sapSetValid s p = true ∧ sapSetRefusal s p = .ok)
    ∧ (∃ (s : State) (port : Nat) (dir : Nat) (q : SapSeq), port < 8 ∧ dir < 2 ∧ (s.sapDir (sapKey port dir)).seq = some q ∧ q.applied = false ∧ 0 ≤ tsDiff s.time.ts q.e)
    ∧ (∃ (s : State) (port : Nat) (dir : Nat) (q : SapSeq), let k := sapKey port dir; (s.sapDir k).seq = some q ∧ (s.sapDir k).state = .locking ∧ q.applied = true ∧ q.lock = none ∧ scAsrc (s.sapCfg k) = false ∧ (if scRole (s.sapCfg k) = 0 then 2 else 16) ≤ (s.sapDir k).edges.length)
    ∧ (∃ (s : State) (port : Nat) (dir : Nat) (rate : Word), let k := sapKey port dir; scEn (s.sapCfg k) = true ∧ scAsrc (s.sapCfg k) = true ∧ (s.sapDir k).asrc = false ∧ 524288 ≤ rate.toNat ∧ rate.toNat ≤ 14155776 ∧ ((s.sapDir k).state = .locking ∨ (s.sapDir k).state = .rateError ∨ (s.sapDir k).state = .running))
    ∧ (∃ (s : State) (n : Nat), (s.netCtx n).state ≠ .idle ∧ cxAsrc (s.ctxWord n) = true ∧ (s.netCtx n).asrc = false)
    ∧ (∃ (s : State) (port : Nat) (dir : Nat) (span : Nat), let k := sapKey port dir; port < 8 ∧ dir < 2 ∧ (s.sapDir k).state ≠ .off ∧ 0 < span) :=
  ⟨⟨rig, cmd, ⟨7, 1, 31, 0x80080020, 64, 3, 9, true⟩, by unfold Ready; decide +kernel, by decide +kernel⟩,
   ⟨(rig).setSap 15 { SapDir.init with seq := some ⟨990, 995, 0x80080020, 64, 3, 9, false, none⟩ }, 7, 1, ⟨990, 995, 0x80080020, 64, 3, 9, false, none⟩, (by decide +kernel)⟩,
   ⟨(rig.wr (sapCfgReg 15) 0x80080020).setSap 15 { SapDir.init with seq := some ⟨990, 995, 0x80080020, 64, 3, 9, true, none⟩, state := .locking, edges := [5, 4] }, 7, 1, ⟨990, 995, 0x80080020, 64, 3, 9, true, none⟩, by decide +kernel⟩,
   ⟨(rig.wr (sapCfgReg 7) 0xA0080020).setSap 7 { SapDir.init with state := .locking }, 7, 0, 524288, by decide +kernel⟩,
   ⟨(rig.setCtx 1023 { NetCtx.init with state := .running }) |> fun s => { s with net := { s.net with act := [(1023 * 16 + 4, 8)] } }, 1023, (by decide +kernel)⟩,
   ⟨(rig).setSap 15 { SapDir.init with state := .running, rate0 := 3145728 }, 7, 1, 21333333, by decide +kernel⟩⟩

theorem witness_portFramesComplete :
    (∃ (s : State) (port : Nat), let k := sapKey port 0; (s.sapDir k).state = .off)
    ∧ (∃ (s : State) (port : Nat) (edge : DT) (bclks : Nat) (line : List SapBit), let k := sapKey port 0; let x := s.sapDir k; let d := s.frameEdge k (if s.phaseCc k = 0 then 0 else 1) edge; port < 8 ∧ x.state = .running ∧ scAsrc (s.sapCfg k) = false ∧ x.disc = 0 ∧ s.frameTaken k d = true ∧ sapLeads? (s.sapCfg k) (s.rd (sapFrameReg k)) line = true ∧ (scMaster (s.sapCfg k) = true ∨ bclks = frLen (s.rd (sapFrameReg k))))
    ∧ (∃ (s : State) (port : Nat) (edge : DT) (bclks : Nat) (line : List SapBit), let k := sapKey port 0; port < 8 ∧ (s.sapDir k).state = .running ∧ scMaster (s.sapCfg k) = false ∧ s.frameTaken k edge = true ∧ sapLeads? (s.sapCfg k) (s.rd (sapFrameReg k)) line = true ∧ bclks ≠ frLen (s.rd (sapFrameReg k)))
    ∧ (∃ (s : State) (port : Nat) (edge : DT) (e : DT) (t0 : TS) (bclks : Nat) (q : List SapFrame), let k := sapKey port 1; let x := s.sapDir k; let d := s.frameEdge k 0 edge; port < 8 ∧ x.state = .running ∧ scAsrc (s.sapCfg k) = false ∧ x.disc = 0 ∧ s.frameTaken k d = true ∧ (scRole (s.sapCfg k) = 0 ∨ x.edge = some (e, t0)) ∧ x.queue = q ∧ (scMaster (s.sapCfg k) = true ∨ x.seen = none ∨ bclks = frLen (s.rd (sapFrameReg k))) ∧ (let tick := if scRole (s.sapCfg k) = 0 then s.time.ts - 1 else t0 + BitVec.ofNat 32 (periods e d (s.sapPer k)); (∀ f ∈ q, 0 ≤ tsDiff (f.tick.getD tick) tick)))
    ∧ (∃ (s : State) (port : Nat) (dir : Nat) (dt : DT), let k := sapKey port dir; scMaster (s.sapCfg k) = false ∧ ((s.sapDir k).state ∈ [.running, .glitch, .rateError] ∨ ((s.sapDir k).state = .lost ∧ (s.sapDir k).back = true)) ∧ (s.sapDir k).lossRq = none ∧ (∀ e, (s.sapDir k).seen = some e → 5 * (s.sapDir k).perE ≤ 2 * ((dt.toNat - e.toNat : Nat) : Rat)))
    ∧ (∃ (s : State) (port : Nat) (dir : Nat), let k := sapKey port dir; ((s.sapDir k).state = .lost ∨ ((s.sapDir k).state = .rateError ∧ scAsrc (s.sapCfg k) = false)) ∧ (s.sapDir k).edges.length = 16 ∧ (s.sapDir k).back = false)
    ∧ (∃ (s : State) (port : Nat) (dir : Nat), let k := sapKey port dir; scMaster (s.sapCfg k) = false ∧ ((s.sapDir k).state = .running ∨ (s.sapDir k).state = .glitch) ∧ eightOff (s.sapDir k).edges (s.refPer k) = true) :=
  ⟨⟨rig, 7, by decide +kernel⟩,
   ⟨((rig.wr (sapCfgReg 7) 0x80080020).wr (sapFrameReg 7) 64).setSap 7 { SapDir.init with state := .running, edge := some (5, 999), seen := some 5, per := 20833 }, 7, 1020833, 64, [], (by decide +kernel)⟩,
   ⟨((rig.wr (sapCfgReg 7) 0xC0080020).wr (sapFrameReg 7) 64).setSap 7 { SapDir.init with state := .running }, 7, 1020833, 63, [], by decide +kernel⟩,
   ⟨((rig.wr (sapCfgReg 15) 0x80080020).wr (sapFrameReg 15) 64).setSap 15 { SapDir.init with state := .running, edge := some (1000000, 1000), per := 20833, queue := [] }, 7, 1020833, 1000000, 1000, 64, [], by decide +kernel⟩,
   ⟨(rig.wr (sapCfgReg 15) 0xC0080020).setSap 15 { SapDir.init with state := .running }, 7, 1, dtZ, (by decide +kernel), by decide +kernel, by decide +kernel, (by intro e h; cases h)⟩,
   ⟨(rig).setSap 15 { SapDir.init with state := .lost, edges := [16,15,14,13,12,11,10,9,8,7,6,5,4,3,2,1] }, 7, 1, by decide +kernel⟩,
   ⟨(rig.wr (sapCfgReg 15) 0xE0080020).setSap 15 { SapDir.init with state := .glitch, perL := 20833, edges := (List.range 9).map (fun i => BitVec.ofNat 64 (9000 - 1000 * i)) }, 7, 1, by decide +kernel⟩⟩

theorem witness_groveCommandsComplete :
    (∃ (s : State) (h : Hdr) (p : GroveSetP), Ready s h ∧ groveSetValid p = true ∧ groveSetRefusal s p = .ok)
    ∧ (∃ (s : State) (h : Hdr) (g : Nat), Ready s h ∧ g < 8 ∧ groveStartRefusal s g = .ok ∧ admitCheck s (groveStartEffect g s).st = none)
    ∧ (∃ (s : State) (h : Hdr) (g : Nat), Ready s h ∧ g < 8 ∧ (s.groveOf g).state = .running ∧ admitCheck s (groveStopEffect g s).st = none)
    ∧ (∃ (s : State) (g : Nat) (m : Member), g < 8 ∧ (s.groveOf g).state = .running ∧ m ∈ (s.groveOf g).late ∧ s.memberReady m = true) :=
  ⟨⟨rig, cmd, ⟨7, 0, 0x8001, 12, 1000, 24⟩, by unfold Ready; decide +kernel, by decide +kernel⟩,
   ⟨{ rig with grove := [(7, { GroveSt.init with state := .defined, ports := 0x8001, rings := 12 })] }, cmd, 7, by unfold Ready; decide +kernel, (by decide +kernel)⟩,
   ⟨{ rig.setCtx 5 { NetCtx.init with state := .running } with grove := [(7, { GroveSt.init with state := .running, ports := 0x8001, rings := 12, ctxs := [5] })] }, cmd, 7, by unfold Ready; decide +kernel, by decide +kernel⟩,
   ⟨{ (rig).setSap 15 { SapDir.init with state := .running } with grove := [(7, { GroveSt.init with state := .running, ports := 0x8001, late := [.port 7 1] })] }, 7, .port 7 1, by decide +kernel⟩⟩

theorem witness_streamCtrlCompletes :
    (∃ (s : State) (h : Hdr) (p : StreamCtrlP), Ready s h ∧ streamCtrlValid p = true ∧ p.op = 0 ∧ streamCtrlRefusal s p = .ok ∧ admitCheck s (streamCtrlEffect h p s).st = none)
    ∧ (∃ (s : State) (h : Hdr) (p : StreamCtrlP), Ready s h ∧ streamCtrlValid p = true ∧ p.op = 1 ∧ streamCtrlRefusal s p = .ok ∧ admitCheck s (streamCtrlEffect h p s).st = none)
    ∧ (∃ (s : State) (h : Hdr) (p : StreamCtrlP), Ready s h ∧ streamCtrlValid p = true ∧ p.op = 2 ∧ streamCtrlRefusal s p = .ok ∧ admitCheck s (streamCtrlEffect h p s).st = none) :=
  ⟨⟨{ rig with net := { rig.net with shd := [(1023*16, 17), (1023*16+2, 0x01020304), (1023*16+3, 0x0506), (1023*16+4, 0x06020001), (1023*16+6, 48000)] } }, cmd, ⟨1023, 1, 0, 0⟩, by unfold Ready; decide +kernel, by decide +kernel⟩,
   ⟨{ rig with net := { rig.net with act := [(1023*16, 17), (1023*16+2, 0x01020304), (1023*16+3, 0x0506), (1023*16+4, 0x06020001), (1023*16+6, 48000)] } }, cmd, ⟨1023, 1, 1, 3000⟩, by unfold Ready; decide +kernel, (by decide +kernel)⟩,
   ⟨rig.setCtx 1023 { NetCtx.init with state := .running }, cmd, ⟨1022, 2, 2, 0⟩, by unfold Ready; decide +kernel, by decide +kernel⟩⟩

theorem witness_netPacketsComplete :
    (∃ (s : State) (k : Packet), bitN (s.rd Reg.NET_CTRL).toNat (8 + k.mac) = true ∧ s.macsStopped = false ∧ k.fcsOk = false)
    ∧ (∃ (s : State) (k : Packet), bitN (s.rd Reg.NET_CTRL).toNat (8 + k.mac) = true ∧ s.macsStopped = false ∧ k.fcsOk = true ∧ k.isGptp = false ∧ k.isStream = false ∧ (s.ring (bitsOf (s.rd Reg.NET_RX_FILTER) 0 6)).nrx = [])
    ∧ (∃ (s : State) (k : Packet) (b : NetBuf) (l : List NetBuf), let r := bitsOf (s.rd Reg.NET_RX_FILTER) 0 6; bitN (s.rd Reg.NET_CTRL).toNat (8 + k.mac) = true ∧ s.macsStopped = false ∧ k.fcsOk = true ∧ k.isGptp = false ∧ k.isStream = false ∧ bitN (s.rd Reg.NET_RX_FILTER).toNat 31 = true ∧ (s.ring r).state = .running ∧ s.ringType r = 5 ∧ s.dmaOn = true ∧ (s.ring r).nrx = b :: l ∧ (∀ c ∈ l, c.dead = false) ∧ s.cplOf b.hdr.ring ≠ r)
    ∧ (∃ (s : State) (k : Packet) (n : Nat), bitN (s.rd Reg.NET_CTRL).toNat (8 + k.mac) = true ∧ s.macsStopped = false ∧ k.fcsOk = true ∧ k.isGptp = false ∧ k.isStream = true ∧ s.listenerOf k = some n ∧ s.clk.rc = none ∧ (destMac (s.ctxWord n) ≠ k.dest ∨ cxFmt (s.ctxWord n) ≠ k.fmt ∨ (cxFmt (s.ctxWord n) ≠ 3 ∧ cxChans (s.ctxWord n) ≠ k.chans) ∨ cxRate (s.ctxWord n) ≠ k.rate))
    ∧ (∃ (s : State) (k : Packet) (n : Nat), bitN (s.rd Reg.NET_CTRL).toNat (8 + k.mac) = true ∧ s.macsStopped = false ∧ k.fcsOk = true ∧ k.isGptp = false ∧ k.isStream = true ∧ s.listenerOf k = some n ∧ s.clk.rc = none)
    ∧ (∃ (s : State) (n : Nat) (t : TS), 0 ≤ tsDiff t (s.netCtx n).start)
    ∧ (∃ (s : State) (n : Nat) (d : DT), (s.netCtx n).holdDt = some d ∧ ((s.netCtx n).state = .running ∨ (s.netCtx n).state = .lost) ∧ d.toNat + cxHold (s.ctxWord n) * 1000000 ≤ s.time.dt.toNat ∧ s.leads 4 n = false)
    ∧ (∃ (s : State) (n : Nat) (dt : DT), cxTalker (s.ctxWord n) = false ∧ ((s.netCtx n).state = .running ∨ (s.netCtx n).state = .realigning) ∧ (s.netCtx n).lastDt.toNat + cxLoss (s.ctxWord n) * 1000000 ≤ dt.toNat) :=
  ⟨⟨rig.wr Reg.NET_CTRL 0x300, { (⟨0, 2000000, 17, 0x050601020304, 0, 2, 48000, 9, true, 0, [], none, [[1, 2]], true, true, false, 100⟩ : Packet) with fcsOk := false }, by decide +kernel⟩,
   ⟨rig.wr Reg.NET_CTRL 0x300, { (⟨0, 2000000, 17, 0x050601020304, 0, 2, 48000, 9, true, 0, [], none, [[1, 2]], true, true, false, 100⟩ : Packet) with isStream := false }, (by decide +kernel)⟩,
   ⟨(((rig.wr Reg.NET_CTRL 0x300).wr Reg.NET_RX_FILTER 0x80000005)).setRing 5 { rigRing with nrx := [⟨{ cmd with ring := 5 }, 0x1000, 1600, 0, false, 0, false⟩] }, { (⟨0, 2000000, 17, 0x050601020304, 0, 2, 48000, 9, true, 0, [], none, [[1, 2]], true, true, false, 100⟩ : Packet) with isStream := false }, ⟨{ cmd with ring := 5 }, 0x1000, 1600, 0, false, 0, false⟩, [], by decide +kernel⟩,
   ⟨{ ((rig.wr Reg.NET_CTRL 0x300).setFld Fl.NET_GPTP.MODE 1) with net := { rig.net with act := [(1023*16, 17), (1023*16+2, 0x01020304), (1023*16+3, 0x0506), (1023*16+4, 0x00020000), (1023*16+6, 48000)], ctx := [(1023, { NetCtx.init with state := .running, start := 900, first := some 950  })] }, time := { rig.time with net := ⟨true, 0, 0, 0, none⟩ } }, { (⟨0, 2000000, 17, 0x050601020304, 0, 2, 48000, 9, true, 0, [], none, [[1, 2]], true, true, false, 100⟩ : Packet) with dest := 5 }, 1023, by decide +kernel⟩,
   ⟨{ ((rig.wr Reg.NET_CTRL 0x300).setFld Fl.NET_GPTP.MODE 1) with net := { rig.net with act := [(1023*16, 17), (1023*16+2, 0x01020304), (1023*16+3, 0x0506), (1023*16+4, 0x00020000), (1023*16+6, 48000)], ctx := [(1023, { NetCtx.init with state := .running, start := 900, first := some 950  })] }, time := { rig.time with net := ⟨true, 0, 0, 0, none⟩ } }, { (⟨0, 2000000, 17, 0x050601020304, 0, 2, 48000, 9, true, 0, [], none, [[1, 2]], true, true, false, 100⟩ : Packet) with dt := 2000000 }, 1023, (by decide +kernel)⟩,
   ⟨{ ((rig.wr Reg.NET_CTRL 0x300).setFld Fl.NET_GPTP.MODE 1) with net := { rig.net with act := [(1023*16, 17), (1023*16+2, 0x01020304), (1023*16+3, 0x0506), (1023*16+4, 0x00020000), (1023*16+6, 48000)], ctx := [(1023, { NetCtx.init with state := .running, start := 900, first := some 950  })] }, time := { rig.time with net := ⟨true, 0, 0, 0, none⟩ } }, 1023, 900, by decide +kernel⟩,
   ⟨{ ((rig.wr Reg.NET_CTRL 0x300).setFld Fl.NET_GPTP.MODE 1) with net := { rig.net with act := [(1023*16, 17), (1023*16+2, 0x01020304), (1023*16+3, 0x0506), (1023*16+4, 0x00020000), (1023*16+6, 48000)], ctx := [(1023, { NetCtx.init with state := .running, start := 900, first := some 950 , holdDt := some 5, holdE := 7 })] }, time := { rig.time with dt := 1000000000, net := ⟨true, 0, 0, 0, none⟩ } }, 1023, 5, by decide +kernel⟩,
   ⟨{ ((rig.wr Reg.NET_CTRL 0x300).setFld Fl.NET_GPTP.MODE 1) with net := { rig.net with act := [(1023*16, 17), (1023*16+2, 0x01020304), (1023*16+3, 0x0506), (1023*16+4, 0x00020000), (1023*16+6, 48000)], ctx := [(1023, { NetCtx.init with state := .running, start := 900, first := some 950 , lastDt := 5 })] }, time := { rig.time with net := ⟨true, 0, 0, 0, none⟩ } }, 1023, dtZ, (by decide +kernel)⟩⟩

theorem witness_netFramesAndLinks :
    (∃ (s : State) (h : Hdr) (p : NtxP), headerOk s h [4] = true ∧ h.chain = false ∧ ntxFrameValid p = true ∧ s.dmaAllowed p.addr p.len false = true ∧ s.linkUp p.mac = true)
    ∧ (∃ (s : State) (h : Hdr) (p : NtxP), headerOk s h [4] = true ∧ h.chain = false ∧ ntxFrameValid p = true ∧ s.dmaAllowed p.addr p.len false = true ∧ s.linkUp p.mac = false)
    ∧ (∃ (s : State) (h : Hdr) (p : NrxP), headerOk s h [5] = true ∧ h.chain = false ∧ 1 ≤ p.len ∧ p.len < 65536 ∧ s.dmaAllowed p.addr p.len true = true ∧ (∀ b ∈ (s.ring (ringOf h)).nrx, b.dead = false))
    ∧ (∃ (s : State) (r : Nat) (b : NetBuf) (l : List NetBuf), (s.ring r).ntx = b :: l)
    ∧ (∃ (s : State) (mac : Nat) (speed : Nat), s.macOn mac = true ∧ 1 ≤ speed ∧ speed ≤ 3 ∧ bitsOf (s.rd Reg.NET_STATUS) (4 * mac) 2 = 0)
    ∧ (∃ (s : State) (mac : Nat), s.macOn mac = true ∧ bitsOf (s.rd Reg.NET_STATUS) (4 * mac) 2 ≠ 0)
    ∧ (∃ (mac : Nat), mac < 2)
    ∧ (∃ (s : State), s.net.mdio = true) :=
  ⟨⟨(rig.wr Reg.NET_CTRL 0x300).wr Reg.NET_STATUS 0x33, { cmd with ring := 4 }, ⟨0x1000, 60, 1, true, 3⟩, by decide +kernel⟩,
   ⟨rig.wr Reg.NET_CTRL 0x300, { cmd with ring := 4 }, ⟨0x1000, 1522, 1, true, 3⟩, (by decide +kernel)⟩,
   ⟨rig, { cmd with ring := 5 }, ⟨0x1000, 65535⟩, by decide +kernel⟩,
   ⟨((rig.wr Reg.NET_CTRL 0x300).wr Reg.NET_STATUS 0x33).setRing 4 { rigRing with ntx := [⟨{ cmd with ring := 4 }, 0x1000, 100, 1, true, 1, false⟩] }, 4, ⟨{ cmd with ring := 4 }, 0x1000, 100, 1, true, 1, false⟩, [], by decide +kernel⟩,
   ⟨rig.wr Reg.NET_CTRL 0x300, 0, 1, (by decide +kernel)⟩,
   ⟨((rig.wr Reg.NET_CTRL 0x300).wr Reg.NET_STATUS 0x33).setRing 4 { rigRing with ntx := [⟨{ cmd with ring := 4 }, 0x1000, 100, 1, true, 1, false⟩, ⟨{ cmd with ring := 4 }, 0x1000, 100, 0, true, 1, false⟩] }, 1, by decide +kernel⟩,
   ⟨1, by decide +kernel⟩,
   ⟨{ (rig.setFld Fl.NET_MDIO.OP 0) with net := { rig.net with mdio := true } }, (by decide +kernel)⟩⟩

theorem witness_registerFieldAccess :
    (∃ (s : State) (off : Nat) (d : RegDef), Open s ∧ off % 4 = 0 ∧ regDef? off = some d ∧ ownRule off = false)
    ∧ (∃ (s : State) (off : Nat), s.barGate = 1 ∧ off % 4 = 0 ∧ regDef? off = none)
    ∧ (∃ (s : State), s.barGate = 1)
    ∧ (∃ (s : State), s.pwr.state = .glade) :=
  ⟨⟨rig, Reg.AIN_JACK_CFG, (regDef? (Reg.AIN_JACK_CFG)).getD (RegDef.mk 0 0 0 0 []), by unfold Open; decide +kernel, by decide +kernel⟩,
   ⟨rig, 0x00FFC, (by decide +kernel)⟩,
   ⟨rig, by decide +kernel⟩,
   ⟨{ rig with pwr := { rig.pwr with state := .glade } }, by decide +kernel⟩⟩

theorem witness_setupLockHolds :
    (∃ (s : State) (off : Nat), s.barGate = 1 ∧ s.locked = true ∧ off ≠ Reg.FLT_CTRL) :=
  ⟨rig.setFld Fl.TOP_LOCK.LOCK 1, Reg.TWB_CTRL, by decide +kernel⟩

theorem witness_setupRowsComplete :
    (∃ (s : State) (v : Word), Open s ∧ s.runSet = false ∧ bitsOf v 12 4 ≤ 4 ∧ bitsOf v 8 3 ≤ 5)
    ∧ (∃ (s : State), Open s)
    ∧ (∃ (s : State), s.barGate = 1 ∧ s.hwd.booted = false)
    ∧ (∃ (s : State) (n : Nat) (v : Word), s.barGate = 1 ∧ n < 64 ∧ bitN v.toNat 31 = true ∧ s.ringEn n = false ∧ bitsOf v 0 4 ≤ 7 ∧ 4 ≤ bitsOf v 16 4)
    ∧ (∃ (s : State) (n : Nat) (v : Word), s.barGate = 1 ∧ n < 64 ∧ bitN v.toNat 31 = false ∧ s.ringEn n = true ∧ s.ringType n ≠ 1)
    ∧ (∃ (s : State) (n : Nat) (v : Word), Open s ∧ n < 16 ∧ s.gpioCheck n v = .ok)
    ∧ (∃ (s : State) (n : Nat) (v : Word), Open s ∧ n < 16 ∧ s.gpioCheck n v ≠ .ok)
    ∧ (∃ (s : State), Open s)
    ∧ (∃ (s : State), s.barGate = 1)
    ∧ (∃ (s : State), s.barGate = 1 ∧ s.net.mdio = false)
    ∧ (∃ (s : State), s.barGate = 1)
    ∧ (∃ (s : State), s.barGate = 1)
    ∧ (∃ (s : State), s.barGate = 1) :=
  ⟨⟨(rig.wr Reg.CLK_CTRL 0x100), 0x00000100, by unfold Open; decide +kernel, by decide +kernel⟩,
   ⟨rig, by unfold Open; decide +kernel⟩,
   ⟨{ rig with hwd := { rig.hwd with booted := false } }, by decide +kernel⟩,
   ⟨rig, 63, 0x82FF0007, by decide +kernel⟩,
   ⟨rig, 7, 0, (by decide +kernel)⟩,
   ⟨rig, 15, 0x00000000, by unfold Open; decide +kernel, by decide +kernel⟩,
   ⟨rig, 15, 7, by unfold Open; decide +kernel, by decide +kernel⟩,
   ⟨rig, by unfold Open; decide +kernel⟩,
   ⟨rig, by decide +kernel⟩,
   ⟨rig, by decide +kernel⟩,
   ⟨rig, (by decide +kernel)⟩,
   ⟨rig, by decide +kernel⟩,
   ⟨rig, by decide +kernel⟩⟩

theorem witness_controlRowsComplete :
    (∃ (s : State), s.barGate = 1)
    ∧ (∃ (s : State), s.barGate = 1)
    ∧ (∃ (s : State), s.barGate = 1)
    ∧ (∃ (s : State), s.barGate = 1)
    ∧ (∃ (s : State), s.barGate = 1)
    ∧ (∃ (s : State), s.barGate = 1)
    ∧ (∃ (s : State), s.barGate = 1 ∧ s.flt.dump.isSome = true)
    ∧ (∃ (s : State) (w : Nat), s.barGate = 1 ∧ s.flt.dump = none ∧ s.dumpWriter = some w)
    ∧ (∃ (s : State), s.barGate = 1)
    ∧ (∃ (s : State) (c : Nat), s.barGate = 1 ∧ c < 4)
    ∧ (∃ (s : State) (off : Nat), s.barGate = 1 ∧ off % 4 = 0 ∧ off < 0x90000 ∧ off % 0x800 / 4 < 384) :=
  ⟨⟨rig, by decide +kernel⟩,
   ⟨(rig.wr (budReg 0) 0x12345678).wr (budReg 2) 0x99, (by decide +kernel)⟩,
   ⟨{ rig with blz := { rig.blz with store := [⟨0, 3, ⟨3, 0x3001, 3, 5, 0, 1, 2, 3, false, 0⟩⟩, ⟨1, 4, ⟨3, 0x3001, 6, 5, 0, 1, 2, 3, false, 0⟩⟩, ⟨2, 5, ⟨3, 0x3001, 3, 5, 0, 1, 2, 3, false, 0⟩⟩] } }, by decide +kernel⟩,
   ⟨{ rig with blz := { rig.blz with store := [⟨0, 3, ⟨3, 0x3001, 3, 5, 0, 1, 2, 3, false, 0⟩⟩, ⟨1, 5, ⟨3, 0x3001, 3, 5, 0, 1, 2, 3, false, 0⟩⟩] } }, by decide +kernel⟩,
   ⟨rig, (by decide +kernel)⟩,
   ⟨rig, by decide +kernel⟩,
   ⟨{ rig with flt := { rig.flt with dump := some ⟨7, 0, 0, 0, 0, 0, 0, 0, [], [], [], [], true, false, true⟩ } }, by decide +kernel⟩,
   ⟨rig, 0, (by decide +kernel)⟩,
   ⟨rig, by decide +kernel⟩,
   ⟨rig, 3, by decide +kernel⟩,
   ⟨rig, 0x8FDFC, (by decide +kernel)⟩⟩

theorem witness_linkEventsComplete :
    (∃ (s : State) (h : Hdr), h.rsv = false ∧ h.late ≠ 3 ∧ s.ringType (ringOf h) = 0 ∧ (h.timed = false ∨ h.target = s.time.ts))
    ∧ (∃ (s : State) (n : Nat), n < 64 ∧ (s.ring n).state = .running)
    ∧ (∃ (s : State) (n : Nat) (d : StreamDesc), n < 64 ∧ (s.ringType n = 2 ∧ (s.ring n).queue.find? (fun x => !x.ended && !x.bufOk) = some d ∨ s.ringType n = 3 ∧ (s.ring n).queue.find? (fun x => !x.ended && (frameAt x s.time.ts).isSome) = some d))
    ∧ (∃ (s : State) (n : Nat) (b : NetBuf) (l : List NetBuf), n < 64 ∧ (s.ringType n = 4 ∧ (s.ring n).ntx = b :: l ∨ s.ringType n = 5 ∧ (s.ring n).nrx = b :: l ∧ s.cplOf b.hdr.ring ≠ n))
    ∧ (∃ (s : State) (n : Nat) (b : BlkXfer) (l : List BlkXfer), n < 64 ∧ s.ringType n = 7 ∧ (s.ring n).blk = b :: l ∧ b.running = true ∧ DramWf s)
    ∧ (∃ (s : State), s.host.speed ≠ 0)
    ∧ (∃ (s : State), s.host.bme = true)
    ∧ (∃ (s : State) (speed : Nat) (width : Nat), 1 ≤ speed ∧ speed ≤ 3 ∧ 1 ≤ width ∧ width ≤ 2 ∧ s.host.perst = false)
    ∧ (∃ (s : State), s.host.perst = false)
    ∧ (∃ (s : State), s.host.perst = false)
    ∧ (∃ (s : State), s.host.perst = true)
    ∧ (∃ (s : State) (z : SleepSt), s.pwr.state = .glade ∧ s.pwr.sleep = some z ∧ z.chosen = 2 ∧ s.pwr.failed = false)
    ∧ (∃ (s : State) (dt : DT) (n : Nat), s.time.net.valid = true ∧ (mapRead s.time.net dt % 1000000000 ≤ 41 ∨ 1000000000 - 41 ≤ mapRead s.time.net dt % 1000000000) ∧ (List.range 16).find? (fun m => s.fld (Fl.PIN_GPIO_CFG.FUNC m) == 3 && s.fld (Fl.PIN_GPIO_CFG.SEL m) == 0) = some n)
    ∧ (∃ (s : State) (n : Nat) (dt : DT) (d : DT), smGet? s.pin.high n = some d ∧ d.toNat ≤ dt.toNat) :=
  ⟨⟨rig, cmd, by decide +kernel⟩,
   ⟨rig.setRing 63 rigRing, 63, (by decide +kernel)⟩,
   ⟨rig.setRing 2 { rigRing with queue := [⟨cmd, 0x0401, 990, 64, false, 0, 0, 0, none, [], false, 990, 0x1000, false, false⟩] }, 2, ⟨cmd, 0x0401, 990, 64, false, 0, 0, 0, none, [], false, 990, 0x1000, false, false⟩, by decide +kernel⟩,
   ⟨rig.setRing 4 { rigRing with ntx := [⟨{ cmd with ring := 4 }, 0x1000, 100, 1, true, 1, false⟩] }, 4, ⟨{ cmd with ring := 4 }, 0x1000, 100, 1, true, 1, false⟩, [], by decide +kernel⟩,
   ⟨rig.setRing 7 { rigRing with blk := [⟨cmd, 0x0701, ⟨0x1000, 0x01020304, 0x100, 64⟩, 990, true, 995, false⟩] }, 7, ⟨cmd, 0x0701, ⟨0x1000, 0x01020304, 0x100, 64⟩, 990, true, 995, false⟩, [], (by decide +kernel), by decide +kernel, by decide +kernel, (by decide +kernel), by unfold DramWf; decide +kernel⟩,
   ⟨rig, by decide +kernel⟩,
   ⟨rig, by decide +kernel⟩,
   ⟨{ rig with host := { rig.host with speed := 0 } }, 3, 2, (by decide +kernel)⟩,
   ⟨rig, by decide +kernel⟩,
   ⟨rig, by decide +kernel⟩,
   ⟨{ rig with host := { rig.host with perst := true } }, (by decide +kernel)⟩,
   ⟨{ rig with pwr := { rig.pwr with state := .glade, sleep := some ⟨cmd, 950, 950000, 2, none, 0, false, 9, false, false, none, 0, 0, 0, 0, 1000, true, 0, none⟩ } }, ⟨cmd, 950, 950000, 2, none, 0, false, 9, false, false, none, 0, 0, 0, 0, 1000, true, 0, none⟩, by decide +kernel⟩,
   ⟨{ (rig.setFld (Fl.PIN_GPIO_CFG.FUNC 15) 3) with time := { rig.time with net := ⟨true, 0, 0, 0, none⟩ } }, 2000000041, 15, by decide +kernel⟩,
   ⟨{ rig with pin := ⟨[(15, 7)]⟩ }, 15, dtZ, 7, (by decide +kernel)⟩⟩

theorem witness_targetReadsComplete :
    (∃ (s : State), s.twbOn = true)
    ∧ (∃ (s : State) (tx : Tx), s.twbOn = true ∧ s.twbCore = true ∧ tx.complete = true)
    ∧ (∃ (s : State), s.twbOn = true ∧ s.twbCore = true)
    ∧ (∃ (s : State), s.twbOn = true ∧ s.twbCore = false)
    ∧ (∃ (s : State) (x : Word) (tx : Tx), s.twbOn = true ∧ s.twbCore = true ∧ tx.complete = true ∧ s.pecBad 0x09 (le32 x) tx = false)
    ∧ (∃ (s : State), s.twbOn = true ∧ s.twbCore = true)
    ∧ (∃ (s : State), s.twbOn = true ∧ s.twbCore = true)
    ∧ (∃ (s : State), s.twbOn = true ∧ s.twbCore = true ∧ s.twbPower = 0) :=
  ⟨⟨rig, by decide +kernel⟩,
   ⟨rig, txn, (by decide +kernel)⟩,
   ⟨rig, by decide +kernel⟩,
   ⟨{ rig with pwr := { rig.pwr with state := .moss } }, by decide +kernel⟩,
   ⟨{ rig with twb := { rig.twb with regAddr := 0x10108 } }, 0xFFFFFFFF, txn, (by decide +kernel)⟩,
   ⟨{ rig with twb := { rig.twb with regAddr := 0 } }, by decide +kernel⟩,
   ⟨rig, by decide +kernel⟩,
   ⟨rig, (by decide +kernel)⟩⟩

theorem witness_targetCommandsComplete :
    (∃ (s : State) (tx : Tx), s.twbOn = true ∧ tx.complete = true ∧ s.pecBad 0xA5 [] tx = false)
    ∧ (∃ (s : State) (z : SleepSt), s.twbOn = true ∧ s.pwr.sleep = some z ∧ s.pwr.failed = false ∧ s.pwr.state = .glade)
    ∧ (∃ (s : State) (code : BitVec 8) (tx : Tx), s.twbOn = true ∧ tx.complete = true ∧ s.pecBad 0xF1 [code] tx = false)
    ∧ (∃ (s : State) (dt : DT) (a : DT), s.twb.armed = some a ∧ a.toNat + 10000000 < dt.toNat)
    ∧ (∃ (s : State) (action : BitVec 8) (tx : Tx), s.twbOn = true ∧ tx.complete = true ∧ s.pecBad 0xF0 [action] tx = false ∧ (s.twb.armed = none ∨ (∃ a, s.twb.armed = some a ∧ a.toNat + 10000000 < ((s.advance tx.dt).time.dt).toNat) ∨ action = 0 ∨ 3 < action.toNat))
    ∧ (∃ (s : State) (a : DT) (tx : Tx), s.twbOn = true ∧ tx.complete = true ∧ s.twb.armed = some a ∧ ((s.advance tx.dt).time.dt).toNat ≤ a.toNat + 10000000)
    ∧ (∃ (s : State), s.twbOn = true ∧ s.twb.alertN = true ∧ s.flag Fl.TWB_CTRL.ARA_EN = true)
    ∧ (∃ (s : State), s.twbOn = true)
    ∧ (∃ (s : State), s.twbOn = true) :=
  ⟨⟨rig, txn, by decide +kernel⟩,
   ⟨{ rig with pwr := { rig.pwr with state := .glade, sleep := some ⟨cmd, 950, 950000, 2, none, 0, false, 9, false, false, none, 0, 256, 0, 0, 1000, true, 0, none⟩ } }, ⟨cmd, 950, 950000, 2, none, 0, false, 9, false, false, none, 0, 256, 0, 0, 1000, true, 0, none⟩, (by decide +kernel)⟩,
   ⟨rig, 0x5A, txn, by decide +kernel⟩,
   ⟨{ rig with twb := { rig.twb with armed := some 5 } }, dtZ, 5, by decide +kernel⟩,
   ⟨rig, 0, txn, (by decide +kernel)⟩,
   ⟨{ rig with twb := { rig.twb with armed := some 1900000 } }, 1900000, ⟨true, some 0, 2000000⟩, by decide +kernel⟩,
   ⟨{ rig.setFld Fl.TWB_CTRL.ARA_EN 1 with twb := { rig.twb with alertN := true } }, by decide +kernel⟩,
   ⟨rig, (by decide +kernel)⟩,
   ⟨rig, by decide +kernel⟩⟩

theorem witness_perfAndSleep :
    (∃ (s : State) (h : Hdr) (level : Nat), Ready s h ∧ perfLevelValid level = true ∧ perfLevelRefusal s level = .ok)
    ∧ (∃ (s : State) (p : TS), s.pwr.raiseAt = some p)
    ∧ (∃ (s : State) (h : Hdr) (p : SleepP), Ready s h ∧ sleepValid s p = true ∧ sleepRefusal s = .ok)
    ∧ (∃ (s : State) (z : SleepSt), s.pwr.sleep = some z ∧ s.pwr.state = .entering ∧ z.holding = false ∧ z.turn < 7 ∧ (turnTk z.turn : Int) ≤ tsDiff s.time.ts (z.t + BitVec.ofNat 32 z.hold) ∧ ¬ (z.turn = 5 ∧ z.convOn = true))
    ∧ (∃ (s : State) (z : SleepSt), s.pwr.sleep = some z ∧ s.pwr.state = .entering ∧ z.holding = false ∧ z.turn < 7 ∧ (turnTk z.turn : Int) ≤ tsDiff s.time.ts (z.t + BitVec.ofNat 32 z.hold) ∧ ¬ (z.turn = 5 ∧ z.convOn = true))
    ∧ (∃ (s : State) (z : SleepSt), s.pwr.sleep = some z ∧ s.pwr.state = .entering ∧ z.holding = false ∧ z.turn = 5 ∧ z.convOn = true ∧ 4 ≤ tsDiff s.time.ts (z.t + BitVec.ofNat 32 z.hold))
    ∧ (∃ (s : State) (z : SleepSt) (away : Bool), s.pwr.sleep = some z ∧ z.holding = true ∧ (away = true → s.host.speed = 0) ∧ (away = false → z.tdt.toNat + s.fld Fl.PWR_SLEEP_CFG.LINK_WAIT * 1000000 ≤ s.time.dt.toNat)) :=
  ⟨⟨rig, cmd, 0, by unfold Ready; decide +kernel, by decide +kernel⟩,
   ⟨{ rig with pwr := { rig.pwr with raiseAt := some 1000 } }, 1000, (by decide +kernel)⟩,
   ⟨rig, cmd, ⟨1, false, 0⟩, by unfold Ready; decide +kernel, by decide +kernel⟩,
   ⟨{ rig with pwr := { rig.pwr with state := .entering, sleep := some ⟨cmd, 950, 950000, 1, none, 0, false, 1, false, false, none, 0, 0, 0, 0, 1000, false, 0, none⟩ } }, ⟨cmd, 950, 950000, 1, none, 0, false, 1, false, false, none, 0, 0, 0, 0, 1000, false, 0, none⟩, by decide +kernel⟩,
   ⟨{ rig with pwr := { rig.pwr with state := .entering, sleep := some ⟨cmd, 950, 950000, 2, none, 0, false, 6, false, false, none, 0, 0, 0, 0, 1000, false, 0, none⟩ } }, ⟨cmd, 950, 950000, 2, none, 0, false, 6, false, false, none, 0, 0, 0, 0, 1000, false, 0, none⟩, (by decide +kernel)⟩,
   ⟨{ rig with pwr := { rig.pwr with state := .entering, sleep := some ⟨cmd, 950, 950000, 2, none, 0, false, 5, true, false, none, 0, 0, 0, 0, 1000, false, 0, none⟩ } }, ⟨cmd, 950, 950000, 2, none, 0, false, 5, true, false, none, 0, 0, 0, 0, 1000, false, 0, none⟩, by decide +kernel⟩,
   ⟨{ { rig with pwr := { rig.pwr with sleep := some ⟨cmd, 950, 950000, 2, none, 3, true, 4, false, false, none, 0, 0, 0, 0, 1000, false, 0, none⟩ } } with host := { rig.host with speed := 0 } }, ⟨cmd, 950, 950000, 2, none, 3, true, 4, false, false, none, 0, 0, 0, 0, 1000, false, 0, none⟩, true, by decide +kernel⟩⟩

theorem witness_entryWakeAndExit :
    (∃ (s : State) (z : SleepSt), s.pwr.sleep = some z ∧ s.pwr.state = .entering ∧ z.turn = 7 ∧ 1 ≤ z.chosen ∧ z.chosen ≤ 4 ∧ 38 ≤ tsDiff s.time.ts (z.t + BitVec.ofNat 32 z.hold))
    ∧ (∃ (s : State) (z : SleepSt) (dt : DT), s.pwr.sleep = some z ∧ s.pwr.state = .entering ∧ z.turn = 8 ∧ z.entry.toNat + 1000 * entryUs z.chosen ≤ dt.toNat)
    ∧ (∃ (s : State) (z : SleepSt) (c : Instr) (bit : Nat) (num : Nat) (dt : DT), s.pwr.sleep = some z ∧ ((c = .gpioWakeLevel num dt ∧ bit = 9) ∨ (c = .sapWakeActivity num dt ∧ bit = 4) ∨ (c = .sapWakePattern num dt ∧ bit = 5) ∨ (c = .canopyTimer dt ∧ bit = z.nextSrc ∧ num = 0 ∧ 7 ≤ z.turn ∧ ∃ e, z.next = some e ∧ e.toNat ≤ dt.toNat + 1000 * (s.fld Fl.PWR_SLEEP_CFG.GUARD + exitUs z.chosen))))
    ∧ (∃ (s : State), s.pwr.state = .waking ∧ 1 ≤ s.pwr.step ∧ s.pwr.step < 4)
    ∧ (∃ (s : State), s.pwr.state = .waking ∧ s.pwr.step = 4 ∧ s.pwr.left ≠ 0 ∧ s.pwr.left ≤ 3 ∧ s.pwr.lost = 0)
    ∧ (∃ (s : State), s.pwr.state = .waking ∧ s.pwr.step = 4 ∧ s.pwr.left = 0)
    ∧ (∃ (s : State) (dt : DT), s.pwr.state = .waking ∧ 1 ≤ s.pwr.step ∧ s.pwr.step ≤ 4 ∧ s.pwr.stepDt.toNat + 4000 * stepUs s.pwr.left s.pwr.step ≤ dt.toNat)
    ∧ (∃ (s : State) (z : SleepSt) (w : TS), s.pwr.sleep = some z ∧ 1 ≤ z.chosen ∧ z.chosen ≤ 4 ∧ s.pwr.state = .waking ∧ s.pwr.step = 5 ∧ s.time.running = false ∧ s.time.placed = some w)
    ∧ (∃ (s : State) (z : SleepSt) (e : WakeEv) (dt : DT), s.pwr.sleep = some z ∧ z.chosen = 1 ∧ s.pwr.state = .shade ∧ s.pwr.wake = some e ∧ (let d := (s.advance dt).boundaryDt dt; s.pwr.stepDt.toNat + 12000 ≤ d.toNat)) :=
  ⟨⟨{ rig with pwr := { rig.pwr with state := .entering, sleep := some ⟨cmd, 950, 950000, 1, none, 0, false, 7, false, false, none, 0, 0, 0, 0, 1000, false, 0, none⟩ } }, ⟨cmd, 950, 950000, 1, none, 0, false, 7, false, false, none, 0, 0, 0, 0, 1000, false, 0, none⟩, by decide +kernel⟩,
   ⟨{ rig with pwr := { rig.pwr with state := .entering, sleep := some ⟨cmd, 950, 950000, 1, none, 0, false, 8, false, false, none, 0, 0, 0, 0, 1000, false, 0, none⟩ } }, ⟨cmd, 950, 950000, 1, none, 0, false, 8, false, false, none, 0, 0, 0, 0, 1000, false, 0, none⟩, dtZ, (by decide +kernel)⟩,
   ⟨{ rig with pwr := { rig.pwr with state := .entering, sleep := some ⟨cmd, 950, 950000, 2, none, 0, false, 7, false, false, none, 0, 0, 0, 0, 1000, true, 0, none⟩ } }, ⟨cmd, 950, 950000, 2, none, 0, false, 7, false, false, none, 0, 0, 0, 0, 1000, true, 0, none⟩, .gpioWakeLevel 15 dtZ, 9, 15, dtZ, by decide +kernel⟩,
   ⟨{ rig with pwr := { rig.pwr with state := .waking, step := 1, left := 2, run := 1 } }, by decide +kernel⟩,
   ⟨{ rig with pwr := { rig.pwr with state := .waking, step := 4, left := 1, run := 1, sleep := some ⟨cmd, 950, 950000, 1, none, 0, false, 9, false, false, none, 0, 0, 0, 0, 1000, false, 0, none⟩ } }, (by decide +kernel)⟩,
   ⟨{ rig with pwr := { rig.pwr with state := .waking, step := 4, left := 0, run := 1 } }, by decide +kernel⟩,
   ⟨{ rig with pwr := { rig.pwr with state := .waking, step := 2, left := 2, run := 1, stepDt := 5 } }, dtZ, by decide +kernel⟩,
   ⟨{ { rig with pwr := { rig.pwr with state := .waking, step := 5, left := 2, run := 1, sleep := some ⟨cmd, 950, 950000, 2, none, 0, false, 9, false, false, none, 0, 0, 0, 0, 1000, false, 0, none⟩, wake := some ⟨5, 3, 7, false⟩ } } with time := { rig.time with running := false, placed := some 2000 } }, ⟨cmd, 950, 950000, 2, none, 0, false, 9, false, false, none, 0, 0, 0, 0, 1000, false, 0, none⟩, 2000, (by decide +kernel)⟩,
   ⟨{ rig with pwr := { rig.pwr with state := .shade, sleep := some ⟨cmd, 950, 950000, 1, none, 0, false, 9, false, false, none, 0, 0, 0, 0, 1000, false, 0, none⟩, wake := some ⟨3, 0, 5, false⟩ } }, ⟨cmd, 950, 950000, 1, none, 0, false, 9, false, false, none, 0, 0, 0, 0, 1000, false, 0, none⟩, ⟨3, 0, 5, false⟩, dtZ, by decide +kernel⟩⟩

theorem witness_resetsAndSupplies :
    (∃ (s : State), s.sup.canopy = false)
    ∧ (∃ (s : State), s.sup.core = true)
    ∧ (∃ (s : State), s.sup.core = true)
    ∧ (∃ (s : State), s.barGate = 1)
    ∧ (∃ (s : State), s.sup.resetN = true)
    ∧ (∃ (s : State), s.sup.canopy = true) :=
  ⟨⟨{ rig with sup := { rig.sup with canopy := false } }, by decide +kernel⟩,
   ⟨rig, (by decide +kernel)⟩,
   ⟨rig, by decide +kernel⟩,
   ⟨rig, by decide +kernel⟩,
   ⟨State.reset, (by decide +kernel)⟩,
   ⟨{ rig with sup := { rig.sup with core := false } }, by decide +kernel⟩⟩

theorem witness_listeningCompletes :
    (∃ (s : State) (h : Hdr) (p : ListenSetP), Ready s h ∧ listenSetValid p = true ∧ listenSetRefusal s p = .ok ∧ p.op = 0)
    ∧ (∃ (s : State) (h : Hdr) (p : ListenSetP), Ready s h ∧ listenSetValid p = true ∧ listenSetRefusal s p = .ok ∧ p.op = 1)
    ∧ (∃ (s : State) (h : Hdr) (p : ListenWaitP), Ready s h ∧ p.mask ≠ 0)
    ∧ (∃ (s : State) (h : Hdr) (p : PrerollReadP), Ready s h ∧ prerollReadValid p = true ∧ s.dmaAllowed p.addr (144 * p.n) true = true)
    ∧ (∃ (s : State) (x : HopIn), s.lsn.mode = .running ∧ x.dt.toNat % s.hopNs = 0 ∧ x.samples.length * sampleNs = s.hopNs ∧ s.lsn.since.toNat + s.hopNs ≤ x.dt.toNat ∧ x.dt.toNat + 11 * sampleNs ≤ x.done.toNat)
    ∧ (∃ (s : State) (samples : List Word) (dt : DT), s.lsn.mode = .running ∧ samples.length = 256 ∧ dt.toNat % 16000000 = 0 ∧ s.lsn.since.toNat + 16000000 ≤ dt.toNat)
    ∧ (∃ (s : State) (w : DT) (dt : DT), s.lsn.stopW = some w ∧ s.lsn.mode = .running ∧ dt.toNat % 16000000 = 0 ∧ w.toNat + 1000000000 ≤ dt.toNat) :=
  ⟨⟨rig.wr (Reg.AIN_CFG 9) 0x80000003, cmd, ⟨0, true, true, 0, 9, 0⟩, by unfold Ready; decide +kernel, by decide +kernel⟩,
   ⟨{ rig with lsn := { rig.lsn with shd := [(0, 0x314E534C), (1, 0x00010001)] ++ (List.range 5).map (fun i => (6 + i, 1)) } }, cmd, ⟨1, false, false, 0, 0, 0⟩, by unfold Ready; decide +kernel, (by decide +kernel)⟩,
   ⟨rig, cmd, ⟨0x8000, 3000⟩, by unfold Ready; decide +kernel, by decide +kernel⟩,
   ⟨{ rig with lsn := { rig.lsn with blocks := [⟨16000000, 0, 0, 0, 0, false, false, 3, []⟩, ⟨32000000, 0, 0, 0, 0, false, false, 4, []⟩] } }, cmd, ⟨0x1000, 512, 0⟩, by unfold Ready; decide +kernel, by decide +kernel⟩,
   ⟨{ rig with lsn := { rig.lsn with mode := .running, since := 0, nf := some (-60), bands := some (List.replicate 32 (-60)), m := 1 } }, ⟨40000000, 40000000 + 11 * 62500, List.replicate 64 5⟩, (by decide +kernel)⟩,
   ⟨{ rig with lsn := { rig.lsn with mode := .running, since := 0, blocks := [⟨16000000, 0, 0, 0, 0, false, false, 3, []⟩], seq := 65535, disc := true } }, List.replicate 256 77, 48000000, by decide +kernel⟩,
   ⟨{ rig with lsn := { rig.lsn with mode := .running, stopW := some 0, run := none } }, 0, 1008000000, by decide +kernel⟩⟩

theorem witness_fullStagingQueue :
    (∃ (s : State) (e : Ev) (q : List Ev), s.coreDown = false ∧ smGet s.blz.queues e.src [] = q ∧ q.length = 4)
    ∧ (∃ (e : Ev), e.coal = true) :=
  ⟨⟨{ rig with blz := { rig.blz with queues := [(Src.AIN, [⟨Src.AIN, 12289, 2, 900, 0, 0, 0, 0, false, 0⟩, ⟨Src.AIN, 12291, 1, 900, 0, 0, 0, 0, true, 5⟩, ⟨Src.AIN, 12292, 1, 900, 0, 0, 0, 0, false, 0⟩, ⟨Src.AIN, 12295, 4, 900, 0, 0, 0, 0, false, 0⟩])] } }, ⟨Src.AIN, 12291, 3, 900, 0, 0, 0, 0, false, 0⟩, [⟨Src.AIN, 12289, 2, 900, 0, 0, 0, 0, false, 0⟩, ⟨Src.AIN, 12291, 1, 900, 0, 0, 0, 0, true, 5⟩, ⟨Src.AIN, 12292, 1, 900, 0, 0, 0, 0, false, 0⟩, ⟨Src.AIN, 12295, 4, 900, 0, 0, 0, 0, false, 0⟩], by decide +kernel⟩,
   ⟨⟨Src.AIN, 12291, 1, 900, 0, 0, 0, 0, true, 9⟩, (by decide +kernel)⟩⟩

theorem witness_blazeCompletes :
    (∃ (s : State) (h : Hdr) (p : BlzMarkP), Ready s h ∧ p.sev ≤ 4)
    ∧ (∃ (s : State) (src : Nat) (e : Ev) (rest : List Ev), s.blz.sealFirst = false ∧ s.blz.boot = none ∧ s.blz.drop = none ∧ s.nextQueue = some (src, e) ∧ smGet s.blz.queues src [] = e :: rest)
    ∧ (∃ (s : State) (d : DropSum), s.blz.sealFirst = false ∧ s.blz.boot = none ∧ s.blz.drop = some d ∧ (∃ n, n < 4096 ∧ ∀ r ∈ s.blz.store, r.slot ≠ n))
    ∧ (∃ (s : State) (x : SealDue) (l : List SealDue) (k : DeviceKeys), s.blz.seals = x :: l ∧ s.hwd.devKeys = some k ∧ (∃ n, n < 4096 ∧ ∀ r ∈ s.blz.store, r.slot ≠ n))
    ∧ (∃ (s : State) (code : Nat) (key : Nat) (l : Limiter), s.blz.lims.find? (fun x => x.code == code && x.key == key) = some l) :=
  ⟨⟨rig, cmd, ⟨1, 2, 3, 4⟩, by unfold Ready; decide +kernel, by decide +kernel⟩,
   ⟨{ rig with blz := { rig.blz with queues := [(Src.AIN, [⟨Src.AIN, 12289, 2, 900, 0, 0, 0, 0, false, 0⟩, ⟨Src.AIN, 12289, 3, 900, 0, 0, 0, 0, false, 0⟩])], store := [⟨0, 3, ⟨3, 0x3001, 3, 5, 0, 1, 2, 3, false, 0⟩⟩] } }, Src.AIN, ⟨Src.AIN, 12289, 2, 900, 0, 0, 0, 0, false, 0⟩, [⟨Src.AIN, 12289, 3, 900, 0, 0, 0, 0, false, 0⟩], (by decide +kernel)⟩,
   ⟨{ rig with blz := { rig.blz with drop := some ⟨3, 4, 2, 1, 5, 0⟩ } }, ⟨3, 4, 2, 1, 5, 0⟩, by decide +kernel⟩,
   ⟨{ { rig with blz := { rig.blz with seals := [⟨9, 5, 0, [⟨0, 3, ⟨3, 0x3001, 3, 5, 0, 1, 2, 3, false, 0⟩⟩]⟩] } } with hwd := { rig.hwd with devKeys := some ⟨1, 2, 3⟩ } }, ⟨9, 5, 0, [⟨0, 3, ⟨3, 0x3001, 3, 5, 0, 1, 2, 3, false, 0⟩⟩]⟩, [], ⟨1, 2, 3⟩, by decide +kernel⟩,
   ⟨{ rig with blz := { rig.blz with lims := [⟨0x3001, 0, 5, none, 4, 1⟩] } }, 0x3001, 0, ⟨0x3001, 0, 5, none, 4, 1⟩, (by decide +kernel)⟩⟩

theorem witness_heartbeatsAndFailures :
    (∃ (s : State) (a : TS) (b : TS) (dt : DT), dt.toNat % 1000000 = 0 ∧ s.coreDown = false ∧ s.flt.reload = false ∧ (s.time.running = true → tsDiff s.time.ts a ≤ 64 ∧ tsDiff s.time.ts b ≤ 64))
    ∧ (∃ (s : State) (dt : DT), dt.toNat % 1000000 = 0 ∧ s.coreDown = false)
    ∧ (∃ (s : State) (c : Nat) (dt : DT), c < 2 ∧ (s.core c).run = .active ∧ (s.core (1 - c)).run = .standby ∧ s.flt.lost = false ∧ (recentFails (s.core c).fails dt).length < 2)
    ∧ (∃ (s : State) (k : Coppice), s.flt.coppice = some k ∧ (s.core k.core).run = .resuming ∧ k.core < 2)
    ∧ (∃ (s : State) (k : Coppice) (dt : DT), s.flt.coppice = some k ∧ k.core < 2 ∧ k.alone = true ∧ (s.core k.core).beat = false ∧ k.start.toNat + 40000000 ≤ dt.toNat ∧ s.flt.lost = false)
    ∧ (∃ (s : State) (c : Nat), c < 2 ∧ (s.core c).run = .reloading ∧ (c = 1 → (s.core 0).run ≠ .reloading))
    ∧ (∃ (s : State), s.flt.reload = true) :=
  ⟨⟨rig, 1000, 936, dtZ, by decide +kernel⟩,
   ⟨{ rig with flt := { rig.flt with stuck := 0 } }, dtZ, (by decide +kernel)⟩,
   ⟨rig, 0, dtZ, by decide +kernel⟩,
   ⟨{ rig with flt := { rig.flt with coreA := { CoreSt.init with run := .reloading }, coreB := { CoreSt.init with run := .resuming }, activeB := true, coppice := some ⟨5, 5, 1, 1, false⟩ } }, ⟨5, 5, 1, 1, false⟩, by decide +kernel⟩,
   ⟨{ rig with flt := { rig.flt with coreA := { CoreSt.init with run := .resuming }, coreB := { CoreSt.init with run := .failed }, coppice := some ⟨5, 5, 1, 0, true⟩ } }, ⟨5, 5, 1, 0, true⟩, dtZ, (by decide +kernel)⟩,
   ⟨{ rig with flt := { rig.flt with coreA := { CoreSt.init with run := .active }, coreB := { CoreSt.init with run := .reloading } } }, 1, by decide +kernel⟩,
   ⟨{ rig with flt := { rig.flt with reload := true, stuck := 2 } }, by decide +kernel⟩⟩

theorem witness_rangerLossEngagesFirebreak :
    (∃ (s : State), 4 ≤ s.flt.stuck ∧ s.flt.lost = false)
    ∧ (∃ (s : State), s.flt.stuck < 4) :=
  ⟨⟨{ rig with flt := { rig.flt with stuck := 4 } }, by decide +kernel⟩,
   ⟨{ rig with flt := { rig.flt with stuck := 3 } }, (by decide +kernel)⟩⟩

theorem witness_firmwareAndFirebreak :
    (∃ (s : State) (h : Hdr) (p : FwActivateP), Ready s h ∧ fwActivateValid p = true ∧ fwActivateRefusal s p = .ok)
    ∧ (∃ (s : State) (l : FwLoad), s.flt.load = some l ∧ (s.core (1 - s.activeCore)).run = .staging ∧ (s.core s.activeCore).run = .active ∧ s.flt.lost = false)
    ∧ (∃ (s : State) (p : Probation) (dt : DT), s.flt.prob = some p ∧ p.since.toNat + 10000000000 ≤ dt.toNat)
    ∧ (∃ (s : State) (h : Hdr) (op : Nat), h.rsv = false ∧ h.late ≠ 3 ∧ s.ringType (ringOf h) = 0 ∧ (h.timed = false ∨ h.target = s.time.ts) ∧ op < 2 ∧ firebreakRefusal s op = .ok ∧ s.flt.freed = [] ∧ (op = 1 → s.flt.fire = true → s.fireDue = [])) :=
  ⟨⟨rig, cmd, ⟨0x1000, 4096, ⟨true, 9, 3, 4096, true, 1, true, 77, []⟩⟩, by unfold Ready; decide +kernel, by decide +kernel⟩,
   ⟨{ rig with flt := { rig.flt with coreB := { CoreSt.init with run := .staging }, load := some ⟨cmd, ⟨true, 9, 3, 4096, true, 1, true, 77, []⟩, 1⟩ } }, ⟨cmd, ⟨true, 9, 3, 4096, true, 1, true, 77, []⟩, 1⟩, (by decide +kernel)⟩,
   ⟨{ rig with flt := { rig.flt with prob := some ⟨5, 1, 0⟩, fw := [(1, ⟨9, 7⟩)] } }, ⟨5, 1, 0⟩, dtZ, by decide +kernel⟩,
   ⟨{ rig with flt := { rig.flt with fire := true } }, cmd, 0, by decide +kernel⟩⟩

theorem witness_timedCommitRunsItsCommand :
    (∃ (s : State) (p : Picked) (ring : Nat) (tag : Nat), (s.host.commit ++ s.host.pend).find? (fun q => q.hdr.ring == ring && q.hdr.tag.toNat == tag && q.hdr.timed && decide (tsDiff q.hdr.target s.time.ts ≤ 0)) = some p ∧ (s.host.commit ++ s.host.pend).filter (fun q => q.grp == p.grp) = [p] ∧ s.host.commit.contains p = true ∧ p.hdr.target = s.time.ts ∧ s.flt.fire = false ∧ s.clk.rc = none ∧ s.trl.relSel = [] ∧ s.trl.relTrl = [] ∧ s.trl.clmTrl = [] ∧ s.thk.fresh = [] ∧ (∀ q, p.cmd ≠ .routeSet q) ∧ (∀ q, p.cmd ≠ .trailCommit q) ∧ (let u : State := { s with host := { s.host with commit := s.host.commit.filter (fun q => q.grp != p.grp), pend := s.host.pend.filter (fun q => q.grp != p.grp) } }; boundaryRefusal u p.cmd (cmdSpec u p.hdr p.k p.cmd).refusal = none)) :=
  ⟨{ rig with host := { rig.host with commit := [⟨{ cmd with timed := true, target := 1000 }, .thkFader ⟨3, 2, 0x80000, 100⟩, 998, 4, false⟩] } }, ⟨{ cmd with timed := true, target := 1000 }, .thkFader ⟨3, 2, 0x80000, 100⟩, 998, 4, false⟩, 0, 0x21, (by decide +kernel), by decide +kernel, by decide +kernel, (by decide +kernel), by decide +kernel, by decide +kernel, (by decide +kernel), by decide +kernel, by decide +kernel, (by decide +kernel), (by intro q h; cases h), (by intro q h; cases h), by decide +kernel⟩

theorem witness_heartwoodCompletes :
    (∃ (s : State), s.hwd.order = true ∧ s.hwd.running = true ∧ s.hwd.booted = false)
    ∧ (∃ (s : State), s.barGate = 1 ∧ s.runSet = false ∧ s.dmaAllowed (s.rd64 Reg.HWD_CFG_ADDR_LO Reg.HWD_CFG_ADDR_HI) (s.rd Reg.HWD_CFG_LEN).toNat false = true)
    ∧ (∃ (s : State) (h : Hdr) (p : ConfigLoadP), Ready s h ∧ s.dmaAllowed p.addr p.len false = true ∧ s.cfgCheck p.image = .ok ∧ admitCheck s (configLoadEffect p s).st = none)
    ∧ (∃ (s : State) (h : Hdr) (p : KeyLoadP), Ready s h ∧ keyLoadValid s p = true ∧ keyLoadHost s p = true)
    ∧ (∃ (s : State) (h : Hdr) (slot : Nat), Ready s h ∧ keyClearValid slot = true ∧ keyClearRefusal s slot = .ok)
    ∧ (∃ (s : State) (h : Hdr) (p : AttestP), Ready s h ∧ p.op < 2 ∧ attestHost s p = true ∧ attestRefusal s p = .ok)
    ∧ (∃ (s : State) (h : Hdr) (p : DebugUnlockP), Ready s h ∧ s.dmaAllowed p.addr 256 false = true)
    ∧ (∃ (s : State) (e : DT) (k : BitVec 8), s.hwd.unlocked = some (e, k)) :=
  ⟨⟨{ rig with hwd := { rig.hwd with order := true, booted := false } }, by decide +kernel⟩,
   ⟨{ (rig.wr Reg.CLK_CTRL 0x100) with hwd := { rig.hwd with fuses := { rig.hwd.fuses with roots := [1, 2, 3, 4] } } }, (by decide +kernel)⟩,
   ⟨{ rig with hwd := { rig.hwd with fuses := { rig.hwd.fuses with roots := [1, 2, 3, 4] } } }, cmd, ⟨0x1000, 4096, ⟨true, 9, 3, 4096, true, 2, true, 77, [(0x3004, 3)]⟩⟩, by unfold Ready; decide +kernel, by decide +kernel⟩,
   ⟨rig, cmd, ⟨4095, 2, 0x1000, 0x2000, true, 77, 78, 79⟩, by unfold Ready; decide +kernel, by decide +kernel⟩,
   ⟨{ rig with hwd := { rig.hwd with keys := [(3, ⟨7, 8, 1, 0, 1⟩), (4095, ⟨7, 8, 1, 0, 1⟩)] } }, cmd, 4095, by unfold Ready; decide +kernel, (by decide +kernel)⟩,
   ⟨{ rig with hwd := { rig.hwd with devKeys := some ⟨1, 2, 3⟩, fuses := { rig.hwd.fuses with roots := [1, 2, 3, 4] } } }, cmd, ⟨0, 0x1000, 0, 5⟩, by unfold Ready; decide +kernel, by decide +kernel⟩,
   ⟨{ rig with hwd := { rig.hwd with fuses := { rig.hwd.fuses with roots := [1, 2, 3, 4] } } }, cmd, ⟨0x1000, rig.hwd.fuses.devId, rig.hwd.nonce, 9000000, 1, 3, true⟩, by unfold Ready; decide +kernel, by decide +kernel⟩,
   ⟨{ rig with hwd := { rig.hwd with unlocked := some (5, 1) } }, 5, 1, (by decide +kernel)⟩⟩

theorem witness_stepTakesFront :
    (∃ (s : State) (c : Instr) (l : List Instr), s.pending = c :: l)
    ∧ (∃ (s : State), s.pending = []) :=
  ⟨⟨{ rig with pending := [.vsettleEnd] }, .vsettleEnd, [], by decide +kernel⟩,
   ⟨rig, (by decide +kernel)⟩⟩

theorem witness_dtNeverDecreases :
    (∃ (s : State), (∀ k, s.pending.head? ≠ some (.coldStart k))) :=
  ⟨{ rig with pending := [.hstNudge dtZ] }, by decide +kernel⟩

theorem witness_dramInvariant :
    (∃ (s : State) (t : State), DramWf s ∧ step s = .next t) :=
  ⟨{ rig.setRing 7 { rigRing with blk := [⟨cmd, 0x0701, ⟨0x1000, 0x01020304, 0x100, 64⟩, 990, true, 995, false⟩] } with pending := [.blkTransferEnd 7 64 0 (List.replicate 64 9)] }, nxt (step ({ rig.setRing 7 { rigRing with blk := [⟨cmd, 0x0701, ⟨0x1000, 0x01020304, 0x100, 64⟩, 990, true, 995, false⟩] } with pending := [.blkTransferEnd 7 64 0 (List.replicate 64 9)] })), by unfold DramWf; decide +kernel, by rfl⟩

theorem witness_queueInvariant :
    (∃ (s : State) (t : State), step s = .next t)
    ∧ (∃ (s : State) (t : State), QueueWf s ∧ step s = .next t) :=
  ⟨⟨{ rig with pending := [.hstNudge dtZ] }, nxt (step ({ rig with pending := [.hstNudge dtZ] })), by rfl⟩,
   ⟨{ rig with pending := [.hstNudge dtZ] }, nxt (step ({ rig with pending := [.hstNudge dtZ] })), by unfold QueueWf; decide +kernel, by rfl⟩⟩

theorem witness_latePolicy :
    (∃ (s : State) (h : Hdr) (p : BlzMarkP), h.rsv = false ∧ s.ringType (ringOf h) = 0 ∧ p.sev ≤ 4 ∧ h.timed = true)
    ∧ (∃ (s : State) (h : Hdr) (p : BlzMarkP), h.rsv = false ∧ s.ringType (ringOf h) = 0 ∧ p.sev ≤ 4 ∧ h.timed = true) :=
  ⟨⟨rig, { cmd with late := 0, timed := true, target := 1000 }, ⟨1, 2, 3, 4⟩, by decide +kernel⟩,
   ⟨rig, { cmd with late := 0, timed := true, target := 990 }, ⟨1, 2, 3, 4⟩, (by decide +kernel)⟩⟩

end

end Sys2Proof.Tests
end

section
/-! PROOFS. Device time never decreases (R6). Only `advance` and the resets of code 1 to 3 set it, and both go through `maxDt`,
which is never below what DT was. Every other operation of a block leaves the record of time, or at least its DT, as it is:
one lemma a function, in the order of the model. The rows of the table follow from these, and the step from the rows. -/
namespace Sys2Proof.Machine

/-- The outcome is a next state at the device time `d` or later. -/
def Onward (d : DT) (o : Host.Outcome State Fault Refusal) : Prop := ∃ t, o = .next t ∧ d ≤ t.time.dt

@[simp] theorem onward_next (d : DT) (t : State) : Onward d (.next t) ↔ d ≤ t.time.dt := by simp [Onward]

@[simp] theorem onward_ite (d : DT) (c : Prop) [Decidable c] (a b : Host.Outcome State Fault Refusal) :
    Onward d (if c then a else b) ↔ if c then Onward d a else Onward d b := by split <;> rfl

@[simp] theorem time_ite (c : Prop) [Decidable c] (a b : State) :
    (if c then a else b).time = if c then a.time else b.time := by split <;> rfl

@[simp] theorem dt_ite (c : Prop) [Decidable c] (a b : TimeSt) :
    (if c then a else b).dt = if c then a.dt else b.dt := by split <;> rfl

@[simp] theorem le_dt_ite (c : Prop) [Decidable c] (d a b : DT) :
    d ≤ (if c then a else b) ↔ if c then d ≤ a else d ≤ b := by split <;> rfl

@[simp] theorem foldl_time {α : Type} (f : State → α → State) (l : List α) (s : State)
    (h : ∀ s a, (f s a).time = s.time) : (l.foldl f s).time = s.time := foldl_keeps State.time f h l s

theorem foldl_dt {α : Type} (f : State → α → State) (l : List α) (s : State)
    (h : ∀ s a, (f s a).time.dt = s.time.dt) : (l.foldl f s).time.dt = s.time.dt := foldl_keeps (fun s => s.time.dt) f h l s

@[simp] theorem le_foldl_dt {α : Type} (f : State → α → State) (l : List α) {d : DT} {s : State} (hs : d ≤ s.time.dt)
    (h : ∀ s a, s.time.dt ≤ (f s a).time.dt) : d ≤ (l.foldl f s).time.dt := by
  induction l generalizing s with
  | nil => exact hs
  | cons a l ih => exact ih (BitVec.le_trans hs (h s a))

theorem le_maxDt (a b : DT) : a ≤ maxDt a b := by
  unfold maxDt
  split
  · assumption
  · exact BitVec.le_refl a

variable (s : State) {d : DT}

@[simp] theorem le_advance_dt (dt) (h : d ≤ s.time.dt) : d ≤ (s.advance dt).time.dt := BitVec.le_trans h (le_maxDt _ _)

/-! ### Commands at their boundary -/

@[simp] theorem le_admitted_dt (h : Hdr) (op : Nat) (late : Bool) {x : Done} (hs : d ≤ s.time.dt) (hx : d ≤ x.st.time.dt) :
    d ≤ (s.admitted h op late x).time.dt := by
  unfold State.admitted; split <;> simp [hs, hx]

@[simp] theorem le_runCmd_dt (h : Hdr) (c : Cmd) (op : Nat) (v k : Bool) (r : Status) {eff : State → Done}
    {onR : Status → State → State} (hs : d ≤ s.time.dt) (he : d ≤ (eff s).st.time.dt)
    (hr : ∀ x s, (onR x s).time = s.time) :
    d ≤ (s.runCmd h c op v k r eff onR).time.dt := by
  unfold State.runCmd
  repeat' split
  all_goals simp [hs, he, hr]

/-! ### Wake sources (chapter 13) -/

@[simp] theorem wakeFire_time (bit num dt) : (s.wakeFire bit num dt).time = s.time := by
  unfold State.wakeFire
  split <;> simp

/-! ### Time mappings and epochs (chapter 2) -/

@[simp] theorem setNet_dt (m) : (s.setNet m).time.dt = s.time.dt := by simp [State.setNet]

@[simp] theorem setWall_dt (m) : (s.setWall m).time.dt = s.time.dt := by simp [State.setWall]

@[simp] theorem epochEvent_dt (kind r dt old new) : (s.epochEvent kind r dt old new).time.dt = s.time.dt := by
  simp [State.epochEvent]

@[simp] theorem slewLog_time (wall delta dt) : (s.slewLog wall delta dt).time = s.time := by simp [State.slewLog]

@[simp] theorem netEpochAdopt_time : s.netEpochAdopt.time = s.time := by simp [State.netEpochAdopt]

@[simp] theorem netMeasure_dt (at_ d v r gm) : (s.netMeasure at_ d v r gm).time.dt = s.time.dt := by
  simp [State.netMeasure]

@[simp] theorem execGptpSync_onward (dt net r gm) : Onward s.time.dt (execGptpSync dt net r gm s) := by simp [execGptpSync]

@[simp] theorem execNetSyncLoss_onward (dt) : Onward s.time.dt (execNetSyncLoss dt s) := by simp [execNetSyncLoss]

@[simp] theorem execGptpRoleChange_onward (role asCapable dt) :
    Onward s.time.dt (execGptpRoleChange role asCapable dt s) := by
  simp [execGptpRoleChange]

@[simp] theorem execSlewEnd_onward (wall dt) : Onward s.time.dt (execSlewEnd wall dt s) := by simp [execSlewEnd]

@[simp] theorem timeWallSetEffect_dt (p) : (timeWallSetEffect p s).st.time.dt = s.time.dt := by simp [timeWallSetEffect]

@[simp] theorem execTimeWallSet_onward (h p) : Onward s.time.dt (execTimeWallSet h p s) := by simp [execTimeWallSet]

@[simp] theorem netSyncEffect_dt (p) : (netSyncEffect p s).st.time.dt = s.time.dt := by simp [netSyncEffect]

@[simp] theorem execNetSync_onward (h p) : Onward s.time.dt (execNetSync h p s) := by simp [execNetSync]

@[simp] theorem execTimeSnap_onward : Onward s.time.dt (execTimeSnap s) := by simp [execTimeSnap]

@[simp] theorem execXoRatioMeasure_onward (cycles) : Onward s.time.dt (execXoRatioMeasure cycles s) := by
  simp [execXoRatioMeasure]

/-! ### Analog inputs (chapter 3) -/

@[simp] theorem setAin_time (n c) : (s.setAin n c).time = s.time := by simp only [State.setAin]

@[simp] theorem setPdm_time (n c) : (s.setPdm n c).time = s.time := by simp only [State.setPdm]

@[simp] theorem ainSetEffect_time (p) : (ainSetEffect p s).st.time = s.time := by simp [ainSetEffect]

@[simp] theorem execAinSet_onward (h p) : Onward s.time.dt (execAinSet h p s) := by simp [execAinSet]

@[simp] theorem pdmSetEffect_time (p) : (pdmSetEffect p s).st.time = s.time := by simp [pdmSetEffect]

@[simp] theorem execPdmSet_onward (h p) : Onward s.time.dt (execPdmSet h p s) := by simp [execPdmSet]

@[simp] theorem execGainMoveIncrement_onward (n) : Onward s.time.dt (execGainMoveIncrement n s) := by
  simp [execGainMoveIncrement]

@[simp] theorem execAinFeSwitch_onward (n) : Onward s.time.dt (execAinFeSwitch n s) := by
  unfold execAinFeSwitch
  dsimp only
  split <;> simp

@[simp] theorem gapEnd_time (n) : (s.gapEnd n).time = s.time := by
  unfold State.gapEnd
  split <;> simp

@[simp] theorem execAinFeSettled_onward (n) : Onward s.time.dt (execAinFeSettled n s) := by
  unfold execAinFeSettled
  dsimp only
  split <;> simp

@[simp] theorem execAinFiltSwitch_onward (pdm n) : Onward s.time.dt (execAinFiltSwitch pdm n s) := by
  unfold execAinFiltSwitch
  dsimp only
  repeat' split
  all_goals simp

@[simp] theorem setBit_time (off i) : (s.setBit off i).time = s.time := by simp [State.setBit]

@[simp] theorem execBiasLimit_onward (n dt) : Onward s.time.dt (execBiasLimit n dt s) := by simp [execBiasLimit]

@[simp] theorem execBiasLimitEnd_onward (n dt) : Onward s.time.dt (execBiasLimitEnd n dt s) := by simp [execBiasLimitEnd]

@[simp] theorem execBiasOff_onward (n dt) : Onward s.time.dt (execBiasOff n dt s) := by
  unfold execBiasOff
  dsimp only
  split <;> simp

@[simp] theorem execPdmStuck_onward (n level dt) : Onward s.time.dt (execPdmStuck n level dt s) := by
  unfold execPdmStuck
  dsimp only
  split <;> simp

@[simp] theorem execPdmRecover_onward (n dt) : Onward s.time.dt (execPdmRecover n dt s) := by
  unfold execPdmRecover
  dsimp only
  split <;> simp

@[simp] theorem ainClip_time (n dig) : (s.ainClip n dig).time = s.time := by simp [State.ainClip]

@[simp] theorem pdmClip_time (n) : (s.pdmClip n).time = s.time := by simp [State.pdmClip]

@[simp] theorem execModReset_onward (n dt) : Onward s.time.dt (execModReset n dt s) := by
  unfold execModReset
  dsimp only
  repeat' split
  all_goals simp

@[simp] theorem setAinJack_time (j b) : (s.setAinJack j b).time = s.time := by simp [State.setAinJack]

@[simp] theorem ainJackGo_time (j) : (s.ainJackGo j).time = s.time := by simp [State.ainJackGo]

/-! ### Analog outputs (chapter 4) -/

@[simp] theorem setAout_time (n c) : (s.setAout n c).time = s.time := by simp only [State.setAout]

@[simp] theorem updAout_time (n) (f : AoutCh → AoutCh) : (s.updAout n f).time = s.time := by simp [State.updAout]

@[simp] theorem setHp_time (j x) : (s.setHp j x).time = s.time := by simp [State.setHp]

@[simp] theorem aoutEnable_time (n w) : (s.aoutEnable n w).time = s.time := by simp [State.aoutEnable]

@[simp] theorem cpResume_time : s.cpResume.time = s.time := by simp [State.cpResume]

@[simp] theorem aoutSetEffect_time (p) : (aoutSetEffect p s).st.time = s.time := by simp [aoutSetEffect]

@[simp] theorem execAoutSet_onward (h p) : Onward s.time.dt (execAoutSet h p s) := by simp [execAoutSet]

@[simp] theorem rangeChange_time (old) : (s.rangeChange old).time = s.time := by simp [State.rangeChange]

@[simp] theorem execCpFault_onward (mv dt) : Onward s.time.dt (execCpFault mv dt s) := by simp [execCpFault]

@[simp] theorem execOutputShort_onward (n dt) : Onward s.time.dt (execOutputShort n dt s) := by simp [execOutputShort]

@[simp] theorem supplyStop_time (l) : (s.supplyStop l).time = s.time := by simp [State.supplyStop]

@[simp] theorem supplyLost_time (which l dt) : (s.supplyLost which l dt).time = s.time := by simp [State.supplyLost]

@[simp] theorem execAvddLoss_onward (dt) : Onward s.time.dt (execAvddLoss dt s) := by simp [execAvddLoss]

@[simp] theorem execVio1Loss_onward (dt) : Onward s.time.dt (execVio1Loss dt s) := by simp [execVio1Loss]

@[simp] theorem execAvddValid_onward (dt) : Onward s.time.dt (execAvddValid dt s) := by simp [execAvddValid]

@[simp] theorem execVcmRampEnd_onward (dt) : Onward s.time.dt (execVcmRampEnd dt s) := by simp [execVcmRampEnd]

@[simp] theorem execVio1Valid_onward (dt) : Onward s.time.dt (execVio1Valid dt s) := by simp [execVio1Valid]

@[simp] theorem aoutSched_time (n) : (s.aoutSched n).time = s.time := by simp [State.aoutSched]

@[simp] theorem aoutRequests_time : s.aoutRequests.time = s.time := by simp [State.aoutRequests]

/-! ### Jacks -/

@[simp] theorem execAinJackIn_onward (j pin) : Onward s.time.dt (execAinJackIn j pin s) := by simp [execAinJackIn]

@[simp] theorem execAinJackOut_onward (j pin) : Onward s.time.dt (execAinJackOut j pin s) := by simp [execAinJackOut]

@[simp] theorem execHpPlugDetect_onward (j dt) : Onward s.time.dt (execHpPlugDetect j dt s) := by simp [execHpPlugDetect]

@[simp] theorem hold7_time : s.hold7.time = s.time := by simp [State.hold7]

@[simp] theorem free7_time : s.free7.time = s.time := by simp [State.free7]

@[simp] theorem execHpIdentify_onward (j ohms mvSlv mvRing2 dt) :
    Onward s.time.dt (execHpIdentify j ohms mvSlv mvRing2 dt s) := by
  simp [execHpIdentify]

@[simp] theorem execHpMeasure_onward (j zl zr dt) : Onward s.time.dt (execHpMeasure j zl zr dt s) := by simp [execHpMeasure]

@[simp] theorem execHpPresent_onward (j dt) : Onward s.time.dt (execHpPresent j dt s) := by simp [execHpPresent]

@[simp] theorem execHpInsertAfterWake_onward (j dt) : Onward s.time.dt (execHpInsertAfterWake j dt s) := by
  simp [execHpInsertAfterWake]

@[simp] theorem execHpRemove_onward (j dt) : Onward s.time.dt (execHpRemove j dt s) := by
  unfold execHpRemove
  dsimp only
  repeat' split
  all_goals simp

@[simp] theorem setCur_time (j v) : (s.setCur j v).time = s.time := by simp [State.setCur]

@[simp] theorem btnRelease_time (j dt) : (s.btnRelease j dt).time = s.time := by simp [State.btnRelease]

@[simp] theorem execHpBtnPress_onward (j microamps dt) : Onward s.time.dt (execHpBtnPress j microamps dt s) := by
  simp [execHpBtnPress]

@[simp] theorem execHpBtnRelease_onward (j dt) : Onward s.time.dt (execHpBtnRelease j dt s) := by simp [execHpBtnRelease]

@[simp] theorem jackGo_time (j tgt n) : (s.jackGo j tgt n).time = s.time := by simp [State.jackGo]

@[simp] theorem jackTick_time (j) : (s.jackTick j).time = s.time := by
  unfold State.jackTick
  dsimp only
  repeat' split
  all_goals simp

/-! ### Loudspeaker stage (chapter 5) -/

@[simp] theorem setSpk_time (n c) : (s.setSpk n c).time = s.time := by simp [State.setSpk]

@[simp] theorem updSpk_time (n) (f : SpkCh → SpkCh) : (s.updSpk n f).time = s.time := by simp [State.updSpk]

@[simp] theorem clampOn_time : s.clampOn.time = s.time := by simp only [State.clampOn]

@[simp] theorem startAttempt_time (n) : (s.startAttempt n).time = s.time := by simp [State.startAttempt]

@[simp] theorem clrBit_time (off i) : (s.clrBit off i).time = s.time := by simp [State.clrBit]

@[simp] theorem rearm_time (n) : (s.rearm n).time = s.time := by simp [State.rearm]

@[simp] theorem spkSetEffect_time (p) : (spkSetEffect p s).st.time = s.time := by simp [spkSetEffect]

@[simp] theorem execSpkSet_onward (h p) : Onward s.time.dt (execSpkSet h p s) := by simp [execSpkSet]

@[simp] theorem execAoutSeqSwitch_onward (n) : Onward s.time.dt (execAoutSeqSwitch n s) := by
  unfold execAoutSeqSwitch
  dsimp only
  repeat' split
  all_goals simp

@[simp] theorem execAoutStageSettled_onward (n) : Onward s.time.dt (execAoutStageSettled n s) := by
  unfold execAoutStageSettled
  dsimp only
  repeat' split
  all_goals simp

@[simp] theorem execBoostReady_onward (n) : Onward s.time.dt (execBoostReady n s) := by simp [execBoostReady]

@[simp] theorem abortMeas_time (n op) : (s.abortMeas n op).time = s.time := by simp [State.abortMeas]

@[simp] theorem spkMeasEffect_time (h p) : (spkMeasEffect h p s).st.time = s.time := by simp [spkMeasEffect]

@[simp] theorem execSpkMeas_onward (h p) : Onward s.time.dt (execSpkMeas h p s) := by simp [execSpkMeas]

@[simp] theorem spkWatchEffect_time (h p) : (spkWatchEffect h p s).st.time = s.time := by simp [spkWatchEffect]

@[simp] theorem execSpkWatch_onward (h p) : Onward s.time.dt (execSpkWatch h p s) := by simp [execSpkWatch]

@[simp] theorem spkNote_time (n bits code sev p1 p2) : (s.spkNote n bits code sev p1 p2).time = s.time := by
  simp only [State.spkNote]

@[simp] theorem spkLatch_time (n dt bits code sev p1 p2) : (s.spkLatch n dt bits code sev p1 p2).time = s.time := by
  simp [State.spkLatch]

@[simp] theorem execSpkLimitEvent_onward (n dt) : Onward s.time.dt (execSpkLimitEvent n dt s) := by simp [execSpkLimitEvent]

@[simp] theorem execSpkBroadbandShort_onward (n milliohms dt) :
    Onward s.time.dt (execSpkBroadbandShort n milliohms dt s) := by
  simp [execSpkBroadbandShort]

@[simp] theorem execSpkClampRelease_onward (bstMv) : Onward s.time.dt (execSpkClampRelease bstMv s) := by
  simp [execSpkClampRelease]

@[simp] theorem execSpkRetryAttempt_onward (n dt) : Onward s.time.dt (execSpkRetryAttempt n dt s) := by
  unfold execSpkRetryAttempt
  dsimp only
  split <;> simp

@[simp] theorem clampOff_time : s.clampOff.time = s.time := by simp only [State.clampOff]

@[simp] theorem execSpkProbeEnd_onward (n milliohms dt) : Onward s.time.dt (execSpkProbeEnd n milliohms dt s) := by
  unfold execSpkProbeEnd
  dsimp only
  split <;> simp

@[simp] theorem measArrive_time (n) (f : Wait → Option (Word × Word × Word)) : (s.measArrive n f).time = s.time := by
  unfold State.measArrive
  refine foldl_time _ _ _ fun s a => ?_
  repeat' split
  all_goals simp

@[simp] theorem classAct_time (n cls r t dt) : (s.classAct n cls r t dt).time = s.time := by
  unfold State.classAct
  rcases cls with _ | _ | _ | _ | cls <;> cases t <;> simp

@[simp] theorem execSpkPilotWindow_onward (n valid milliohms nanohenry dt) :
    Onward s.time.dt (execSpkPilotWindow n valid milliohms nanohenry dt s) := by
  unfold execSpkPilotWindow
  dsimp only
  repeat' split
  all_goals simp

@[simp] theorem capLog_time (n who mw lim was dt) : (s.capLog n who mw lim was dt).time = s.time := by simp [State.capLog]

@[simp] theorem capChan_time (n mw tot dt) : (s.capChan n mw tot dt).time = s.time := by simp [State.capChan]

@[simp] theorem execSpkPmeanUpdate_onward (mw0 mw1 dt) : Onward s.time.dt (execSpkPmeanUpdate mw0 mw1 dt s) := by
  simp [execSpkPmeanUpdate]

@[simp] theorem execSpkCapTrip_onward (n mw dt) : Onward s.time.dt (execSpkCapTrip n mw dt s) := by
  unfold execSpkCapTrip
  dsimp only
  split <;> simp

@[simp] theorem execSpkBstOvp_onward (comparator mv dt) : Onward s.time.dt (execSpkBstOvp comparator mv dt s) := by
  simp [execSpkBstOvp]

@[simp] theorem execPvddFault_onward (isOver mv dt) : Onward s.time.dt (execPvddFault isOver mv dt s) := by
  simp [execPvddFault]

@[simp] theorem execPvddReturn_onward (dt) : Onward s.time.dt (execPvddReturn dt s) := by simp [execPvddReturn]

@[simp] theorem dieGo_time (tgt n) : (s.dieGo tgt n).time = s.time := by simp only [State.dieGo]

@[simp] theorem execDieThermal_onward (tenths dt) : Onward s.time.dt (execDieThermal tenths dt s) := by
  simp [execDieThermal]

@[simp] theorem spkReq_time (n) : (s.spkReq n).time = s.time := by simp [State.spkReq]

@[simp] theorem spkTickCh_time (trail n) : (s.spkTickCh trail n).time = s.time := by simp [State.spkTickCh]

@[simp] theorem spkReport_time (e) : (s.spkReport e).time = s.time := by
  unfold State.spkReport
  simp only [time_ite, log_keeps, ite_self]
  refine foldl_time _ _ _ fun s w => ?_
  split <;> simp

@[simp] theorem spkTick_time (trail0 trail1) : (s.spkTick trail0 trail1).time = s.time := by simp [State.spkTick]

@[simp] theorem spkEvents_time : s.spkEvents.time = s.time := by simp [State.spkEvents]

@[simp] theorem spkRead_time (n x) : (s.spkRead n x).time = s.time := by simp [State.spkRead]

@[simp] theorem boostTarget_time (trail0 trail1) : (s.boostTarget trail0 trail1).time = s.time := by
  simp only [State.boostTarget]

@[simp] theorem boostSleep_time (chosen) : (s.boostSleep chosen).time = s.time := by simp only [State.boostSleep]

@[simp] theorem railFactor_time (n x) : (s.railFactor n x).time = s.time := by simp [State.railFactor]

@[simp] theorem railPeriod_time (n x ns) : (s.railPeriod n x ns).time = s.time := by simp [State.railPeriod]

@[simp] theorem railRun_time (n ns l) : (s.railRun n ns l).time = s.time := by
  induction l generalizing s ns with
  | nil => rfl
  | cons x l ih => simp [State.railRun, ih]

@[simp] theorem spkStep_time (trail0 trail1 bst pvdd mods) : (s.spkStep trail0 trail1 bst pvdd mods).time = s.time := by
  simp [State.spkStep]

@[simp] theorem pilotRateStop_time (new) : (s.pilotRateStop new).time = s.time := by simp [State.pilotRateStop]

@[simp] theorem pilotRateResume_time : s.pilotRateResume.time = s.time := by simp [State.pilotRateResume]

/-! ### The Thicket (chapter 6) -/

@[simp] theorem setSel_time (a x) : (s.setSel a x).time = s.time := by simp only [State.setSel]

@[simp] theorem setLaneSrc_time (l a) : (s.setLaneSrc l a).time = s.time := by simp [State.setLaneSrc]

@[simp] theorem handover_time (k c toTrail) : (s.handover k c toTrail).time = s.time := by simp [State.handover]

@[simp] theorem routeSetRefused_time (h p found st) : (routeSetRefused h p found st s).time = s.time := by
  simp [routeSetRefused]

@[simp] theorem routeDone_time (prev last) : (routeDone s prev last).st.time = s.time := by simp only [routeDone]

@[simp] theorem routeSetEffect_time (p) : (routeSetEffect p s).st.time = s.time := by
  unfold routeSetEffect
  dsimp only
  repeat' split
  all_goals simp

@[simp] theorem execRouteSet_onward (h p) : Onward s.time.dt (execRouteSet h p s) := by simp [execRouteSet]

@[simp] theorem thkSwapEffect_time (mode) : (thkSwapEffect mode s).st.time = s.time := by simp [thkSwapEffect]

@[simp] theorem le_runLocking_dt (h : Hdr) (c : Cmd) (op : Nat) (v : Bool) (r : Status) {eff : State → Done}
    (hs : d ≤ s.time.dt) (he : d ≤ (eff s).st.time.dt) : d ≤ (s.runLocking h c op v r eff).time.dt := by
  simp [State.runLocking, hs, he]

@[simp] theorem execThkSwap_onward (h mode) : Onward s.time.dt (execThkSwap h mode s) := by simp [execThkSwap]

@[simp] theorem thkFaderRefused_time (h st) : (thkFaderRefused h st s).time = s.time := by simp [thkFaderRefused]

@[simp] theorem faderFullLog_time : s.faderFullLog.time = s.time := by simp [State.faderFullLog]

@[simp] theorem thkFaderEffect_time (p) : (thkFaderEffect p s).st.time = s.time := by simp [thkFaderEffect]

@[simp] theorem execThkFader_onward (h p) : Onward s.time.dt (execThkFader h p s) := by simp [execThkFader]

@[simp] theorem toneSetEffect_time (p) : (toneSetEffect p s).st.time = s.time := by simp [toneSetEffect]

@[simp] theorem execToneSet_onward (h p) : Onward s.time.dt (execToneSet h p s) := by simp [execToneSet]

@[simp] theorem thkRamps_time : s.thkRamps.time = s.time := by simp only [State.thkRamps]

@[simp] theorem busRun_time (b acc tag) : (s.busRun b acc tag).time = s.time := by simp [State.busRun]

@[simp] theorem thkRun_time : s.thkRun.time = s.time := by simp [State.thkRun]

@[simp] theorem meterTick_time : s.meterTick.time = s.time := by simp [State.meterTick]

@[simp] theorem execMeterReport_onward (ok) : Onward s.time.dt (execMeterReport ok s) := by
  unfold execMeterReport
  dsimp only
  split <;> simp

@[simp] theorem meterEn_time (en) : (s.meterEn en).time = s.time := by simp [State.meterEn]

@[simp] theorem apBad_time (off discard) : (s.apBad off discard).time = s.time := by simp [State.apBad]

@[simp] theorem apThk_time (off w) : (s.apThk off w).time = s.time := by simp [State.apThk]

@[simp] theorem thkFirst_time : s.thkFirst.time = s.time := by simp only [State.thkFirst]

/-! ### The Trail (chapter 6) -/

@[simp] theorem setTrl_time (c x) : (s.setTrl c x).time = s.time := by simp only [State.setTrl]

@[simp] theorem trailCommitEffect_time (p) : (trailCommitEffect p s).st.time = s.time := by simp [trailCommitEffect]

@[simp] theorem execTrailCommit_onward (h p) : Onward s.time.dt (execTrailCommit h p s) := by simp [execTrailCommit]

@[simp] theorem trlActivate_time (c) : (s.trlActivate c).time = s.time := by
  unfold State.trlActivate
  dsimp only
  split <;> simp

@[simp] theorem unfollow_time (c) : (s.unfollow c).time = s.time := by simp only [State.unfollow]

@[simp] theorem floorOff_time (c k) : (s.floorOff c k).time = s.time := by
  unfold State.floorOff
  split <;> simp

@[simp] theorem trlAdvance_time (c) : (s.trlAdvance c).time = s.time := by
  unfold State.trlAdvance
  dsimp only
  split <;> simp

@[simp] theorem trlChannel_time (c) (vals : Nat → Int) : (s.trlChannel c vals).time = s.time := by simp [State.trlChannel]

@[simp] theorem trlErr_time (c) : (s.trlErr c).time = s.time := by simp [State.trlErr]

@[simp] theorem trlStep_time  (vals : Nat → Int) : (s.trlStep vals).1.time = s.time := by simp [State.trlStep]

@[simp] theorem apTrl_time (off w) : (s.apTrl off w).time = s.time := by simp [State.apTrl]

@[simp] theorem trlFirst_time : s.trlFirst.time = s.time := by
  unfold State.trlFirst
  refine foldl_time _ _ _ fun s a => ?_
  dsimp only
  split <;> simp

/-! ### Effects (chapter 7) -/

@[simp] theorem setFx_time (n x) : (s.setFx n x).time = s.time := by simp only [State.setFx]

@[simp] theorem fxActivate_time (n) : (s.fxActivate n).1.time = s.time := by simp [State.fxActivate]

theorem fxActivate_foldl_time (l : List Nat) (a : State × Nat) :
    (l.foldl (fun (a : State × Nat) k => let (s, m) := a.1.fxActivate k; (s, max a.2 m)) a).1.time = a.1.time := by
  induction l generalizing a with
  | nil => rfl
  | cons k l ih => rw [List.foldl_cons, ih]; simp

@[simp] theorem fxCommitEffect_time (p) : (fxCommitEffect p s).st.time = s.time := fxActivate_foldl_time _ _

@[simp] theorem execFxCommit_onward (h p) : Onward s.time.dt (execFxCommit h p s) := by simp [execFxCommit]

@[simp] theorem fxSat_time (n stage) : (s.fxSat n stage).time = s.time := by simp [State.fxSat]

@[simp] theorem fxSlot_time (n fr e g opened hold) : (s.fxSlot n fr e g opened hold).time = s.time := by simp [State.fxSlot]

@[simp] theorem fxSingle_time (n) : (s.fxSingle n).time = s.time := by simp [State.fxSingle]

@[simp] theorem fxLinked_time (a b) : (s.fxLinked a b).time = s.time := by simp [State.fxLinked]

@[simp] theorem fxPair_time (m) : (s.fxPair m).time = s.time := by simp [State.fxPair]

@[simp] theorem fxRun_time : s.fxRun.time = s.time := by simp [State.fxRun]

@[simp] theorem fxRamps_time : s.fxRamps.time = s.time := by simp only [State.fxRamps]

@[simp] theorem fxLineErr_time (n addr dt) : (s.fxLineErr n addr dt).time = s.time := by simp [State.fxLineErr]

@[simp] theorem fxStateErr_time (n) : (s.fxStateErr n).time = s.time := by simp [State.fxStateErr]

@[simp] theorem apFx_time (off w) : (s.apFx off w).time = s.time := by simp [State.apFx]

/-! ### Clips (chapter 7) -/

@[simp] theorem clipCommitEffect_time (p) : (clipCommitEffect p s).st.time = s.time := by simp [clipCommitEffect]

@[simp] theorem execClipCommit_onward (h p) : Onward s.time.dt (execClipCommit h p s) := by simp [execClipCommit]

@[simp] theorem voiceWaits_time (v last cause) : (s.voiceWaits v last cause).time = s.time := by
  unfold State.voiceWaits
  refine foldl_time _ _ _ fun s a => ?_
  split <;> simp

@[simp] theorem stealVoice_time (v) : (s.stealVoice v).time = s.time := by
  unfold State.stealVoice
  split <;> simp

@[simp] theorem clipStartEffect_time (p) : (clipStartEffect p s).st.time = s.time := by simp [clipStartEffect]

@[simp] theorem execClipStart_onward (h p) : Onward s.time.dt (execClipStart h p s) := by simp [execClipStart]

@[simp] theorem ctrlPair_time (p) : (s.ctrlPair p).time = s.time := by
  unfold State.ctrlPair
  dsimp only
  repeat' split
  all_goals simp

@[simp] theorem clipCtrlEffect_time (h p) : (clipCtrlEffect h p s).st.time = s.time := by simp [clipCtrlEffect]

@[simp] theorem execClipCtrl_onward (h p) : Onward s.time.dt (execClipCtrl h p s) := by simp [execClipCtrl]

@[simp] theorem voicesEnd_time : s.voicesEnd.time = s.time := by
  unfold State.voicesEnd
  refine foldl_time _ _ _ fun s a => ?_
  split <;> simp

@[simp] theorem clipRamps_time : s.clipRamps.time = s.time := by simp only [State.clipRamps]

@[simp] theorem clipStarve_time (voice n) : (s.clipStarve voice n).time = s.time := by simp [State.clipStarve]

@[simp] theorem voiceErr_time (v) : (s.voiceErr v).time = s.time := by
  unfold State.voiceErr
  dsimp only
  repeat' split
  all_goals simp

@[simp] theorem clipKeyless_time : s.clipKeyless.time = s.time := by simp [State.clipKeyless]

@[simp] theorem clipRun_time (absent) : (s.clipRun absent).time = s.time := by simp [State.clipRun]

@[simp] theorem voiceDip_time (v) : (s.voiceDip v).time = s.time := by
  unfold State.voiceDip
  split <;> simp

@[simp] theorem badBlock_time (v b) : (s.badBlock v b).time = s.time := by
  unfold State.badBlock
  dsimp only
  repeat' split
  all_goals simp

@[simp] theorem execClipTagFail_onward (voice block) : Onward s.time.dt (execClipTagFail voice block s) := by
  unfold execClipTagFail
  split <;> simp

@[simp] theorem apClip_time (off w) : (s.apClip off w).time = s.time := by simp [State.apClip]

@[simp] theorem apEnv_time (off w) : (s.apEnv off w).time = s.time := by simp [State.apEnv]

/-! ### Recorders (chapter 7) -/

@[simp] theorem setRec_time (r x) : (s.setRec r x).time = s.time := by simp only [State.setRec]

@[simp] theorem loopSetEffect_time (p) : (loopSetEffect p s).st.time = s.time := by
  unfold loopSetEffect
  dsimp only
  repeat' split
  all_goals simp

@[simp] theorem execLoopSet_onward (h p) : Onward s.time.dt (execLoopSet h p s) := by simp [execLoopSet]

@[simp] theorem putFrame_time (base fmt i x) : (s.putFrame base fmt i x).time = s.time := by simp only [State.putFrame]

@[simp] theorem takeZeros_time (fmt base start from_ n) : (s.takeZeros fmt base start from_ n).time = s.time := by
  simp [State.takeZeros]

@[simp] theorem takeGap_time (fmt run k) : (s.takeGap fmt run k).time = s.time := by
  unfold State.takeGap
  split <;> simp

@[simp] theorem takeDone_time (r run) : (s.takeDone r run).time = s.time := by simp [State.takeDone]

@[simp] theorem takeFlush_time (fmt run) : (s.takeFlush fmt run).time = s.time := by
  unfold State.takeFlush
  split <;> simp

@[simp] theorem loopCommitEffect_time (h p) : (loopCommitEffect h p s).st.time = s.time := by simp [loopCommitEffect]

@[simp] theorem execLoopCommit_onward (h p) : Onward s.time.dt (execLoopCommit h p s) := by simp [execLoopCommit]

@[simp] theorem execLoopCopyDone_onward (r moved dt) : Onward s.time.dt (execLoopCopyDone r moved dt s) := by
  unfold execLoopCopyDone
  dsimp only
  split <;> simp

@[simp] theorem ringCopyErr_time (r line) : (s.ringCopyErr r line).time = s.time := by
  unfold State.ringCopyErr
  dsimp only
  repeat' split
  all_goals simp

@[simp] theorem ringRun_time (r v) : (s.ringRun r v).time = s.time := by simp [State.ringRun]

@[simp] theorem takeRun_time (r v) : (s.takeRun r v).time = s.time := by
  unfold State.takeRun
  dsimp only
  split <;> simp

@[simp] theorem playRun_time (r) : (s.playRun r).time = s.time := by
  unfold State.playRun
  dsimp only
  split <;> simp

@[simp] theorem recRun_time (r) : (s.recRun r).time = s.time := by simp [State.recRun]

@[simp] theorem loopRun_time : s.loopRun.time = s.time := by simp [State.loopRun]

@[simp] theorem loopRamps_time : s.loopRamps.time = s.time := by simp only [State.loopRamps]

@[simp] theorem takesEnd_time : s.takesEnd.time = s.time := by
  unfold State.takesEnd
  refine foldl_time _ _ _ fun s a => ?_
  split <;> simp

@[simp] theorem ringsBreak_time : s.ringsBreak.time = s.time := by simp only [State.ringsBreak]

/-! ### Leaders and the house rate (chapter 2) -/

@[simp] theorem setSap_time (k x) : (s.setSap k x).time = s.time := by simp only [State.setSap]

@[simp] theorem updSap_time (k) (f : SapDir → SapDir) : (s.updSap k f).time = s.time := by simp [State.updSap]

@[simp] theorem setCtx_time (n x) : (s.setCtx n x).time = s.time := by simp only [State.setCtx]

@[simp] theorem updCtx_time (n) (f : NetCtx → NetCtx) : (s.updCtx n f).time = s.time := by simp [State.updCtx]

@[simp] theorem setClk_time (c) : (s.setClk c).time = s.time := by simp only [State.setClk]

@[simp] theorem leaderLost_time (dt) : (s.leaderLost dt).time = s.time := by simp [State.leaderLost]

@[simp] theorem leaderAdopt_time : s.leaderAdopt.time = s.time := by simp [State.leaderAdopt]

@[simp] theorem leaderBack_time : s.leaderBack.time = s.time := by simp [State.leaderBack]

@[simp] theorem leaderLoop_time (err) : (s.leaderLoop err).time = s.time := by
  unfold State.leaderLoop
  dsimp only
  repeat' split
  all_goals simp

@[simp] theorem wclkEdges_time (l) : (s.wclkEdges l).time = s.time := by simp [State.wclkEdges]

@[simp] theorem execLeaderLock_onward (dt) : Onward s.time.dt (execLeaderLock dt s) := by simp [execLeaderLock]

@[simp] theorem execLeaderRange_onward (dt) : Onward s.time.dt (execLeaderRange dt s) := by simp [execLeaderRange]

@[simp] theorem execWclkInLoss_onward (dt) : Onward s.time.dt (execWclkInLoss dt s) := by simp [execWclkInLoss]

@[simp] theorem execMclkLoss_onward (dt) : Onward s.time.dt (execMclkLoss dt s) := by simp [execMclkLoss]

@[simp] theorem clockLeaderEffect_time (p) : (clockLeaderEffect p s).st.time = s.time := by simp [clockLeaderEffect]

@[simp] theorem execClockLeader_onward (h p) : Onward s.time.dt (execClockLeader h p s) := by simp [execClockLeader]

@[simp] theorem houseRateRefused_time (h rate st) : (houseRateRefused h rate st s).time = s.time := by
  simp [houseRateRefused]

@[simp] theorem aoutFactors_time (tgt n) : (s.aoutFactors tgt n).time = s.time := by simp [State.aoutFactors]

@[simp] theorem stateFactors_time (tgt n) : (s.stateFactors tgt n).time = s.time := by simp [State.stateFactors]

@[simp] theorem houseRateEffect_time (h rate) : (houseRateEffect h rate s).st.time = s.time := by simp [houseRateEffect]

@[simp] theorem execHouseRate_onward (h rate) : Onward s.time.dt (execHouseRate h rate s) := by simp [execHouseRate]

@[simp] theorem enginesClear_time : s.enginesClear.time = s.time := by simp [State.enginesClear]

@[simp] theorem execRateChangeStop_onward (dt) : Onward s.time.dt (execRateChangeStop dt s) := by
  unfold execRateChangeStop
  dsimp only
  split <;> simp

@[simp] theorem execRateChangeResume_onward (dt) : Onward s.time.dt (execRateChangeResume dt s) := by
  unfold execRateChangeResume
  split <;> simp

@[simp] theorem execHousePllLock_onward (dt) : Onward s.time.dt (execHousePllLock dt s) := by simp [execHousePllLock]

/-! ### Serial audio ports (chapter 8) -/

@[simp] theorem setGrove_time (g x) : (s.setGrove g x).time = s.time := by simp only [State.setGrove]

@[simp] theorem groveTick_time (m missing) : (s.groveTick m missing).time = s.time := by
  unfold State.groveTick
  split <;> simp

@[simp] theorem sapFault_time (k i) : (s.sapFault k i).time = s.time := by simp [State.sapFault]

@[simp] theorem sapSetEffect_time (p) : (sapSetEffect p s).st.time = s.time := by simp [sapSetEffect]

@[simp] theorem execSapSet_onward (h p) : Onward s.time.dt (execSapSet h p s) := by simp [execSapSet]

@[simp] theorem execSapSeqApply_onward (port dir) : Onward s.time.dt (execSapSeqApply port dir s) := by
  unfold execSapSeqApply
  dsimp only
  split <;> simp

@[simp] theorem execSapLock_onward (port dir) : Onward s.time.dt (execSapLock port dir s) := by
  unfold execSapLock
  dsimp only
  split <;> simp

@[simp] theorem execAsrcLock_onward (user rate) : Onward s.time.dt (execAsrcLock user rate s) := by
  unfold execAsrcLock
  split <;> simp

@[simp] theorem sapGlitch_time (k bclks) : (s.sapGlitch k bclks).time = s.time := by simp [State.sapGlitch]

@[simp] theorem execSapFrameRx_onward (port edge bclks line) :
    Onward s.time.dt (execSapFrameRx port edge bclks line s) := by
  unfold execSapFrameRx
  dsimp only
  repeat' split
  all_goals simp

@[simp] theorem txZeros_time (k x) : (s.txZeros k x).time = s.time := by simp [State.txZeros]

@[simp] theorem txValue_time (k x edge t) : (s.txValue k x edge t).time = s.time := by
  unfold State.txValue
  dsimp only
  split <;> simp

@[simp] theorem execSapFrameTx_onward (port edge bclks) : Onward s.time.dt (execSapFrameTx port edge bclks s) := by
  unfold execSapFrameTx
  dsimp only
  repeat' split
  all_goals simp

@[simp] theorem execSapClkLoss_onward (port dir dt) : Onward s.time.dt (execSapClkLoss port dir dt s) := by
  simp [execSapClkLoss]

@[simp] theorem execSapClkReturn_onward (port dir dt) : Onward s.time.dt (execSapClkReturn port dir dt s) := by
  simp [execSapClkReturn]

@[simp] theorem execSapRateJump_onward (port dir rate dt) : Onward s.time.dt (execSapRateJump port dir rate dt s) := by
  simp [execSapRateJump]

@[simp] theorem execSapRateMeasure_onward (port dir spanNs) : Onward s.time.dt (execSapRateMeasure port dir spanNs s) := by
  simp [execSapRateMeasure]

@[simp] theorem sapRequests_time (k) : (s.sapRequests k).time = s.time := by
  unfold State.sapRequests
  dsimp only
  repeat' split
  all_goals simp

@[simp] theorem sapResume_time (k) : (s.sapResume k).time = s.time := by simp [State.sapResume]

@[simp] theorem sapSlip_time (k) : (s.sapSlip k).time = s.time := by simp [State.sapSlip]

@[simp] theorem sapRead_time (k) : (s.sapRead k).time = s.time := by
  unfold State.sapRead
  dsimp only
  repeat' split
  all_goals simp

@[simp] theorem sapWrite_time (k) : (s.sapWrite k).time = s.time := by simp [State.sapWrite]

@[simp] theorem sapRamps_time (k) : (s.sapRamps k).time = s.time := by simp [State.sapRamps]

@[simp] theorem sapTxMiss_time (k) : (s.sapTxMiss k).time = s.time := by simp [State.sapTxMiss]

@[simp] theorem sapMeasure_time (k) : (s.sapMeasure k).time = s.time := by simp [State.sapMeasure]

@[simp] theorem sapTick_time : s.sapTick.time = s.time := by simp [State.sapTick]

@[simp] theorem sapFirst_time : s.sapFirst.time = s.time := by simp [State.sapFirst]

/-! ### Network streams (chapter 9) -/

@[simp] theorem ctxCommit_time (l) : (s.ctxCommit l).time = s.time := by simp [State.ctxCommit]

@[simp] theorem streamNoted_time (h opcode l st) : (s.streamNoted h opcode l st).time = s.time := by
  simp [State.streamNoted]

@[simp] theorem streamCtrlRefused_time (h p st) : (streamCtrlRefused h p st s).time = s.time := by simp [streamCtrlRefused]

@[simp] theorem ctxStart_time (n) : (s.ctxStart n).time = s.time := by simp [State.ctxStart]

@[simp] theorem ctxStop_time (n) : (s.ctxStop n).time = s.time := by simp [State.ctxStop]

@[simp] theorem streamCtrlEffect_time (h p) : (streamCtrlEffect h p s).st.time = s.time := by
  unfold streamCtrlEffect
  split <;> simp

@[simp] theorem execStreamCtrl_onward (h p) : Onward s.time.dt (execStreamCtrl h p s) := by simp [execStreamCtrl]

@[simp] theorem streamWaits_time : s.streamWaits.time = s.time := by
  unfold State.streamWaits
  refine foldl_time _ _ _ fun s a => ?_
  split <;> simp

@[simp] theorem placeFrame_time (n t v) : (s.placeFrame n t v).time = s.time := by simp [State.placeFrame]

@[simp] theorem placeFrames_time (n rate fmt l i t p) : (s.placeFrames n rate fmt l i t p).time = s.time := by
  induction l generalizing s i t with
  | nil => rfl
  | cons v r ih => simp [State.placeFrames, ih]

@[simp] theorem packetFirst_time (n k p) : (s.packetFirst n k p).time = s.time := by simp [State.packetFirst]

@[simp] theorem ctxOnline_time (n dt) : (s.ctxOnline n dt).time = s.time := by
  unfold State.ctxOnline
  dsimp only
  repeat' split
  all_goals simp

@[simp] theorem addEdges_time (n l) : (s.addEdges n l).time = s.time := by simp [State.addEdges]

@[simp] theorem aafPacket_time (n k) : (s.aafPacket n k).time = s.time := by
  unfold State.aafPacket
  dsimp only
  split <;> simp

@[simp] theorem nrxPass_time (n) : (s.nrxPass n).time = s.time := by simp [State.nrxPass]

@[simp] theorem nrxFrame_time (k) : (s.nrxFrame k).time = s.time := by
  unfold State.nrxFrame
  dsimp only
  split <;> simp

@[simp] theorem aafEdge_time (n) : (s.aafEdge n).time = s.time := by
  unfold State.aafEdge
  split <;> simp

@[simp] theorem execNetPacketRx_onward (k) : Onward s.time.dt (execNetPacketRx k s) := by
  unfold execNetPacketRx
  dsimp only
  repeat' split
  all_goals simp

@[simp] theorem execNetRealign_onward (n) : Onward s.time.dt (execNetRealign n s) := by
  unfold execNetRealign
  dsimp only
  split <;> simp

@[simp] theorem execNetStreamLoss_onward (n dt) : Onward s.time.dt (execNetStreamLoss n dt s) := by simp [execNetStreamLoss]

@[simp] theorem ctxBoundary_time (n) : (s.ctxBoundary n).time = s.time := by simp [State.ctxBoundary]

@[simp] theorem ctxRead_time (n) : (s.ctxRead n).time = s.time := by simp [State.ctxRead]

@[simp] theorem txDrop_time (mac) : (s.txDrop mac).time = s.time := by simp [State.txDrop]

@[simp] theorem talkerTick_time (n) : (s.talkerTick n).time = s.time := by simp [State.talkerTick]

@[simp] theorem netTick_time : s.netTick.time = s.time := by simp [State.netTick]

@[simp] theorem netClose_time : s.netClose.time = s.time := by simp [State.netClose]

@[simp] theorem runData_time (h : Hdr) (op type : Nat) (v k : Bool) (pass work : State → State)
    (hp : ∀ s, (pass s).time = s.time) (hw : ∀ s, (work s).time = s.time) :
    (s.runData h op type v k pass work).time = s.time := by
  simp [State.runData, hp, hw]

@[simp] theorem ntxTake_time (h p) : (s.ntxTake h p).time = s.time := by simp [State.ntxTake]

@[simp] theorem nrxTake_time (h p) : (s.nrxTake h p).time = s.time := by simp [State.nrxTake]

@[simp] theorem execNtxFrame_onward (h p) : Onward s.time.dt (execNtxFrame h p s) := by simp [execNtxFrame]

@[simp] theorem execNrxBuf_onward (h p) : Onward s.time.dt (execNrxBuf h p s) := by simp [execNrxBuf]

@[simp] theorem execNtxEgress_onward (ring dt) : Onward s.time.dt (execNtxEgress ring dt s) := by
  unfold execNtxEgress
  dsimp only
  split <;> simp

@[simp] theorem ntxFlush_time (mac) : (s.ntxFlush mac).time = s.time := by simp [State.ntxFlush]

@[simp] theorem linkSpeed_time (mac speed) : (s.linkSpeed mac speed).time = s.time := by simp [State.linkSpeed]

@[simp] theorem execNetLinkUp_onward (mac speed) : Onward s.time.dt (execNetLinkUp mac speed s) := by simp [execNetLinkUp]

@[simp] theorem execNetLinkDown_onward (mac) : Onward s.time.dt (execNetLinkDown mac s) := by simp [execNetLinkDown]

@[simp] theorem execMdioLinkMonitor_onward (mac speed) : Onward s.time.dt (execMdioLinkMonitor mac speed s) := by
  simp [execMdioLinkMonitor]

@[simp] theorem execNetPhyInt_onward (mac dt) : Onward s.time.dt (execNetPhyInt mac dt s) := by simp [execNetPhyInt]

@[simp] theorem execMdioDone_onward (data) : Onward s.time.dt (execMdioDone data s) := by simp [execMdioDone]

@[simp] theorem apCtx_time (off w) : (s.apCtx off w).time = s.time := by simp [State.apCtx]

/-! ### Groves (chapter 8) -/

@[simp] theorem groveSetEffect_time (p) : (groveSetEffect p s).st.time = s.time := by simp [groveSetEffect]

@[simp] theorem execGroveSet_onward (h p) : Onward s.time.dt (execGroveSet h p s) := by simp [execGroveSet]

@[simp] theorem dirRise_time (k) : (s.dirRise k).time = s.time := by simp [State.dirRise]

@[simp] theorem groveStartRefused_time (h g st) : (groveStartRefused h g st s).time = s.time := by simp [groveStartRefused]

@[simp] theorem groveStartEffect_time (g) : (groveStartEffect g s).st.time = s.time := by
  simp only [groveStartEffect, logAt_keeps, setGrove_time]
  refine foldl_time _ _ _ fun s m => ?_
  cases m <;> simp

@[simp] theorem execGroveStart_onward (h g) : Onward s.time.dt (execGroveStart h g s) := by simp [execGroveStart]

@[simp] theorem groveStopEffect_time (g) : (groveStopEffect g s).st.time = s.time := by
  simp only [groveStopEffect, setGrove_time]
  refine foldl_time _ _ _ fun s m => ?_
  cases m <;> simp

@[simp] theorem execGroveStop_onward (h g) : Onward s.time.dt (execGroveStop h g s) := by simp [execGroveStop]

@[simp] theorem execGroveMemberJoin_onward (g m) : Onward s.time.dt (execGroveMemberJoin g m s) := by
  unfold execGroveMemberJoin
  split <;> simp

@[simp] theorem groveEnds_time : s.groveEnds.time = s.time := by
  unfold State.groveEnds
  refine foldl_time _ _ _ fun s a => ?_
  dsimp only
  split <;> simp

/-! ### The event recorder (chapter 15) -/

@[simp] theorem evtLost_time (r dt) : (s.evtLost r dt).time = s.time := by simp [State.evtLost]

@[simp] theorem logAlert_time (e) : (s.logAlert e).time = s.time := by simp [State.logAlert]

@[simp] theorem committed_time (seq e dt) : (s.committed seq e dt).time = s.time := by simp [State.committed]

theorem placeRec_time {s t : State} {q : Word} {e : Ev} {dt : DT} (h : s.placeRec q e dt = some t) : t.time = s.time := by
  unfold State.placeRec at h
  dsimp only at h
  split at h
  · cases h; simp
  · split at h <;> cases h
    simp

@[simp] theorem commitOne_time (e dt) : (s.commitOne e dt).time = s.time := by
  unfold State.commitOne
  split
  · next h => simp [placeRec_time h]
  · simp

@[simp] theorem blzStep_time (dt) : (s.blzStep dt).time = s.time := by
  unfold State.blzStep
  split
  · rfl
  · split
    · simp
    · dsimp only
      split
      · split
        · next h => simp [placeRec_time h]
        · split <;> simp
      · split <;> simp

@[simp] theorem execBlzCommit_onward (dt) : Onward s.time.dt (execBlzCommit dt s) := by simp [execBlzCommit]

@[simp] theorem execBlzSealWrite_onward (dt) : Onward s.time.dt (execBlzSealWrite dt s) := by
  unfold execBlzSealWrite
  dsimp only
  split
  · simp
  · simp
  · rw [onward_next]
    split
    · next h => simp [placeRec_time h]
    · simp

@[simp] theorem blzMarkEffect_time (p) : (blzMarkEffect p s).st.time = s.time := by simp [blzMarkEffect]

@[simp] theorem execBlzMark_onward (h p) : Onward s.time.dt (execBlzMark h p s) := by simp [execBlzMark]

@[simp] theorem execRateLimitSecondEnd_onward (code key dt) : Onward s.time.dt (execRateLimitSecondEnd code key dt s) := by
  simp [execRateLimitSecondEnd]

@[simp] theorem blzFree_time (seq) : (s.blzFree seq).time = s.time := by simp only [State.blzFree]

@[simp] theorem blzSelect_time (seq) : (s.blzSelect seq).time = s.time := by simp [State.blzSelect]

@[simp] theorem drainSet_time (v) : (s.drainSet v).time = s.time := by simp [State.drainSet]

@[simp] theorem drainN_time (r n) : (s.drainN r n).time = s.time := by
  induction n generalizing s with
  | zero => rfl
  | succ n ih =>
    unfold State.drainN
    split <;> simp [ih]

@[simp] theorem drain_time : (s.drain).time = s.time := by simp [State.drain]

/-! ### Host rings (chapter 10) -/

@[simp] theorem ringTry_time (n) : (s.ringTry n).time = s.time := by
  unfold State.ringTry
  split <;> simp

@[simp] theorem ringChecks_time : s.ringChecks.time = s.time := by simp [State.ringChecks]

@[simp] theorem ringCfgWrite_time (n v) : (s.ringCfgWrite n v).time = s.time := by simp [State.ringCfgWrite]

@[simp] theorem streamEnd_time (d st) : (s.streamEnd d st).time = s.time := by simp [State.streamEnd]

@[simp] theorem streamPass_time (n) : (s.streamPass n).time = s.time := by simp [State.streamPass]

@[simp] theorem streamFinish_time (n st) (f : StreamDesc → Bool) : (s.streamFinish n f st).time = s.time := by
  unfold State.streamFinish
  split <;> simp

@[simp] theorem streamUpd_time (n d d') : (s.streamUpd n d d').time = s.time := by simp [State.streamUpd]

@[simp] theorem streamTake_time (h p opcode type lead write) : (s.streamTake h p opcode type lead write).time = s.time := by
  cases e : (s.ring (ringOf h)).prevEnd <;> rcases l : h.late with _ | _ | n <;> simp [State.streamTake, e, l]

@[simp] theorem execHpbData_onward (h p) : Onward s.time.dt (execHpbData h p s) := by simp [execHpbData]

@[simp] theorem execHcpData_onward (h p) : Onward s.time.dt (execHcpData h p s) := by simp [execHcpData]

@[simp] theorem hpbRead_time (n frames) : (s.hpbRead n frames).time = s.time := by
  unfold State.hpbRead
  repeat' split
  all_goals simp

@[simp] theorem hpbPut_time (n tag fill v) : (s.hpbPut n tag fill v).time = s.time := by simp [State.hpbPut]

@[simp] theorem hpbFall_time (n) : (s.hpbFall n).time = s.time := by simp [State.hpbFall]

@[simp] theorem hpbTick_time (n) : (s.hpbTick n).time = s.time := by
  unfold State.hpbTick
  dsimp only
  repeat' split
  all_goals simp

@[simp] theorem hcpTick_time (n) : (s.hcpTick n).time = s.time := by
  unfold State.hcpTick
  dsimp only
  repeat' split
  all_goals simp

@[simp] theorem blkPass_time (n) : (s.blkPass n).time = s.time := by simp [State.blkPass]

@[simp] theorem blkTake_time (h p opcode) : (s.blkTake h p opcode).time = s.time := by simp [State.blkTake]

@[simp] theorem execBlkLoad_onward (h p) : Onward s.time.dt (execBlkLoad h p s) := by simp [execBlkLoad]

@[simp] theorem execBlkUnload_onward (h p) : Onward s.time.dt (execBlkUnload h p s) := by simp [execBlkUnload]

@[simp] theorem execBlkFill_onward (h p) : Onward s.time.dt (execBlkFill h p s) := by simp [execBlkFill]

@[simp] theorem blkEnd_time (n b st moved corrected) : (s.blkEnd n b st moved corrected).time = s.time := by
  simp [State.blkEnd]

@[simp] theorem blkGo_time (n k) : (s.blkGo n k).time = s.time := by
  induction k generalizing s with
  | zero => rfl
  | succ k ih =>
    unfold State.blkGo
    repeat' split
    all_goals simp [ih]

@[simp] theorem blkStarts_time : (s.blkStarts).time = s.time := by simp [State.blkStarts]

@[simp] theorem blkWrite_time (b moved data) : (s.blkWrite b moved data).time = s.time := by
  unfold State.blkWrite
  split <;> simp

@[simp] theorem blkLost_time (n moved data) : (s.blkLost n moved data).time = s.time := by
  unfold State.blkLost
  split <;> simp

@[simp] theorem execBlkTransferEnd_onward (n moved corrected data) :
    Onward s.time.dt (execBlkTransferEnd n moved corrected data s) := by
  unfold execBlkTransferEnd
  split <;> simp

@[simp] theorem dbLate_time : s.dbLate.time = s.time := by simp [State.dbLate]

@[simp] theorem dbFetch_time : s.dbFetch.time = s.time := by simp [State.dbFetch]

@[simp] theorem dbEntry_time (n v) : (s.dbEntry n v).time = s.time := by simp [State.dbEntry]

@[simp] theorem execDoorbellReturn_onward (page) : Onward s.time.dt (execDoorbellReturn page s) := by
  simp [execDoorbellReturn]

@[simp] theorem execDoorbellLate_onward (dt) : Onward s.time.dt (execDoorbellLate dt s) := by simp [execDoorbellLate]

@[simp] theorem cpWrite_time : s.cpWrite.time = s.time := by simp [State.cpWrite]

@[simp] theorem msixRaise_time (v) : (s.msixRaise v).time = s.time := by simp [State.msixRaise]

@[simp] theorem msixFlush_time : s.msixFlush.time = s.time := by simp [State.msixFlush]

@[simp] theorem ringVec_time (n) : (s.ringVec n).time = s.time := by simp [State.ringVec]

@[simp] theorem msixTick_time : s.msixTick.time = s.time := by simp [State.msixTick]

@[simp] theorem abortWaits_time (n) : (s.abortWaits n).time = s.time := by simp [State.abortWaits]

@[simp] theorem ringStop_time (n) : (s.ringStop n).time = s.time := by simp [State.ringStop]

@[simp] theorem ringsOpen_time : s.ringsOpen.time = s.time := by simp [State.ringsOpen]

@[simp] theorem execHostDmaFail_onward (n moved ringMemory data) :
    Onward s.time.dt (execHostDmaFail n moved ringMemory data s) := by
  unfold execHostDmaFail
  repeat' split
  all_goals simp

@[simp] theorem wbFlush_time : s.wbFlush.time = s.time := by simp [State.wbFlush]

@[simp] theorem linkLost_time (why dt) : (s.linkLost why dt).time = s.time := by simp [State.linkLost]

@[simp] theorem execPcieLinkDown_onward (_l2 dt) : Onward s.time.dt (execPcieLinkDown _l2 dt s) := by
  simp [execPcieLinkDown]

@[simp] theorem execPcieLinkUp_onward (speed width dt) : Onward s.time.dt (execPcieLinkUp speed width dt s) := by
  simp [execPcieLinkUp]

@[simp] theorem execBusMasterDisable_onward (dt) : Onward s.time.dt (execBusMasterDisable dt s) := by
  simp [execBusMasterDisable]

@[simp] theorem execBusMasterEnable_onward : Onward s.time.dt (execBusMasterEnable s) := by simp [execBusMasterEnable]

@[simp] theorem hostReset_time : s.hostReset.time = s.time := by simp [State.hostReset]

@[simp] theorem execPerstAssert_onward (dt) : Onward s.time.dt (execPerstAssert dt s) := by simp [execPerstAssert]

@[simp] theorem execPerstRelease_onward (dt) : Onward s.time.dt (execPerstRelease dt s) := by simp [execPerstRelease]

@[simp] theorem execBarAccessInGlade_onward (dt) : Onward s.time.dt (execBarAccessInGlade dt s) := by
  simp [execBarAccessInGlade]

@[simp] theorem execPcieL12Exit_onward (dt) : Onward s.time.dt (execPcieL12Exit dt s) := by simp [execPcieL12Exit]

@[simp] theorem nudge_time (dt) : (s.nudge dt).time = s.time := by
  unfold State.nudge
  split <;> simp

@[simp] theorem execHstNudge_onward (dt) : Onward s.time.dt (execHstNudge dt s) := by simp [execHstNudge]

@[simp] theorem nopEffect_time (k) : (nopEffect k s).st.time = s.time := by simp only [nopEffect]

@[simp] theorem execNop_onward (c) : Onward s.time.dt (execNop c s) := by simp [execNop]

/-! ### Budget (chapter 11) -/

@[simp] theorem engineSave_time : s.engineSave.time = s.time := by simp only [State.engineSave]

@[simp] theorem engineBack_time (e) : (s.engineBack e).time = s.time := by
  unfold State.engineBack
  repeat' split
  all_goals simp

@[simp] theorem execBudgetOverrun_onward (engine) : Onward s.time.dt (execBudgetOverrun engine s) := by
  simp [execBudgetOverrun]

@[simp] theorem ledger1_time (e cost) : (s.ledger1 e cost).time = s.time := by
  unfold State.ledger1
  dsimp only
  repeat' split
  all_goals simp

@[simp] theorem ledger_time (costs) : (s.ledger costs).time = s.time := by simp [State.ledger]

@[simp] theorem peakClear_time : s.peakClear.time = s.time := by simp [State.peakClear]

/-! ### Listening (chapter 14) -/

@[simp] theorem lsnReset_time (why) : (s.lsnReset why).time = s.time := by simp [State.lsnReset]

@[simp] theorem lsnStart_time : s.lsnStart.time = s.time := by simp [State.lsnStart]

@[simp] theorem lsnApply_time (old) : (s.lsnApply old).time = s.time := by simp [State.lsnApply]

@[simp] theorem lsnReport_time (start len cls trunc woke) : (s.lsnReport start len cls trunc woke).time = s.time := by
  unfold State.lsnReport
  refine (foldl_time _ _ _ fun s w => ?_).trans (by simp)
  split <;> simp

@[simp] theorem lsnRunEnd_time (e) : (s.lsnRunEnd e).time = s.time := by
  unfold State.lsnRunEnd
  repeat' split
  all_goals simp

@[simp] theorem lsnGate_time (active x hop) : (s.lsnGate active x hop).time = s.time := by
  unfold State.lsnGate
  split <;> simp

@[simp] theorem lsnOnset_time (x) : (s.lsnOnset x).time = s.time := by simp [State.lsnOnset]

@[simp] theorem lsnPhraseHop_time (x) : (s.lsnPhraseHop x).time = s.time := by
  unfold State.lsnPhraseHop
  dsimp only
  repeat' split
  all_goals simp

@[simp] theorem execLsnHop_onward (x) : Onward s.time.dt (execLsnHop x s) := by simp [execLsnHop]

@[simp] theorem execPrerollBlock_onward (samples dt) : Onward s.time.dt (execPrerollBlock samples dt s) := by
  simp [execPrerollBlock]

@[simp] theorem lsnSleep_time : s.lsnSleep.time = s.time := by simp [State.lsnSleep]

@[simp] theorem lsnAwake_time (dt) : (s.lsnAwake dt).time = s.time := by simp [State.lsnAwake]

@[simp] theorem execLsnStop_onward (dt) : Onward s.time.dt (execLsnStop dt s) := by
  unfold execLsnStop
  dsimp only
  repeat' split
  all_goals simp

@[simp] theorem lsnSuspend_time (code dt) : (s.lsnSuspend code dt).time = s.time := by simp [State.lsnSuspend]

@[simp] theorem lsnResume_time (code dt) : (s.lsnResume code dt).time = s.time := by simp [State.lsnResume]

@[simp] theorem apLsn_time (off w) : (s.apLsn off w).time = s.time := by simp [State.apLsn]

@[simp] theorem listenSetEffect_time (p) : (listenSetEffect p s).st.time = s.time := by simp [listenSetEffect]

@[simp] theorem execListenSet_onward (h p) : Onward s.time.dt (execListenSet h p s) := by simp [execListenSet]

@[simp] theorem listenWaitEffect_time (h p) : (listenWaitEffect h p s).st.time = s.time := by simp [listenWaitEffect]

@[simp] theorem execListenWait_onward (h p) : Onward s.time.dt (execListenWait h p s) := by simp [execListenWait]

@[simp] theorem prerollReadEffect_time (p) : (prerollReadEffect p s).st.time = s.time := by
  unfold prerollReadEffect
  dsimp only
  split <;> simp

@[simp] theorem execPrerollRead_onward (h p) : Onward s.time.dt (execPrerollRead h p s) := by simp [execPrerollRead]

/-! ### Reads -/

@[simp] theorem setCore_time (c x) : (s.setCore c x).time = s.time := by simp only [State.setCore]

/-! ### Faults and recovery (chapter 16) -/

@[simp] theorem deadfall_time (cause dt) : (s.deadfall cause dt).time = s.time := by
  unfold State.deadfall
  repeat' split
  all_goals simp

@[simp] theorem fireEngage_time : s.fireEngage.time = s.time := by
  unfold State.fireEngage
  split <;> simp

@[simp] theorem firebreakEffect_time (op) : (firebreakEffect op s).st.time = s.time := by simp [firebreakEffect]

@[simp] theorem coppiceFail_time (c tries dt) : (s.coppiceFail c tries dt).time = s.time := by simp [State.coppiceFail]

@[simp] theorem fwFallback_time (c dt) : (s.fwFallback c dt).time = s.time := by
  unfold State.fwFallback
  split <;> simp

@[simp] theorem coppiceStart_time (c dt) : (s.coppiceStart c dt).time = s.time := by simp [State.coppiceStart]

@[simp] theorem coreFail_time (c reason cause dt) : (s.coreFail c reason cause dt).time = s.time := by
  unfold State.coreFail
  dsimp only
  repeat' split
  all_goals simp

@[simp] theorem heartbeat_time (c hb dt) : (s.heartbeat c hb dt).time = s.time := by
  unfold State.heartbeat
  split <;> simp

@[simp] theorem execHeartbeatWindow_onward (hbA hbB rangerMoved dt) :
    Onward s.time.dt (execHeartbeatWindow hbA hbB rangerMoved dt s) := by
  simp [execHeartbeatWindow]

@[simp] theorem execCoreException_onward (core memory dt) : Onward s.time.dt (execCoreException core memory dt s) := by
  simp [execCoreException]

@[simp] theorem journalTake_time : s.journalTake.time = s.time := by simp [State.journalTake]

@[simp] theorem recoverEnd_time (action) : (s.recoverEnd action).time = s.time := by simp [State.recoverEnd]

@[simp] theorem execCoppiceFirstPickup_onward (dt) : Onward s.time.dt (execCoppiceFirstPickup dt s) := by
  unfold execCoppiceFirstPickup
  dsimp only
  split <;> simp

@[simp] theorem execCoppiceRetry_onward (dt) : Onward s.time.dt (execCoppiceRetry dt s) := by
  unfold execCoppiceRetry
  dsimp only
  split <;> simp

@[simp] theorem execStandbyReady_onward : Onward s.time.dt (execStandbyReady s) := by
  unfold execStandbyReady
  split <;> simp

@[simp] theorem execRangerLoss_onward (dt) : Onward s.time.dt (execRangerLoss dt s) := by simp [execRangerLoss]

@[simp] theorem rangerReset_time (who) : (s.rangerReset who).time = s.time := by simp [State.rangerReset]

@[simp] theorem execRangerReloadDone_onward : Onward s.time.dt (execRangerReloadDone s) := by simp [execRangerReloadDone]

@[simp] theorem fwActivateRefused_time (p st) : (fwActivateRefused p st s).time = s.time := by simp [fwActivateRefused]

@[simp] theorem fwActivateEffect_time (h p) : (fwActivateEffect h p s).st.time = s.time := by simp [fwActivateEffect]

@[simp] theorem execFwActivate_onward (h p) : Onward s.time.dt (execFwActivate h p s) := by simp [execFwActivate]

@[simp] theorem execFwHandover_onward : Onward s.time.dt (execFwHandover s) := by
  unfold execFwHandover
  split <;> simp

@[simp] theorem execFwProbationEnd_onward (dt) : Onward s.time.dt (execFwProbationEnd dt s) := by
  unfold execFwProbationEnd
  dsimp only
  split <;> simp

@[simp] theorem lineZero_time (a) : (s.lineZero a).time = s.time := by simp only [State.lineZero]

@[simp] theorem loopErr_time (r a dt) : (s.loopErr r a dt).time = s.time := by simp [State.loopErr]

@[simp] theorem execDramUe_onward (user addr dt) : Onward s.time.dt (execDramUe user addr dt s) := by
  unfold execDramUe
  split <;> simp

@[simp] theorem nodeLost_time (k) : (s.nodeLost k).time = s.time := by cases s; rfl

@[simp] theorem busLost_time (b) : (s.busLost b).time = s.time := by cases s; rfl

@[simp] theorem shadowLost_time (off) : (s.shadowLost off).time = s.time := by simp [State.shadowLost]

@[simp] theorem pendLost_time (ring tag) : (s.pendLost ring tag).time = s.time := by
  unfold State.pendLost
  split <;> simp

@[simp] theorem execSramUe_onward (word addr dt) : Onward s.time.dt (execSramUe word addr dt s) := by
  unfold execSramUe
  cases word <;> simp

@[simp] theorem execMemScrubPeriodEnd_onward (linesLeft dt) : Onward s.time.dt (execMemScrubPeriodEnd linesLeft dt s) := by
  simp [execMemScrubPeriodEnd]

/-! ### Retained banks (chapter 13) -/

@[simp] theorem bankLose_dt (b) : (s.bankLose b).time.dt = s.time.dt := by
  unfold State.bankLose
  split <;> rfl

@[simp] theorem tablesLose_time : s.tablesLose.time = s.time := by simp only [State.tablesLose]

@[simp] theorem dramLose_time : s.dramLose.time = s.time := by simp only [State.dramLose]

@[simp] theorem applyLost_dt (lost) : (s.applyLost lost).time.dt = s.time.dt := by
  unfold State.applyLost
  simp only [State.freeNat, time_ite, tablesLose_time, dramLose_time, ite_self]
  rw [foldl_dt]
  intro s b
  split <;> simp

/-! ### Power states (chapter 13) -/

@[simp] theorem perfLevelRefused_time (h level st) : (perfLevelRefused h level st s).time = s.time := by
  simp [perfLevelRefused]

@[simp] theorem perfLevelEffect_time (level) : (perfLevelEffect level s).st.time = s.time := by simp [perfLevelEffect]

@[simp] theorem execPerfLevel_onward (h level) : Onward s.time.dt (execPerfLevel h level s) := by simp [execPerfLevel]

@[simp] theorem levelSwitch_time : s.levelSwitch.time = s.time := by
  unfold State.levelSwitch
  split <;> simp

@[simp] theorem execLevelRaiseSwitch_onward : Onward s.time.dt (execLevelRaiseSwitch s) := by simp [execLevelRaiseSwitch]

@[simp] theorem execVsettleEnd_onward : Onward s.time.dt (execVsettleEnd s) := by simp [execVsettleEnd]

@[simp] theorem sleepEffect_time (h p) : (sleepEffect h p s).st.time = s.time := by simp [sleepEffect]

@[simp] theorem execSleep_onward (h p) : Onward s.time.dt (execSleep h p s) := by simp [execSleep]

@[simp] theorem setSleep_time (z) : (s.setSleep z).time = s.time := by simp only [State.setSleep]

@[simp] theorem sleepRefuse_time (z reason) : (s.sleepRefuse z reason).time = s.time := by simp [State.sleepRefuse]

@[simp] theorem voteYes_time (z) : (s.voteYes z).time = s.time := by
  unfold State.voteYes
  split <;> simp

@[simp] theorem voteTurn_time : s.voteTurn.time = s.time := by
  unfold State.voteTurn
  split <;> simp

@[simp] theorem execSleepVoteTurn_onward : Onward s.time.dt (execSleepVoteTurn s) := by simp [execSleepVoteTurn]

@[simp] theorem execSleepLinkHoldEnd_onward (linkAway) : Onward s.time.dt (execSleepLinkHoldEnd linkAway s) := by
  unfold execSleepLinkHoldEnd
  split <;> simp

@[simp] theorem blockResume_time (i) : (s.blockResume i).time = s.time := by simp [State.blockResume]

@[simp] theorem rollTick_time : s.rollTick.time = s.time := by
  unfold State.rollTick
  repeat' split
  all_goals simp

@[simp] theorem keysErase_time (why dt) : (s.keysErase why dt).time = s.time := by simp [State.keysErase]

@[simp] theorem hwdStop_time : s.hwdStop.time = s.time := by simp only [State.hwdStop]

@[simp] theorem execHardwareEntry_onward (dt) : Onward s.time.dt (execHardwareEntry dt s) := by
  unfold execHardwareEntry
  dsimp only
  split <;> simp

@[simp] theorem execHardwareEntryEnd_onward (dt) : Onward s.time.dt (execHardwareEntryEnd dt s) := by
  unfold execHardwareEntryEnd
  dsimp only
  split <;> simp

@[simp] theorem execCanopyTimer_onward (dt) : Onward s.time.dt (execCanopyTimer dt s) := by
  unfold execCanopyTimer
  dsimp only
  repeat' split
  all_goals simp

@[simp] theorem execGpioWakeLevel_onward (pin dt) : Onward s.time.dt (execGpioWakeLevel pin dt s) := by
  simp [execGpioWakeLevel]

@[simp] theorem execSapWakeActivity_onward (port dt) : Onward s.time.dt (execSapWakeActivity port dt s) := by
  simp [execSapWakeActivity]

@[simp] theorem execSapWakePattern_onward (port dt) : Onward s.time.dt (execSapWakePattern port dt s) := by
  simp [execSapWakePattern]

@[simp] theorem canopyStage_time : s.canopyStage.time = s.time := by simp [State.canopyStage]

@[simp] theorem hwdStart_time : s.hwdStart.time = s.time := by simp only [State.hwdStart]

@[simp] theorem wakeStep4_dt (b dt) : (s.wakeStep4 b dt).time.dt = s.time.dt := by
  simp [State.wakeStep4]

@[simp] theorem startStep4_time : s.startStep4.time = s.time := by
  simp [State.startStep4, State.freeNat]

@[simp] theorem execExitStepReady_onward (badBanks saveUe dt) :
    Onward s.time.dt (execExitStepReady badBanks saveUe dt s) := by
  simp [execExitStepReady]

@[simp] theorem execExitStepTimeout_onward (dt) : Onward s.time.dt (execExitStepTimeout dt s) := by
  simp [execExitStepTimeout]

@[simp] theorem awake_dt (w dt) : (s.awake w dt).time.dt = s.time.dt := by
  unfold State.awake
  split <;> simp

@[simp] theorem setWoke_time (b) : (s.setWoke b).time = s.time := by simp only [State.setWoke]

@[simp] theorem execWakeBoundary_onward (dt) : Onward s.time.dt (execWakeBoundary dt s) := by
  unfold execWakeBoundary
  split <;> simp

@[simp] theorem execShadeExit_onward (source dt) : Onward s.time.dt (execShadeExit source dt s) := by
  unfold execShadeExit
  dsimp only
  split <;> simp

/-! ### Resets and supplies -/

@[simp] theorem le_resetTo_dt (code dt) (h : d ≤ s.time.dt) : d ≤ (s.resetTo code dt).time.dt := by
  simp [State.resetTo, h]

@[simp] theorem startIf_time (dt) : (s.startIf dt).time = s.time := by simp [State.startIf]

@[simp] theorem execVsysLoss_onward (canopy) : Onward s.time.dt (execVsysLoss canopy s) := by simp [execVsysLoss]

@[simp] theorem execResetNAssert_onward (dt) : Onward s.time.dt (execResetNAssert dt s) := by simp [execResetNAssert]

@[simp] theorem execResetNRelease_onward (sel dt) : Onward s.time.dt (execResetNRelease sel dt s) := by
  simp [execResetNRelease]

@[simp] theorem execCoreSupplyLoss_onward (dt) : Onward s.time.dt (execCoreSupplyLoss dt s) := by simp [execCoreSupplyLoss]

@[simp] theorem execCoreSupplyReturn_onward (dt) : Onward s.time.dt (execCoreSupplyReturn dt s) := by
  simp [execCoreSupplyReturn]

@[simp] theorem execVio2Loss_onward : Onward s.time.dt (execVio2Loss s) := by simp [execVio2Loss]

@[simp] theorem execVio2Valid_onward (high) : Onward s.time.dt (execVio2Valid high s) := by simp [execVio2Valid]

@[simp] theorem memReady_time : s.memReady.time = s.time := by simp [State.memReady]

@[simp] theorem execDramSupplyLoss_onward (vddq) : Onward s.time.dt (execDramSupplyLoss vddq s) := by
  simp [execDramSupplyLoss]

@[simp] theorem execDramSupplyValid_onward (vddq) : Onward s.time.dt (execDramSupplyValid vddq s) := by
  simp [execDramSupplyValid]

@[simp] theorem le_devReset_dt (dt) (h : d ≤ s.time.dt) : d ≤ (s.devReset dt).time.dt := by simp [State.devReset, h]

@[simp] theorem resetTicks_time : s.resetTicks.time = s.time := by simp [State.resetTicks]

@[simp] theorem execNetPps_onward (dt) : Onward s.time.dt (execNetPps dt s) := by simp [execNetPps]

@[simp] theorem execGpioPulseEnd_onward (pin dt) : Onward s.time.dt (execGpioPulseEnd pin dt s) := by
  unfold execGpioPulseEnd
  dsimp only
  split <;> simp

/-! ### Register accesses (chapter 18) -/

@[simp] theorem lockedWrite_time (off who) : (s.lockedWrite off who).time = s.time := by simp [State.lockedWrite]

@[simp] theorem setLock_time (who) : (s.setLock who).time = s.time := by simp [State.setLock]

@[simp] theorem runGo_time : s.runGo.time = s.time := by simp [State.runGo]

@[simp] theorem clkCtrlDone_time (old) : (s.clkCtrlDone old).time = s.time := by simp [State.clkCtrlDone]

@[simp] theorem claimRefused_time (off st) : (s.claimRefused off st).time = s.time := by simp [State.claimRefused]

@[simp] theorem le_fltCtrl_dt (who v) (h : d ≤ s.time.dt) : d ≤ (s.fltCtrl who v).time.dt := by simp [State.fltCtrl, h]

@[simp] theorem apStatusDone_time : s.apStatusDone.time = s.time := by simp [State.apStatusDone]

@[simp] theorem clipCntClear_time : s.clipCntClear.time = s.time := by simp only [State.clipCntClear]

@[simp] theorem mdioStart_time : s.mdioStart.time = s.time := by simp [State.mdioStart]

@[simp] theorem gptpDone_dt (old) : (s.gptpDone old).time.dt = s.time.dt := by
  unfold State.gptpDone
  split <;> rfl

@[simp] theorem bootGo_time : s.bootGo.time = s.time := by simp [State.bootGo]

@[simp] theorem scrubStart_time : s.scrubStart.time = s.time := by simp only [State.scrubStart]

@[simp] theorem memCfgDone_time : s.memCfgDone.time = s.time := by simp [State.memCfgDone]

@[simp] theorem alertDone_time (oldMask) : (s.alertDone oldMask).time = s.time := by simp only [State.alertDone]

@[simp] theorem pwrCtrlDone_time : s.pwrCtrlDone.time = s.time := by simp [State.pwrCtrlDone]

@[simp] theorem le_regDone_dt (who off old v) (h : d ≤ s.time.dt) : d ≤ (s.regDone who off old v).time.dt := by
  simp [State.regDone, execTimeSnap, h]

@[simp] theorem laneWrite_time (off v) : (s.laneWrite off v).st.time = s.time := by
  unfold State.laneWrite
  dsimp only
  split <;> simp

theorem le_wrote_ite {c : Prop} [Decidable c] {a b : Wrote} (ha : d ≤ a.st.time.dt) (hb : d ≤ b.st.time.dt) :
    d ≤ (if c then a else b).st.time.dt := by
  split <;> assumption

@[simp] theorem le_regWrite_dt (who off v) (h : d ≤ s.time.dt) : d ≤ (s.regWrite who off v).st.time.dt := by
  unfold State.regWrite
  split
  · exact h
  next r _ =>
    dsimp only
    generalize (fieldsNew (r.flds.map _) _ _ v).1 = cand
    generalize fieldsNew r.flds _ _ v = new
    refine le_wrote_ite h <| le_wrote_ite h <| le_wrote_ite ?lane <| le_wrote_ite h <| le_wrote_ite ?drain <|
      le_wrote_ite (le_wrote_ite ?ring ?ringOff) <| le_wrote_ite ?gpio <| le_wrote_ite ?sapx ?fields
    case gpio => split <;> simp [h]
    case sapx => split <;> simp [h]
    all_goals simp [h]

@[simp] theorem le_hostWrite_dt (off v) (h : d ≤ s.time.dt) : d ≤ (s.hostWrite off v).time.dt := by
  unfold State.hostWrite
  split <;> simp [h]

@[simp] theorem execRegisterWrite_onward (off value aligned32) :
    Onward s.time.dt (execRegisterWrite off value aligned32 s) := by
  unfold execRegisterWrite
  repeat' split
  all_goals simp

@[simp] theorem execRingEnable_onward (n cfg) : Onward s.time.dt (execRingEnable n cfg s) := by simp [execRingEnable]

@[simp] theorem execRingDisable_onward (n cfg) : Onward s.time.dt (execRingDisable n cfg s) := by simp [execRingDisable]

@[simp] theorem execRun_onward (value) : Onward s.time.dt (execRun value s) := by simp [execRun]

@[simp] theorem execRangeWrite_onward (value) : Onward s.time.dt (execRangeWrite value s) := by simp [execRangeWrite]

@[simp] theorem execMeterEnable_onward (value) : Onward s.time.dt (execMeterEnable value s) := by simp [execMeterEnable]

@[simp] theorem execMdioGo_onward (value) : Onward s.time.dt (execMdioGo value s) := by simp [execMdioGo]

@[simp] theorem execNetCtxSel_onward (ctx) : Onward s.time.dt (execNetCtxSel ctx s) := by simp [execNetCtxSel]

@[simp] theorem execClipClr_onward (value) : Onward s.time.dt (execClipClr value s) := by simp [execClipClr]

@[simp] theorem execPeakClr_onward (value) : Onward s.time.dt (execPeakClr value s) := by simp [execPeakClr]

@[simp] theorem execBlzRelease_onward (seq) : Onward s.time.dt (execBlzRelease seq s) := by simp [execBlzRelease]

@[simp] theorem execBlzWinSeq_onward (seq) : Onward s.time.dt (execBlzWinSeq seq s) := by simp [execBlzWinSeq]

@[simp] theorem execDrainEnable_onward (value) : Onward s.time.dt (execDrainEnable value s) := by simp [execDrainEnable]

@[simp] theorem execAvClr_onward : Onward s.time.dt (execAvClr s) := by simp [execAvClr]

@[simp] theorem execDumpNow_onward : Onward s.time.dt (execDumpNow s) := by simp [execDumpNow]

@[simp] theorem execDumpClr_onward : Onward s.time.dt (execDumpClr s) := by simp [execDumpClr]

@[simp] theorem execRangerRst_onward : Onward s.time.dt (execRangerRst s) := by simp [execRangerRst]

@[simp] theorem execDevReset_onward (dt) : Onward s.time.dt (execDevReset dt s) := by simp [execDevReset]

@[simp] theorem execLock_onward : Onward s.time.dt (execLock s) := by simp [execLock]

@[simp] theorem execBootOrder_onward : Onward s.time.dt (execBootOrder s) := by simp [execBootOrder]

@[simp] theorem execGpioCfgWrite_onward (pin value) : Onward s.time.dt (execGpioCfgWrite pin value s) := by
  simp [execGpioCfgWrite]

@[simp] theorem execSapxCfgWrite_onward (value) : Onward s.time.dt (execSapxCfgWrite value s) := by simp [execSapxCfgWrite]

@[simp] theorem execGpioSet_onward (value) : Onward s.time.dt (execGpioSet value s) := by simp [execGpioSet]

@[simp] theorem execGpioClr_onward (value) : Onward s.time.dt (execGpioClr value s) := by simp [execGpioClr]

@[simp] theorem apWrite_time (off w) : (s.apWrite off w).time = s.time := by simp [State.apWrite]

@[simp] theorem execApertureWrite_onward (off lo hi aligned) :
    Onward s.time.dt (execApertureWrite off lo hi aligned s) := by
  unfold execApertureWrite
  repeat' split
  all_goals simp

@[simp] theorem execTimeDtRead_onward (target) : Onward s.time.dt (execTimeDtRead target s) := by simp [execTimeDtRead]

@[simp] theorem execTimeTickRead_onward (target) : Onward s.time.dt (execTimeTickRead target s) := by
  simp [execTimeTickRead]

@[simp] theorem fltLatch_time (c) : (s.fltLatch c).time = s.time := by simp [State.fltLatch]

@[simp] theorem execFltLoRead_onward (counter) : Onward s.time.dt (execFltLoRead counter s) := by simp [execFltLoRead]

/-! ### Heartwood (chapter 17) -/

@[simp] theorem bootOk_time (i) : (s.bootOk i).time = s.time := by simp [State.bootOk]

@[simp] theorem bootFail_time (i st) : (s.bootFail i st).time = s.time := by simp [State.bootFail]

@[simp] theorem execHwdBootDone_onward (image) : Onward s.time.dt (execHwdBootDone image s) := by
  unfold execHwdBootDone
  repeat' split
  all_goals simp

@[simp] theorem le_cfgWrite_dt (e) (h : d ≤ s.time.dt) : d ≤ (s.cfgWrite e).time.dt := by simp [State.cfgWrite, h]

@[simp] theorem cfgHash_time (h) : (s.cfgHash h).time = s.time := by simp [State.cfgHash]

@[simp] theorem le_cfgApply_dt (i) (h : d ≤ s.time.dt) : d ≤ (s.cfgApply i).time.dt := by simp [State.cfgApply, h]

@[simp] theorem execCfgOrder_onward (image) : Onward s.time.dt (execCfgOrder image s) := by simp [execCfgOrder]

@[simp] theorem le_configLoadEffect_dt (p) (h : d ≤ s.time.dt) : d ≤ (configLoadEffect p s).st.time.dt := by
  simp [configLoadEffect, h]

@[simp] theorem execConfigLoad_onward (h p) : Onward s.time.dt (execConfigLoad h p s) := by simp [execConfigLoad]

@[simp] theorem keyLoadRefused_time (p x) : (keyLoadRefused p x s).time = s.time := by simp [keyLoadRefused]

@[simp] theorem keyLoadEffect_time (p) : (keyLoadEffect p s).st.time = s.time := by simp [keyLoadEffect]

@[simp] theorem execKeyLoad_onward (h p) : Onward s.time.dt (execKeyLoad h p s) := by simp [execKeyLoad]

@[simp] theorem keyClearEffect_time (slot) : (keyClearEffect slot s).st.time = s.time := by simp only [keyClearEffect]

@[simp] theorem execKeyClear_onward (h slot) : Onward s.time.dt (execKeyClear h slot s) := by simp [execKeyClear]

@[simp] theorem attestEffect_time (p) : (attestEffect p s).st.time = s.time := by simp [attestEffect]

@[simp] theorem execAttest_onward (h p) : Onward s.time.dt (execAttest h p s) := by simp [execAttest]

@[simp] theorem newNonce_time : s.newNonce.time = s.time := rfl

@[simp] theorem debugUnlockRefused_time (p x) : (debugUnlockRefused p x s).time = s.time := by
  unfold debugUnlockRefused
  split <;> simp

@[simp] theorem debugUnlockEffect_time (p) : (debugUnlockEffect p s).st.time = s.time := by simp [debugUnlockEffect]

@[simp] theorem execDebugUnlock_onward (h p) : Onward s.time.dt (execDebugUnlock h p s) := by simp [execDebugUnlock]

@[simp] theorem execDebugExpire_onward (dt) : Onward s.time.dt (execDebugExpire dt s) := by
  unfold execDebugExpire
  dsimp only
  split <;> simp

/-! ### The two-wire target (chapter 12) -/

@[simp] theorem le_twbBegin_dt (cmd dt) (h : d ≤ s.time.dt) : d ≤ (s.twbBegin cmd dt).time.dt := by simp [State.twbBegin, h]

@[simp] theorem twbAbandoned_time (cmd) : (s.twbAbandoned cmd).time = s.time := by simp [State.twbAbandoned]

@[simp] theorem twbPecFail_time (cmd data tx) : (s.twbPecFail cmd data tx).time = s.time := by simp [State.twbPecFail]

@[simp] theorem twbLast_time (st) : (s.twbLast st).time = s.time := by simp only [State.twbLast]

@[simp] theorem le_twbWrite_dt (cmd data tx) {eff : State → State × Status} (h : d ≤ s.time.dt)
    (he : ∀ s, s.time.dt ≤ (eff s).1.time.dt) : d ≤ (s.twbWrite cmd data tx eff).time.dt := by
  have he {s} (h : d ≤ s.time.dt) : d ≤ (eff s).1.time.dt := BitVec.le_trans h (he s)
  simp [State.twbWrite, h, he]

@[simp] theorem answer_time (bytes) : (s.answer bytes).time = s.time := by simp only [State.answer]

@[simp] theorem respond_time (st data) : (s.respond st data).time = s.time := by simp [State.respond]

@[simp] theorem respondBlock_time (st data) : (s.respondBlock st data).time = s.time := by simp [State.respondBlock]

@[simp] theorem respondBusy_time (n) : (s.respondBusy n).time = s.time := by simp [State.respondBusy]

@[simp] theorem execStatus_onward (tx) : Onward s.time.dt (execStatus tx s) := by simp [execStatus]

@[simp] theorem execIdent_onward (tx) : Onward s.time.dt (execIdent tx s) := by simp [execIdent]

@[simp] theorem execDt_onward (tx) : Onward s.time.dt (execDt tx s) := by simp [execDt]

@[simp] theorem execAlert_onward (tx) : Onward s.time.dt (execAlert tx s) := by simp [execAlert]

@[simp] theorem le_twbPointer_dt (cmd w tx) (get : TwbSt → Word) (set : TwbSt → Word → TwbSt) (h : d ≤ s.time.dt) :
    d ≤ (s.twbPointer cmd w tx get set).time.dt := by
  unfold State.twbPointer
  split <;> simp [h]

@[simp] theorem execRegAddr_onward (w tx) : Onward s.time.dt (execRegAddr w tx s) := by simp [execRegAddr]

@[simp] theorem execLogPtr_onward (w tx) : Onward s.time.dt (execLogPtr w tx s) := by simp [execLogPtr]

@[simp] theorem execDumpPtr_onward (w tx) : Onward s.time.dt (execDumpPtr w tx s) := by simp [execDumpPtr]

@[simp] theorem le_targetWrite_dt (off v) (h : d ≤ s.time.dt) : d ≤ (s.targetWrite off v).1.time.dt := by
  unfold State.targetWrite
  repeat' split
  all_goals simp [h]

@[simp] theorem targetLatch_time (off) : (s.targetLatch off).time = s.time := by simp [State.targetLatch]

@[simp] theorem twbAinc_time : s.twbAinc.time = s.time := by simp [State.twbAinc]

@[simp] theorem regDataRead_time (tx) : (s.regDataRead tx).time = s.time := by
  simp [State.regDataRead, State.freeNat]

@[simp] theorem execRegData_onward (w tx) : Onward s.time.dt (execRegData w tx s) := by
  unfold execRegData
  cases w <;> simp

@[simp] theorem logReadGo_time (tx) : (s.logReadGo tx).time = s.time := by simp [State.logReadGo]

@[simp] theorem execLogRead_onward (tx) : Onward s.time.dt (execLogRead tx s) := by simp [execLogRead]

@[simp] theorem dumpReadGo_time (tx) : (s.dumpReadGo tx).time = s.time := by
  unfold State.dumpReadGo
  split <;> simp

@[simp] theorem execDumpRead_onward (tx) : Onward s.time.dt (execDumpRead tx s) := by simp [execDumpRead]

@[simp] theorem twbWake_time (num dt) : (s.twbWake num dt).time = s.time := by simp [State.twbWake]

@[simp] theorem execWake_onward (tx) : Onward s.time.dt (execWake tx s) := by simp [execWake]

@[simp] theorem execSmbusAddressWake_onward (dt) : Onward s.time.dt (execSmbusAddressWake dt s) := by
  simp [execSmbusAddressWake]

@[simp] theorem execArm_onward (code tx) : Onward s.time.dt (execArm code tx s) := by simp [execArm]

@[simp] theorem execArmExpire_onward (dt) : Onward s.time.dt (execArmExpire dt s) := by
  unfold execArmExpire
  dsimp only
  split <;> simp

@[simp] theorem recoverRefused_time (why) : (s.recoverRefused why).time = s.time := by simp [State.recoverRefused]

@[simp] theorem recoverCores_time : s.recoverCores.time = s.time := by simp [State.recoverCores]

@[simp] theorem le_recoverGo_dt (action) (h : d ≤ s.time.dt) : d ≤ (s.recoverGo action).time.dt := by
  unfold State.recoverGo
  dsimp only
  split <;> simp [h]

@[simp] theorem execRecover_onward (action tx) : Onward s.time.dt (execRecover action tx s) := by simp [execRecover]

@[simp] theorem execAlertResponse_onward (won) : Onward s.time.dt (execAlertResponse won s) := by simp [execAlertResponse]

@[simp] theorem execTwbAbandon_onward (cmd dt) : Onward s.time.dt (execTwbAbandon cmd dt s) := by simp [execTwbAbandon]

@[simp] theorem execTwbSdaRelease_onward (cmd) : Onward s.time.dt (execTwbSdaRelease cmd s) := by simp [execTwbSdaRelease]

@[simp] theorem execTwbBusTimeout_onward (sdaHeld cmd dt) : Onward s.time.dt (execTwbBusTimeout sdaHeld cmd dt s) := by
  simp [execTwbBusTimeout]

/-! ### Commit boundaries -/

@[simp] theorem claimPrep_time (l) : (s.claimPrep l).time = s.time := by simp only [State.claimPrep]

@[simp] theorem claimClear_time : s.claimClear.time = s.time := by simp only [State.claimClear]

theorem le_cmdSpec_eff_dt (h k c) {t : State} (ht : d ≤ t.time.dt) : d ≤ ((cmdSpec s h k c).eff t).st.time.dt := by
  cases c <;> simp [cmdSpec, cmdPlain, cmdNone, ht]

@[simp] theorem cmdSpec_note_time (h k c x) (t : State) : ((cmdSpec s h k c).onRefuse x t).time = t.time := by
  cases c <;> simp [cmdSpec, cmdPlain, cmdNone]

/-- What a refusal leaves beside its write-back keeps the time. -/
def Refused.KeepsTime (f : Refused) : Prop := ∀ s, (f.note s).time = s.time

theorem check5_refused_keepsTime {x : Item} {f : Refused} (h : check5 s x = .inl f) : f.KeepsTime := by
  unfold check5 at h
  dsimp only at h
  repeat' split at h
  all_goals cases h
  all_goals simp [Refused.KeepsTime]

theorem checkGroup_refused_keepsTime {g : List Item} {f : Refused} (h : checkGroup s g = .inl f) : f.KeepsTime := by
  induction g generalizing s with
  | nil => cases h
  | cons x r ih =>
    unfold checkGroup at h
    split at h
    · next e => cases h; exact check5_refused_keepsTime s e
    · exact ih _ h

theorem stageGroup_keepsTime {a : Staged} (g : List Item) (h : ∀ f ∈ a.no, f.KeepsTime) :
    ∀ f ∈ (stageGroup a g).no, f.KeepsTime := by
  unfold stageGroup
  split
  · exact h
  · next f e =>
    intro r hr
    obtain hr | hr := List.mem_append.mp hr
    · exact h r hr
    · obtain ⟨x, -, rfl⟩ := List.mem_map.mp hr
      split
      · exact checkGroup_refused_keepsTime _ e
      · intro s; rfl

theorem stageGroup_foldl_keepsTime (gs : List (List Item)) {a : Staged} (h : ∀ f ∈ a.no, f.KeepsTime) :
    ∀ f ∈ (gs.foldl stageGroup a).no, f.KeepsTime := by
  induction gs generalizing a with
  | nil => exact h
  | cons g gs ih => exact ih (stageGroup_keepsTime g h)

theorem stageAll_keepsTime (n : Nat) (gs : List (List Item)) : ∀ f ∈ (stageAll s n gs).no, f.KeepsTime := by
  induction n generalizing gs with
  | zero => exact stageGroup_foldl_keepsTime gs (by simp)
  | succ n ih =>
    have h := stageGroup_foldl_keepsTime gs (a := ⟨s.claimPrep gs.flatten, [], []⟩) (by simp)
    unfold stageAll
    dsimp only
    split
    · intro f hf
      exact (List.mem_append.mp hf).elim (h f) (ih _ f)
    · exact h

theorem stageGroups_keepsTime (gs : List (List Item)) : ∀ f ∈ (stageGroups s gs).no, f.KeepsTime := stageAll_keepsTime s _ gs

theorem foldl_refused_time {g : State → Refused → State} (l : List Refused) (hl : ∀ f ∈ l, f.KeepsTime)
    (hg : ∀ s f, (g s f).time = (f.note s).time) : (l.foldl g s).time = s.time := by
  induction l generalizing s with
  | nil => rfl
  | cons f l ih =>
    rw [List.foldl_cons, ih _ fun x hx => hl x (List.mem_cons_of_mem _ hx), hg]
    exact hl f List.mem_cons_self s

theorem refuseAll_time {l : List Refused} (h : ∀ f ∈ l, f.KeepsTime) : (s.refuseAll l).time = s.time := by
  rw [State.refuseAll, faderFullLog_time]
  exact foldl_refused_time s l h (by simp)

@[simp] theorem writeOut_time (o) : (s.writeOut o).time = s.time := by simp [State.writeOut]

theorem le_commitItem_dt (gs) {a : Commits} (x) (h : d ≤ a.st.time.dt) : d ≤ (commitItem gs a x).st.time.dt := by
  unfold commitItem
  dsimp only
  repeat' split
  all_goals simp [h, le_cmdSpec_eff_dt]

theorem le_foldl_commitItem_dt (gs) (xs : List Item) {a : Commits} (h : d ≤ a.st.time.dt) :
    d ≤ (xs.foldl (commitItem gs) a).st.time.dt := by
  induction xs generalizing a with
  | nil => exact h
  | cons x xs ih => exact ih (le_commitItem_dt gs x h)

@[simp] theorem le_applyItems_dt (l) (h : d ≤ s.time.dt) : d ≤ (s.applyItems l).time.dt := by
  simp [State.applyItems, le_foldl_commitItem_dt, h]

@[simp] theorem refate_time (gs) : (s.refate gs).1.time = s.time := by
  unfold State.refate
  refine List.foldlRecOn (motive := fun a : State × List (List Item) => a.1.time = s.time) gs _ rfl fun a ha g _ => ?_
  split
  · exact ha
  · split <;> simp [ha]

@[simp] theorem checkNow_time (gs) : (s.checkNow gs).1.time = s.time := by
  unfold State.checkNow
  split
  · rfl
  · exact refuseAll_time s (stageGroups_keepsTime s gs)

@[simp] theorem le_releaseFreed_dt (h : d ≤ s.time.dt) : d ≤ s.releaseFreed.time.dt := by
  unfold State.releaseFreed
  by_cases e : s.flt.freed.isEmpty = true
  · simp [e, h]
  · simp only [e, Bool.false_eq_true, if_false]
    exact le_applyItems_dt _ _ (by simp [h])

@[simp] theorem le_commitBoundary_dt (virt) (h : d ≤ s.time.dt) : d ≤ (s.commitBoundary virt).time.dt := by
  unfold State.commitBoundary
  split <;> simp [h]

@[simp] theorem execFirebreakCtrl_onward (h op) : Onward s.time.dt (execFirebreakCtrl h op s) := by simp [execFirebreakCtrl]

@[simp] theorem execTimedCommit_onward (ring tag) : Onward s.time.dt (execTimedCommit ring tag s) := by
  unfold execTimedCommit
  dsimp only
  repeat' split
  all_goals simp

/-! ### Pickup and staging -/

@[simp] theorem reserve_time (n k) : (s.reserve n k).time = s.time := by simp [State.reserve]

@[simp] theorem ringWait_time (n) : (s.ringWait n).time = s.time := by simp [State.ringWait]

@[simp] theorem slotBad_time (n idx) : (s.slotBad n idx).time = s.time := by simp [State.slotBad]

@[simp] theorem takeGroup_time (n l ended) : (s.takeGroup n l ended).time = s.time := by simp [State.takeGroup]

@[simp] theorem pickTake_time (a : Pick) (n l o) : (a.take n l o).1.st.time = a.st.time := by
  unfold Pick.take
  dsimp only
  repeat' split
  all_goals simp

@[simp] theorem pickRing_time (a : Pick) (n f l) : (a.ring n f l).st.time = a.st.time := by
  induction f generalizing a l with
  | zero => rfl
  | succ f ih =>
    unfold Pick.ring
    split
    · rfl
    · split
      · rfl
      · simp
      · dsimp only
        split <;> simp [ih]
      · dsimp only
        split <;> simp [ih, apply_ite Pick.st]

@[simp] theorem pickCmd_time (l) : (s.pickCmd l).time = s.time := by
  unfold State.pickCmd
  refine List.foldlRecOn (motive := fun a : Pick => a.st.time = s.time) _ _ rfl fun a ha n _ => ?_
  split <;> simp [ha]

@[simp] theorem dataTake_time (n d) : (s.dataTake n d).time = s.time := by
  unfold State.dataTake
  repeat' split
  all_goals simp

@[simp] theorem dataRing_time (n l) : (s.dataRing n l).time = s.time := by
  induction l generalizing s with
  | nil => rfl
  | cons d l ih => simp [State.dataRing, ih]

@[simp] theorem pickup_time (l) : (s.pickup l).time = s.time := by simp [State.pickup]

@[simp] theorem pendFull_time (l) : (s.pendFull l).time = s.time := by simp [State.pendFull]

@[simp] theorem fireVerdicts_time (sim next) : (s.fireVerdicts sim next).time = s.time := by
  unfold State.fireVerdicts
  rw [faderFullLog_time]
  exact foldl_refused_time s _ (stageGroups_keepsTime _ _) (by simp)

theorem enterGroup_keepsTime {a : Enter} (g : List Item) (h : ∀ f ∈ a.no, f.KeepsTime) :
    ∀ f ∈ (enterGroup a g).no, f.KeepsTime := by
  unfold enterGroup
  dsimp only
  repeat' split
  · exact h
  · exact h
  · intro f hf
    obtain hf | hf := List.mem_append.mp hf
    · exact h f hf
    · obtain ⟨x, -, rfl⟩ := List.mem_map.mp hf
      intro s; rfl

theorem enterGroup_foldl_keepsTime (gs : List (List Item)) {a : Enter} (h : ∀ f ∈ a.no, f.KeepsTime) :
    ∀ f ∈ (gs.foldl enterGroup a).no, f.KeepsTime := by
  induction gs generalizing a with
  | nil => exact h
  | cons g gs ih => exact ih (enterGroup_keepsTime g h)

theorem fireRefused_keepsTime (l : List (List Item)) : ∀ f ∈ l.flatMap fireRefused, f.KeepsTime := by
  intro f hf
  obtain ⟨g, -, hg⟩ := List.mem_flatMap.mp hf
  obtain ⟨x, -, rfl⟩ := List.mem_map.mp hg
  intro s; rfl

@[simp] theorem stageTick_time (all) : (s.stageTick all).time = s.time := by
  unfold State.stageTick
  simp only [ledger_time, time_ite, fireVerdicts_time, pendFull_time, ite_self]
  rw [refuseAll_time]
  intro f hf
  obtain hf | hf := List.mem_append.mp hf
  · obtain hf | hf := List.mem_append.mp hf
    · exact fireRefused_keepsTime _ f hf
    · exact enterGroup_foldl_keepsTime _ (by simp) f hf
  · exact stageGroups_keepsTime _ _ f hf

/-! ### Ticks and steps -/

@[simp] theorem ainPlace_time (x n) : (s.ainPlace x n).time = s.time := by simp [State.ainPlace]

@[simp] theorem pdmPlace_time (x n) : (s.pdmPlace x n).time = s.time := by simp [State.pdmPlace]

@[simp] theorem trailPlace_time (x) : (s.trailPlace x).time = s.time := by simp [State.trailPlace]

@[simp] theorem biasMon_time (l) : (s.biasMon l).time = s.time := by simp [State.biasMon]

@[simp] theorem placeInputs_time (x) : (s.placeInputs x).time = s.time := by simp [State.placeInputs]

@[simp] theorem ainRamps_time (n) : (s.ainRamps n).time = s.time := by simp [State.ainRamps]

@[simp] theorem pdmRamps_time (n) : (s.pdmRamps n).time = s.time := by simp [State.pdmRamps]

@[simp] theorem allRamps_time : s.allRamps.time = s.time := by simp [State.allRamps]

@[simp] theorem ainFirst_time : s.ainFirst.time = s.time := by simp [State.ainFirst]

@[simp] theorem outFirst_time : s.outFirst.time = s.time := by simp [State.outFirst]

@[simp] theorem firstTick_time : s.firstTick.time = s.time := by simp [State.firstTick]

@[simp] theorem setConv_time (k v) : (s.setConv k v).time = s.time := by simp only [State.setConv]

@[simp] theorem convTick_time : s.convTick.time = s.time := by simp [State.convTick]

@[simp] theorem convStep_time (dl) : (s.convStep dl).time = s.time := by simp [State.convStep]

@[simp] theorem countOutputs_time : s.countOutputs.time = s.time := by simp [State.countOutputs]

@[simp] theorem avClear_time : s.avClear.time = s.time := by simp [State.avClear]

@[simp] theorem timeouts_time : s.timeouts.time = s.time := by simp [State.timeouts]

@[simp] theorem execWaitTimeout_onward : Onward s.time.dt (execWaitTimeout s) := by simp [execWaitTimeout]

@[simp] theorem closeData_time (x) : (s.closeData x).time = s.time := by simp [State.closeData]

@[simp] theorem pendFullLog_time : s.pendFullLog.time = s.time := by simp [State.pendFullLog]

@[simp] theorem countCe_time (x) : (s.countCe x).time = s.time := by simp [State.countCe]

@[simp] theorem closePhases_time (x gap) : (s.closePhases x gap).time = s.time := by simp [State.closePhases]

@[simp] theorem closeTick_time (x) : (s.closeTick x).time = s.time := by simp [State.closeTick]

@[simp] theorem le_openTime_dt (dt) (h : d ≤ s.time.dt) : d ≤ (s.openTime dt).time.dt := by
  simp [State.openTime, h]

@[simp] theorem rateDone_time : s.rateDone.time = s.time := by
  unfold State.rateDone
  repeat' split
  all_goals simp

@[simp] theorem dueWrites_time : s.dueWrites.time = s.time := by simp [State.dueWrites]

@[simp] theorem openWrites_time : s.openWrites.time = s.time := by simp [State.openWrites]

@[simp] theorem resumeRamps_time : s.resumeRamps.time = s.time := by
  unfold State.resumeRamps
  dsimp only
  split <;> simp

@[simp] theorem le_openConfig_dt (virt) (h : d ≤ s.time.dt) : d ≤ (s.openConfig virt).time.dt := by
  simp [State.openConfig, h]

@[simp] theorem openArrivals_time (x) : (s.openArrivals x).time = s.time := by simp [State.openArrivals]

@[simp] theorem interErrors_time : s.interErrors.time = s.time := by simp [State.interErrors]

@[simp] theorem edgesUsed_time : s.edgesUsed.time = s.time := by simp only [State.edgesUsed]

@[simp] theorem computeTick_time (absent) : (s.computeTick absent).time = s.time := by simp [State.computeTick]

@[simp] theorem le_openTick_dt (x first virt) (h : d ≤ s.time.dt) : d ≤ (s.openTick x first virt).time.dt := by
  simp [State.openTick, h]

@[simp] theorem execTickBoundary_onward (x) : Onward s.time.dt (execTickBoundary x s) := by simp [execTickBoundary]

@[simp] theorem tapSteps_time (x) : (s.tapSteps x).time = s.time := by simp [State.tapSteps]

@[simp] theorem stepWork_time (x) : (s.stepWork x).time = s.time := by simp [State.stepWork]

@[simp] theorem execStepBoundary_onward (x) : Onward s.time.dt (execStepBoundary x s) := by simp [execStepBoundary]

/-! ### The step -/

/-- Every row of the table but the cold start answers a next state and does not set DT back. -/
theorem exec_onward (i : Instr) (h : ∀ k, i ≠ .coldStart k) : Onward s.time.dt (exec i s) := by
  cases i with
  | coldStart k => exact absurd rfl (h k)
  | _ => simp [exec]

theorem step_onward (h : ∀ k, s.pending.head? ≠ some (.coldStart k)) : Onward s.time.dt (step s) := by
  unfold step
  split
  · simp
  · next c rest e => exact exec_onward { s with pending := rest } c fun k hk => h k (by simp [e, hk])

/-- Settles O56: `step_onward`, each row's lemma for the command at the front. -/
theorem dtNeverDecreases : Obligations.DtNeverDecreases := fun s h => step_onward s h

end Sys2Proof.Machine
end

section
/-! The reset state (O59). -/
open Sys2Proof Sys2Proof.Safety
namespace Sys2Proof.Machine

/-- TOP_ID reads the stepping in every state (R1). -/
theorem readReg_topId (s : State) : s.readReg Reg.TOP_ID = 0x4B579320 := by simp [State.readReg, State.live]

/-- Settles O59: nothing waits and nothing is listed, the counts start at zero, and the lock's register holds its reset value. -/
theorem resetState : Obligations.ResetState := by
  refine ⟨?_, ?_, rfl, rfl, rfl, rfl, rfl, rfl, ?_, readReg_topId _, rfl⟩
  · intro c hc; cases hc
  · rfl
  · decide

end Sys2Proof.Machine
end

section
/-! What a write of a register's fields leaves, field by field, while no lock holds it back (R11, R12, Table SC-3): fields lie
apart within their word, so that each is as its own access type leaves it and every other bit stays. -/
open Sys2Proof Sys2Proof.Safety
namespace Sys2Proof.Machine

/-! ### One field -/

/-- The field lies within its word, and its clamp, if it has one, gives a value that it holds. -/
def FldDef.fits (f : FldDef) : Bool := decide (f.lo + f.w ≤ 32) && match f.rng with
  | .clamp lo hi => decide (lo ≤ hi) && decide (hi < 2 ^ f.w)
  | _ => true

/-- The field shares no bit with the w bits from lo. -/
abbrev FldDef.Apart (f : FldDef) (lo w : Nat) : Prop := f.lo + f.w ≤ lo ∨ lo + w ≤ f.lo

/-- What a write of v that no lock holds back stores in the field, `old` being the register's word before; none where the
field keeps its value (Table SC-3, R12). -/
def FldDef.next (f : FldDef) (old v : Word) : Option Nat := match f.acc with
  | .rw | .rwl => rangeNew f.rng (bitsOf v f.lo f.w)
  | .w1c => some (Nat.land (bitsOf old f.lo f.w) (Nat.xor (bitsOf v f.lo f.w) (2 ^ f.w - 1)))
  | .w1s => none

/-- Does the field refuse its value of v (R12)? -/
def FldDef.refuses (v : Word) (f : FldDef) : Bool := match f.acc with
  | .rw | .rwl => (rangeNew f.rng (bitsOf v f.lo f.w)).isNone
  | .w1c | .w1s => false

/-- The word `a` with the field as the write leaves it. -/
def FldDef.put (old v a : Word) (f : FldDef) : Word := ((f.next old v).map (withBits a f.lo f.w)).getD a

theorem FldDef.le_of_fits {f : FldDef} (h : f.fits = true) : f.lo + f.w ≤ 32 := by
  simp only [FldDef.fits, Bool.and_eq_true, decide_eq_true_eq] at h
  exact h.1

/-- The value that a field takes is one that it holds. -/
theorem rangeNew_lt {f : FldDef} (h : f.fits = true) {x n : Nat} (hx : x < 2 ^ f.w) (hn : rangeNew f.rng x = some n) :
    n < 2 ^ f.w := by
  obtain ⟨lo, w, acc, rng⟩ := f
  cases rng with
  | clamp lo hi =>
    simp only [FldDef.fits, Bool.and_eq_true, decide_eq_true_eq] at h
    simp only [rangeNew, clampN, Option.some.injEq] at hn
    dsimp only at hx ⊢
    split at hn
    · omega
    · split at hn <;> omega
  | any => simp_all [rangeNew]
  | max hi => simp_all [rangeNew]
  | range lo hi => simp_all [rangeNew]
  | source => simp_all [rangeNew]

variable {f : FldDef} {fs : List FldDef} {old v a : Word} {lo w : Nat}

theorem bitsOf_put_apart (hf : f.fits = true) (d : f.Apart lo w) : bitsOf (f.put old v a) lo w = bitsOf a lo w := by
  unfold FldDef.put
  cases f.next old v with
  | none => rfl
  | some n => exact bitsOf_withBits_ne a f.lo f.w n lo w (FldDef.le_of_fits hf) d

theorem bitsOf_put_self (hf : f.fits = true) :
    bitsOf (f.put old v a) f.lo f.w = ((f.next old v).map (· % 2 ^ f.w)).getD (bitsOf a f.lo f.w) := by
  unfold FldDef.put
  cases f.next old v with
  | none => rfl
  | some n => exact bitsOf_withBits a f.lo f.w n (FldDef.le_of_fits hf)

/-! ### All fields of a register -/

theorem bitsOf_foldl_put_apart (hf : ∀ f ∈ fs, f.fits = true) (d : ∀ f ∈ fs, f.Apart lo w) :
    bitsOf (fs.foldl (FldDef.put old v) a) lo w = bitsOf a lo w := by
  induction fs generalizing a with
  | nil => rfl
  | cons f fs ih =>
    rw [List.foldl_cons, ih (fun g hg => hf g (.tail _ hg)) fun g hg => d g (.tail _ hg)]
    exact bitsOf_put_apart (hf f (.head _)) (d f (.head _))

/-- Fields that share no bit: each is as its own write leaves it. -/
theorem bitsOf_foldl_put_mem (hf : ∀ f ∈ fs, f.fits = true) (d : fs.Pairwise fun f g => f.Apart g.lo g.w) {g : FldDef}
    (hg : g ∈ fs) :
    bitsOf (fs.foldl (FldDef.put old v) a) g.lo g.w = ((g.next old v).map (· % 2 ^ g.w)).getD (bitsOf a g.lo g.w) := by
  induction fs generalizing a with
  | nil => cases hg
  | cons f fs ih =>
    obtain ⟨df, d⟩ := List.pairwise_cons.mp d
    have hf' : ∀ f ∈ fs, f.fits = true := fun g hg => hf g (.tail _ hg)
    rw [List.foldl_cons]
    obtain rfl | hg := List.mem_cons.mp hg
    · rw [bitsOf_foldl_put_apart hf' fun f hf => (df f hf).symm, bitsOf_put_self (hf g (.head _))]
    · rw [ih hf' d hg, bitsOf_put_apart (hf f (.head _)) (df g hg)]

/-- A field's turn in a write that no lock holds back: the word so far, whether a field refused its value, whether the lock
was met. -/
def FldDef.turn (old v : Word) (a : Word × Bool × Bool) (f : FldDef) : Word × Bool × Bool :=
  (f.put old v a.1, a.2.1 || f.refuses v, a.2.2)

theorem foldl_turn (fs : List FldDef) (a : Word × Bool × Bool) :
    fs.foldl (FldDef.turn old v) a = (fs.foldl (FldDef.put old v) a.1, a.2.1 || fs.any (FldDef.refuses v), a.2.2) := by
  induction fs generalizing a with
  | nil => simp
  | cons f fs ih => simp [ih, FldDef.turn, Bool.or_assoc]

theorem fieldsNew_open : fieldsNew fs false old v = (fs.foldl (FldDef.put old v) old, fs.any (FldDef.refuses v), false) := by
  have turns : fieldsNew fs false old v = fs.foldl (FldDef.turn old v) (old, false, false) := by
    unfold fieldsNew
    congr 1
    funext a f
    cases e : f.acc <;> cases r : rangeNew f.rng (bitsOf v f.lo f.w) <;>
      simp [FldDef.turn, FldDef.put, FldDef.next, FldDef.refuses, e, r]
  rw [turns, foldl_turn, Bool.false_or]

/-! ### The register table -/

/-- The fields of a register lie within its word and share no bit. -/
def RegDef.fits (d : RegDef) : Bool := d.flds.all FldDef.fits && decide (d.flds.Pairwise fun f g => f.Apart g.lo g.w)

theorem blockRegs_fits (off : Nat) : (blockRegs off).all RegDef.fits = true := by
  unfold blockRegs
  split <;> decide +kernel

theorem fits_of_regDef? {off : Nat} {d : RegDef} (h : regDef? off = some d) :
    (∀ f ∈ d.flds, f.fits = true) ∧ d.flds.Pairwise fun f g => f.Apart g.lo g.w := by
  have := List.all_eq_true.mp (blockRegs_fits off) d (List.mem_of_find?_eq_some h)
  simpa [RegDef.fits] using this

/-- No counter of the event log has a field, and no field of HST_ERR refuses a value. -/
theorem not_refuses_of_counter {off : Nat} {d : RegDef} (h : regDef? off = some d) (ho : logReg off = true ∨ off = Reg.HST_ERR) :
    d.flds.any (FldDef.refuses v) = false := by
  obtain ho | rfl := ho
  · have hl : ∀ k < 33, ((regDef? (0x13020 + k)).all fun d => d.flds.isEmpty) = true := by decide +kernel
    simp only [logReg, Bool.and_eq_true, decide_eq_true_eq] at ho
    have := hl (off - 0x13020) (by omega)
    rw [show 0x13020 + (off - 0x13020) = off by omega, h] at this
    simp_all
  · have hl : ((regDef? Reg.HST_ERR).all fun d => d.flds.all fun f => f.acc == .w1c) = true := by decide +kernel
    rw [h] at hl
    simp only [Option.all_some, List.all_eq_true, beq_iff_eq] at hl
    rw [List.any_eq_false]
    intro f hf
    simp [FldDef.refuses, hl f hf]

end Sys2Proof.Machine
end

section
/-! A register without a rule of its own: a host write of it is its fields' write and nothing more. -/
open Sys2Proof Sys2Proof.Safety
namespace Sys2Proof.Machine

/-! ### A register without a rule of its own -/

/-- The registers that `ownRule` names one by one. -/
def ruledRegs : List Nat := [Reg.CLK_CTRL, Reg.TIME_SNAP, Reg.TOP_LOCK, Reg.THK_CTRL, Reg.THK_AP_STATUS, Reg.THK_METER_CFG,
  Reg.AOUT_JACK_CFG, Reg.PWR_CTRL, Reg.PWR_BUD_CTRL, Reg.MEM_CFG, Reg.MEM_SCRUB, Reg.NET_GPTP, Reg.NET_MDIO, Reg.HST_NUDGE,
  Reg.TWB_ALERT, Reg.TWB_ALERT_MASK, Reg.TWB_CTRL, Reg.BLZ_RELEASE, Reg.BLZ_WIN_SEQ, Reg.BLZ_CTRL, Reg.FLT_CTRL, Reg.FLT_FAULT,
  Reg.HWD_BOOT_CTRL, Reg.PIN_GPIO_SET, Reg.PIN_GPIO_CLR, Reg.PIN_SAPX_CFG, Reg.HST_DB_BASE_LO, Reg.HST_DB_BASE_HI,
  Reg.HST_CP_BASE_LO, Reg.HST_CP_BASE_HI]

/-- No rule of its own: the conditions that `regWrite` asks of an offset, one by one. -/
structure Plain (off : Nat) : Prop where
  run : runFixed off = false
  ring : ¬ (0x10400 ≤ off ∧ off < 0x10C00)
  gpio : ¬ (0x16000 ≤ off ∧ off < 0x16040)
  msix : ¬ (0x3E000 ≤ off ∧ off < 0x3F000)
  listed : off ∉ ruledRegs

theorem plain_of_ownRule {off : Nat} (h : ownRule off = false) : Plain off := by
  simp only [ownRule, Bool.or_eq_false_iff, Bool.and_eq_false_imp, decide_eq_true_eq, decide_eq_false_iff_not] at h
  obtain ⟨⟨⟨⟨hrun, hring⟩, hgpio⟩, hmsix⟩, hlist⟩ := h
  refine ⟨hrun, fun a => hring a.1 a.2, fun a => hgpio a.1 a.2, fun a => hmsix a.1 a.2, fun a => ?_⟩
  exact absurd (List.contains_iff_mem.mpr a) (Bool.eq_false_iff.mp hlist)

variable {s : State} {off : Nat} {d : RegDef}

theorem Plain.ne (h : Plain off) {r : Nat} (k : r ∈ ruledRegs) : off ≠ r := fun e => h.listed (e ▸ k)

theorem Plain.ne_lsnCtrl (h : Plain off) : off ≠ Reg.WAK_LSN_CTRL := by
  rintro rfl
  exact absurd h.run (by decide)

theorem regDone_plain (h : Plain off) (who : Writer) (old v : Word) : s.regDone who off old v = s := by
  have l := h.listed
  simp only [ruledRegs, List.mem_cons, List.not_mem_nil, or_false, not_or] at l
  simp only [State.regDone, l, h.ne_lsnCtrl, h.gpio, h.msix, if_false]

theorem ringFixed_plain (h : Plain off) : s.ringFixed off = false := by
  have := h.ring
  simp only [State.ringFixed, Bool.and_eq_false_iff, decide_eq_false_iff_not]
  omega

theorem pageFixed_plain (h : Plain off) : s.pageFixed off = false := by
  have l := h.listed
  simp only [ruledRegs, List.mem_cons, List.not_mem_nil, or_false, not_or] at l
  simp [State.pageFixed, l]

/-- The ranges of the input, PDM and lane configuration all stand in `runFixed`. -/
theorem Plain.not_config (h : Plain off) :
    ¬ (0x4040 ≤ off ∧ off < 0x4068) ∧ ¬ (0x40C0 ≤ off ∧ off < 0x40E0) ∧ ¬ (0x7200 ≤ off ∧ off < 0x7800) := by
  have := h.run
  simp only [runFixed, Bool.or_eq_false_iff, Bool.and_eq_false_imp, decide_eq_true_eq, decide_eq_false_iff_not] at this
  omega

theorem wholeBad_plain (h : Plain off) (v : Word) : wholeBad off v = false := by
  obtain ⟨hain, hpdm, -⟩ := h.not_config
  simp only [wholeBad, hain, hpdm, if_false]

/-- A host write to a register without a rule of its own, while nothing is locked, is its fields' access types alone. -/
theorem regWrite_plain (hl : s.locked = false) (hs : s.signedOnly = false) (hd : regDef? off = some d) (h : Plain off) :
    s.regWrite .host off v =
      ⟨if d.flds.foldl (FldDef.put (s.rd off) v) (s.rd off) = s.rd off then s
        else s.wr off (d.flds.foldl (FldDef.put (s.rd off) v) (s.rd off)), d.flds.any (FldDef.refuses v)⟩ := by
  have hc : s.rwlClosed .host = false := by simp [State.rwlClosed, hl, hs]
  have hw : s.w1cHold off = 0 := if_neg (h.ne (by decide))
  have hr : ¬ (0x10400 ≤ off ∧ off < 0x10C00 ∧ off % 32 = 8) := fun a => h.ring ⟨a.1, a.2.1⟩
  simp only [State.regWrite, hd, hc, fieldsNew_open, h.run, ringFixed_plain h, pageFixed_plain h, wholeBad_plain h, hl, hw,
    hr, h.gpio, h.not_config.2.2, h.ne (r := Reg.BLZ_CTRL) (by decide), h.ne (r := Reg.PIN_SAPX_CFG) (by decide),
    h.ne (r := Reg.CLK_CTRL) (by decide), Bool.and_false, Bool.false_and, Bool.or_false, Bool.false_eq_true, if_false,
    regDone_plain h]
  simp

end Sys2Proof.Machine
end

section
/-! What a bad write, a wake source and a bit of a word are, for the accesses of the host. -/
open Sys2Proof Sys2Proof.Safety
namespace Sys2Proof.Machine

variable {s : State} {off : Nat} {v : Word}

/-! ### A bad write -/

theorem mmioBad_regsBut (s : State) (off : Nat) : RegsBut [Reg.HST_ERR] s (s.mmioBad off) := fun o a b =>
  (RegsBut.log _ _ _ _ _ _ _ _ o a (List.not_mem_nil)).trans (hstErr_rd s _ fun e => b (by simp [e]))

theorem mmioBad_set (s : State) (off : Nat) : (s.mmioBad off).fld Fl.HST_ERR.MMIO_BAD = 1 := by
  have hr : (s.mmioBad off).rd Reg.HST_ERR = (s.hstErr Fl.HST_ERR.MMIO_BAD).rd Reg.HST_ERR := log_rd _ _ _ _ _ _ _ (by decide)
  have hf : (s.mmioBad off).fld Fl.HST_ERR.MMIO_BAD = (s.hstErr Fl.HST_ERR.MMIO_BAD).fld Fl.HST_ERR.MMIO_BAD :=
    congrArg (bitsOf · _ _) hr
  rw [hf]
  unfold State.hstErr
  split
  · next h => exact eq_of_beq h
  · exact State.fld_setFld_self s _ 1 (by decide)

theorem mmioBad_blz (s : State) (off : Nat) : (s.mmioBad off).blz = (s.log Src.HST 0xA008 3 (wN off) 0 0).blz := by
  unfold State.mmioBad State.log
  rw [show (s.hstErr Fl.HST_ERR.MMIO_BAD).time.dt = s.time.dt by simp]
  exact logAt_blz_congr (by simp) (by simp) (by simp) ..

theorem mmioBad_shape (s : State) (off : Nat) :
    s.mmioBad off = { s with host := (s.mmioBad off).host, blz := (s.mmioBad off).blz, regs := (s.mmioBad off).regs } := by
  apply State.ext <;> simp

/-- A wake source latches its bit and acts on the power state alone. -/
theorem wakeFire_only (s : State) (bit num : Nat) (dt : DT) :
    RegsBut [Reg.WAK_LATCH] s (s.wakeFire bit num dt) ∧ { s.wakeFire bit num dt with pwr := s.pwr, regs := s.regs } = s := by
  have latch (v : Word) : RegsBut [Reg.WAK_LATCH] s (s.wr Reg.WAK_LATCH v) := RegsBut.wr s v (.head _)
  unfold State.wakeFire
  cases s.pwr.sleep with
  | none => exact ⟨RegsBut.refl _ s, rfl⟩
  | some z =>
    dsimp only
    split
    · exact ⟨RegsBut.refl _ s, rfl⟩
    · split
      · exact ⟨latch _, rfl⟩
      · split <;> exact ⟨latch _, rfl⟩

/-! ### One bit of a word -/

theorem bitN_eq_testBit (n i : Nat) : bitN n i = n.testBit i := by
  rw [Nat.testBit_eq_decide_div_mod_eq]
  rfl

theorem bitN_eq_bitsOf (x : Word) (i : Nat) : bitN x.toNat i = (bitsOf x i 1 == 1) := rfl

theorem bitN_add (x : Word) (lo : Nat) {w i : Nat} (h : i < w) : bitN x.toNat (lo + i) = (bitsOf x lo w).testBit i := by
  rw [bitN_eq_testBit, bitsOf_testBit, decide_eq_true h, Bool.true_and]

/-- A bit that a W1C field keeps is one that is set and not written as 1. -/
theorem testBit_w1c (old v : Word) (lo : Nat) {w i : Nat} (h : i < w) :
    (Nat.land (bitsOf old lo w) (Nat.xor (bitsOf v lo w) (2 ^ w - 1)) % 2 ^ w).testBit i
      = ((bitsOf old lo w).testBit i && !(bitsOf v lo w).testBit i) := by
  rw [Nat.testBit_mod_two_pow, decide_eq_true h, Bool.true_and]
  refine (Nat.testBit_and ..).trans (congrArg _ ?_)
  refine (Nat.testBit_xor ..).trans ?_
  rw [Nat.testBit_two_pow_sub_one, decide_eq_true h, Bool.xor_true]

end Sys2Proof.Machine
end

section
/-! A host access of a register (O37). -/
open Sys2Proof Sys2Proof.Safety
namespace Sys2Proof.Machine

variable {s : State} {off : Nat} {v : Word} {d : RegDef} {f : FldDef}

/-! ### The write as the host makes it -/

/-- The register with each of its fields put. -/
def State.putFields (s : State) (off : Nat) (d : RegDef) (v : Word) : State :=
  let new := d.flds.foldl (FldDef.put (s.rd off) v) (s.rd off)
  if new = s.rd off then s else s.wr off new

theorem putFields_rd (s : State) (off : Nat) (d : RegDef) (v : Word) :
    (s.putFields off d v).rd off = d.flds.foldl (FldDef.put (s.rd off) v) (s.rd off) := by
  unfold State.putFields
  dsimp only
  split
  · next h => exact h.symm
  · exact s.rd_wr_self off _

theorem putFields_only (s : State) (off : Nat) (d : RegDef) (v : Word) :
    RegsBut [off] s (s.putFields off d v) ∧ { s.putFields off d v with regs := s.regs } = s := by
  unfold State.putFields
  dsimp only
  split
  · exact ⟨RegsBut.refl _ s, rfl⟩
  · exact ⟨RegsBut.wr s _ (.head _), rfl⟩

/-- What a host write leaves, at a register without a rule of its own while nothing is locked. -/
def State.plainWrite (s : State) (off : Nat) (d : RegDef) (v : Word) : State :=
  if d.flds.any (FldDef.refuses v) then (s.putFields off d v).mmioBad off else s.putFields off d v

theorem execRegisterWrite_plain (ho : Open s) (h4 : off % 4 = 0) (hd : regDef? off = some d) (h : Plain off) :
    exec (.registerWrite off v true) s = .next (s.plainWrite off d v) := by
  obtain ⟨hb, hl, hs⟩ := ho
  change execRegisterWrite off v true s = _
  simp only [execRegisterWrite, h4, State.hostWrite, hb, regWrite_plain hl hs hd h]
  rfl

/-- MMIO_BAD and its record leave the register written as its fields left it. -/
theorem plainWrite_rd (s : State) (v : Word) (hd : regDef? off = some d) :
    (s.plainWrite off d v).rd off = d.flds.foldl (FldDef.put (s.rd off) v) (s.rd off) := by
  rw [← putFields_rd]
  unfold State.plainWrite
  split
  · next hbad =>
    have clear : ¬ (logReg off = true ∨ off = Reg.HST_ERR) := fun c => by
      rw [not_refuses_of_counter hd c] at hbad; cases hbad
    rw [not_or, Bool.not_eq_true] at clear
    exact mmioBad_regsBut _ off off clear.1 fun m => clear.2 (List.mem_singleton.mp m)
  · rfl

theorem plainWrite_only (s : State) (off : Nat) (d : RegDef) (v : Word) :
    RegsBut [off, Reg.HST_ERR] s (s.plainWrite off d v) ∧
      { s.plainWrite off d v with host := s.host, blz := s.blz, regs := s.regs } = s := by
  obtain ⟨hr, hs⟩ := putFields_only s off d v
  have hr : RegsBut [off, Reg.HST_ERR] s (s.putFields off d v) := hr.mono (by simp)
  have hs : { s.putFields off d v with host := s.host, blz := s.blz, regs := s.regs } = s :=
    congrArg (fun t : State => { t with host := s.host, blz := s.blz }) hs
  unfold State.plainWrite
  split
  · rw [mmioBad_shape]
    exact ⟨hr.trans ((mmioBad_regsBut _ off).mono (by simp)), hs⟩
  · exact ⟨hr, hs⟩

theorem refuses_iff : f.refuses v = true ↔ (f.acc = .rw ∨ f.acc = .rwl) ∧ rangeNew f.rng (bitsOf v f.lo f.w) = none := by
  cases e : f.acc <;> simp [FldDef.refuses, e]

theorem plainWrite_bad (s : State) (off : Nat) (h : d.flds.any (FldDef.refuses v) = true) :
    (s.plainWrite off d v).fld Fl.HST_ERR.MMIO_BAD = 1 := by
  rw [State.plainWrite, if_pos h]
  exact mmioBad_set _ off

theorem plainWrite_good (s : State) (off : Nat) (h : d.flds.any (FldDef.refuses v) = false) :
    { s.plainWrite off d v with regs := s.regs } = s := by
  rw [State.plainWrite, if_neg (Bool.eq_false_iff.mp h)]
  exact (putFields_only s off d v).2

/-- Each field of the register after the write. -/
theorem plainWrite_field (s : State) (v : Word) (hd : regDef? off = some d) (hf : f ∈ d.flds) :
    bitsOf ((s.plainWrite off d v).rd off) f.lo f.w
      = ((f.next (s.rd off) v).map (· % 2 ^ f.w)).getD (bitsOf (s.rd off) f.lo f.w) := by
  obtain ⟨fits, apart⟩ := fits_of_regDef? hd
  rw [plainWrite_rd s v hd, bitsOf_foldl_put_mem fits apart hf]

/-- An RW or RWL field takes the value written, clamped where its range says so, unless its range refuses it. -/
theorem plainWrite_rw (s : State) (v : Word) (hd : regDef? off = some d) (hf : f ∈ d.flds) (ha : f.acc = .rw ∨ f.acc = .rwl) :
    bitsOf ((s.plainWrite off d v).rd off) f.lo f.w
      = (rangeNew f.rng (bitsOf v f.lo f.w)).getD (bitsOf (s.rd off) f.lo f.w) := by
  have hn : f.next (s.rd off) v = rangeNew f.rng (bitsOf v f.lo f.w) := by
    obtain e | e := ha <;> simp [FldDef.next, e]
  rw [plainWrite_field s v hd hf, hn]
  cases e : rangeNew f.rng (bitsOf v f.lo f.w) with
  | none => rfl
  | some n => exact Nat.mod_eq_of_lt (rangeNew_lt ((fits_of_regDef? hd).1 f hf) (bitsOf_lt _ _ _) e)

theorem plainWrite_w1c (s : State) (v : Word) (hd : regDef? off = some d) (hf : f ∈ d.flds) (ha : f.acc = .w1c) {i : Nat}
    (hi : i < f.w) :
    bitN ((s.plainWrite off d v).rd off).toNat (f.lo + i) = (bitN (s.rd off).toNat (f.lo + i) && !bitN v.toNat (f.lo + i)) := by
  simp only [bitN_add _ f.lo hi, plainWrite_field s v hd hf, FldDef.next, ha, Option.map_some, Option.getD_some]
  exact testBit_w1c _ v f.lo hi

theorem plainWrite_w1s (s : State) (v : Word) (hd : regDef? off = some d) (hf : f ∈ d.flds) (ha : f.acc = .w1s) :
    bitsOf ((s.plainWrite off d v).rd off) f.lo f.w = bitsOf (s.rd off) f.lo f.w := by
  rw [plainWrite_field s v hd hf, FldDef.next, ha]
  rfl

/-- A bit outside every field keeps its value (R11). -/
theorem plainWrite_reserved (s : State) (v : Word) (hd : regDef? off = some d) {i : Nat}
    (hi : ∀ f ∈ d.flds, i < f.lo ∨ f.lo + f.w ≤ i) :
    bitN ((s.plainWrite off d v).rd off).toNat i = bitN (s.rd off).toNat i := by
  rw [bitN_eq_bitsOf, bitN_eq_bitsOf, plainWrite_rd s v hd,
    bitsOf_foldl_put_apart (fits_of_regDef? hd).1 fun f hf => (hi f hf).symm]

/-! ### The other accesses -/

theorem execRegisterWrite_reserved (hb : s.barGate = 1) (h4 : off % 4 = 0) (hd : regDef? off = none) :
    exec (.registerWrite off v true) s = .next s := by
  change execRegisterWrite off v true s = _
  simp [execRegisterWrite, h4, State.hostWrite, hb, State.regWrite, hd]

theorem execRegisterWrite_unaligned (hb : s.barGate = 1) : exec (.registerWrite off v false) s = .next (s.mmioBad off) := by
  change execRegisterWrite off v false s = _
  simp [execRegisterWrite, hb]

/-- In Glade every access of the host is a wake source, HST_NUDGE's too (R388). -/
theorem execRegisterWrite_glade (hg : s.pwr.state = .glade) (off : Nat) (v : Word) (a : Bool) :
    exec (.registerWrite off v a) s = .next (s.wakeFire 2 0 s.time.dt) := by
  have hb : s.barGate = 2 := if_pos hg
  have hn : s.nudge s.time.dt = s.wakeFire 2 0 s.time.dt := by simp only [State.nudge, hg]
  change execRegisterWrite off v a s = _
  simp [execRegisterWrite, State.hostWrite, hb, hn]

/-- Settles O37: off the registers with a rule of their own a host write puts each field in turn, fields share no bit, and a
refused value brings MMIO_BAD, whose own register refuses nothing. -/
theorem registerFieldAccess : Obligations.RegisterFieldAccess := by
  refine ⟨?_, fun s off v => execRegisterWrite_reserved, ?_, ?_⟩
  · intro s off v d ho h4 hd hr
    obtain ⟨regs, frame⟩ := plainWrite_only s off d v
    refine ⟨_, execRegisterWrite_plain ho h4 hd (plain_of_ownRule hr), ?_, fun f hf ha i hi => plainWrite_w1c s v hd hf ha hi,
      fun f hf ha => plainWrite_w1s s v hd hf ha, fun i _ hi => plainWrite_reserved s v hd hi, ?_, ?_, regs, frame⟩
    · intro f hf ha
      rw [plainWrite_rw s v hd hf ha]
      cases rangeNew f.rng (bitsOf v f.lo f.w) <;> rfl
    · rintro ⟨f, hf, hbad⟩
      exact plainWrite_bad s off (List.any_eq_true.mpr ⟨f, hf, refuses_iff.mpr hbad⟩)
    · intro hgood
      refine plainWrite_good s off (List.any_eq_false.mpr fun f hf hbad => ?_)
      obtain ⟨ha, hnone⟩ := refuses_iff.mp hbad
      exact hgood f hf ha hnone
  · intro s off v hb
    refine ⟨_, execRegisterWrite_unaligned hb, mmioBad_set s off, mmioBad_blz s off, mmioBad_regsBut s off, ?_⟩
    rw [mmioBad_shape]
  · intro s off v a hg
    exact ⟨_, execRegisterWrite_glade hg off v a, wakeFire_only s 2 0 s.time.dt⟩

end Sys2Proof.Machine
end

section
/-! The front of the queue (O55). -/
open Sys2Proof Sys2Proof.Safety
namespace Sys2Proof.Machine

theorem step_of_cons {s : State} {c : Instr} {l : List Instr} (h : s.pending = c :: l) :
    step s = exec c { s with pending := l } := by
  unfold step
  rw [h]

theorem step_of_nil {s : State} (h : s.pending = []) : step s = .next s := by
  unfold step
  rw [h]

/-- Settles O55: the two cases of `step`. -/
theorem stepTakesFront : Obligations.StepTakesFront := ⟨fun _ _ _ => step_of_cons, fun _ => step_of_nil⟩

end Sys2Proof.Machine
end

section
/-! The tick boundary while the Canopy keeper carries DT (O6). There DT shows whole keeper periods only (R47), so that the
boundary's DT is what DT shows of `boundaryDt`, not `boundaryDt` itself. The clause asks of a state only that a real boundary
can come, and so has states in its range in which the keeper has not yet given DT back. -/
open Sys2Proof Sys2Proof.Safety
namespace Sys2Proof.Machine

/-- The house clock runs before its first tick, and the keeper still carries a DT that was handed over at zero. -/
def keeperRuns : State := { State.reset with time := { TimeSt.reset with running := true, keeper := true } }

/-- A boundary that the plant captures at 1 ns. -/
def firstNs : TickIn :=
  { dt := 1, samples := [], fetched := [], playback := [], wclk := [], aclip := [], bias := [], hung := false, starved := [], ce := (0, 0) }

/-- No keeper period has passed at 1 ns: the boundary is at DT 0. -/
theorem keeperRuns_tickBoundary_bdt : nextGet (exec (.tickBoundary firstNs) keeperRuns) (·.time.bdt) = some 0 := by
  decide +kernel

theorem keeperRuns_boundaryDt : maxDt keeperRuns.time.dt (keeperRuns.boundaryDt firstNs.dt) = 1 := by decide

/-- Refutes O6: its first clause gives the boundary the DT that the tick period gives, 1 ns in `keeperRuns`; while the keeper
carries DT the model's boundary is at what DT shows, 0. -/
theorem not_tickEventsComplete : ¬ Obligations.TickEventsComplete := by
  rintro ⟨htick, -⟩
  obtain ⟨t, hnext, -, hbdt, -⟩ := htick keeperRuns firstNs rfl
  have hzero : t.time.bdt = 0 := by
    have := keeperRuns_tickBoundary_bdt
    rw [hnext] at this
    exact Option.some.inj this
  rw [hzero, keeperRuns_boundaryDt] at hbdt
  exact absurd hbdt (by decide)

end Sys2Proof.Machine
end

section
/-! Register pairs under a frame of registers. -/
namespace Sys2Proof.Safety
open Sys2Proof.Machine

theorem RegsBut.wr64 {own : List Nat} (s : State) {lo hi : Nat} (v : BitVec 64) (hlo : lo ∈ own) (hhi : hi ∈ own) :
    RegsBut own s (s.wr64 lo hi v) := (RegsBut.wr s _ hlo).trans (RegsBut.wr _ _ hhi)

theorem RegsBut.rd64_eq {own : List Nat} {s t : State} (h : RegsBut own s t) {lo hi : Nat}
    (hlo : logReg lo = false ∧ lo ∉ own) (hhi : logReg hi = false ∧ hi ∉ own) : t.rd64 lo hi = s.rd64 lo hi := by
  unfold State.rd64
  rw [h lo hlo.1 hlo.2, h hi hhi.1 hhi.2]

theorem rd64_wr64 (s : State) {lo hi : Nat} (h : lo ≠ hi) (v : BitVec 64) : (s.wr64 lo hi v).rd64 lo hi = v := by
  unfold State.rd64 State.wr64
  rw [State.rd_wr_self, State.rd_wr_ne _ h, State.rd_wr_self]
  exact (BitVec.extractLsb'_append_extractLsb'_eq_extractLsb' rfl).trans BitVec.extractLsb'_eq_self

end Sys2Proof.Safety
end

section
/-! PERF_LEVEL and boundary P of a raise (R384, R385). -/
open Sys2Proof Sys2Proof.Safety
namespace Sys2Proof.Machine

variable {s : State} {h : Hdr} {level : Nat}

theorem perfLevelEffect_shape (level : Nat) (s : State) :
    (perfLevelEffect level s).st = { s with
      pwr := (perfLevelEffect level s).st.pwr, blz := (perfLevelEffect level s).st.blz,
      regs := (perfLevelEffect level s).st.regs } := by
  unfold perfLevelEffect
  dsimp only
  split
  · rfl
  · split <;> apply State.ext <;> simp

theorem perfLevelEffect_regsBut (own : List Nat) (level : Nat) (s : State) : RegsBut own s (perfLevelEffect level s).st := by
  unfold perfLevelEffect
  dsimp only
  split
  · exact RegsBut.refl _ s
  · split <;> exact fun _ ho _ => log_rd _ _ _ _ _ _ _ (logReg_off ho)

/-- The level moves at once when it falls, and is under way when it rises (R384, R385). -/
theorem perfLevelEffect_pwr (level : Nat) (s : State) :
    (perfLevelEffect level s).st.pwr =
      if level = s.pwr.level then s.pwr
      else if s.pwr.level < level then { s.pwr with level := level, target := level, settle := true }
      else { s.pwr with target := level, raiseAt := some (s.time.ts + BitVec.ofNat 32 (raiseTk s.clk.rate)), settle := true } := by
  unfold perfLevelEffect
  dsimp only
  split
  · rfl
  · split <;> simp

theorem exec_perfLevel_ready (r : Ready s h) (hv : perfLevelValid level = true) (hk : perfLevelRefusal s level = .ok) :
    exec (.perfLevel h level) s = .next (State.finish h 0x0201 false (perfLevelEffect level s)) := by
  refine congrArg _ (runCmd_ready r _ _ _ _ hv rfl hk ?_)
  rw [perfLevelEffect_shape]
  exact admit_same rfl rfl rfl rfl rfl rfl rfl rfl

theorem levelSwitch_at {p : TS} (hp : s.pwr.raiseAt = some p) :
    s.levelSwitch = if 0 ≤ tsDiff s.time.ts p then { s with pwr := { s.pwr with level := s.pwr.target, raiseAt := none } } else s := by
  unfold State.levelSwitch
  rw [hp]

theorem finish_perfLevel_pwr (h : Hdr) (level : Nat) (s : State) :
    (State.finish h 0x0201 false (perfLevelEffect level s)).pwr = (perfLevelEffect level s).st.pwr := by simp

end Sys2Proof.Machine
end

section
/-! SLEEP: the choice of a state and the start of the vote (R29, R389, R390, R392, R393). -/
open Sys2Proof Sys2Proof.Safety
namespace Sys2Proof.Machine

variable {s : State} {h : Hdr} {p : SleepP} {maxState : Nat} {te : DT} {next : Option DT} {c : Nat}

/-! ### The choice -/

/-- The state may be chosen: it is eligible, it fits, and no running ramp bars it (R29, R389, R390). -/
def State.choosable (s : State) (maxState : Nat) (te : DT) (next : Option DT) (c : Nat) : Bool :=
  s.stateEligible c maxState && s.stateFits c te next
    && !s.rampBars c te s.time.ts s.time.bdt (s.convRamps true ++ s.engineRamps)

theorem choosable_iff : s.choosable maxState te next c = true ↔
    s.stateEligible c maxState = true ∧ s.stateFits c te next = true
      ∧ s.rampBars c te s.time.ts s.time.bdt (s.convRamps true ++ s.engineRamps) = false := by
  simp [State.choosable, and_assoc]

theorem chooseState_none (hno : ∀ c, 1 ≤ c → c ≤ 4 → s.choosable maxState te next c = false) :
    s.chooseState maxState te next = 0 := by
  change ([4, 3, 2, 1].find? (s.choosable maxState te next)).getD 0 = 0
  rw [List.find?_eq_none.mpr]
  · rfl
  · intro c hc
    simp only [List.mem_cons, List.not_mem_nil, or_false] at hc
    simp [hno c (by omega) (by omega)]

theorem chooseState_deepest (h1 : 1 ≤ c) (h4 : c ≤ 4) (hc : s.choosable maxState te next c = true)
    (hd : ∀ d, c < d → d ≤ 4 → s.choosable maxState te next d = false) : s.chooseState maxState te next = c := by
  change ([4, 3, 2, 1].find? (s.choosable maxState te next)).getD 0 = c
  have deeper {d : Nat} (hcd : c < d) (hd4 : d ≤ 4) : ¬ s.choosable maxState te next d = true :=
    Bool.eq_false_iff.mp (hd d hcd hd4)
  obtain rfl | rfl | rfl | rfl : c = 4 ∨ c = 3 ∨ c = 2 ∨ c = 1 := by omega
  · rw [List.find?_cons_of_pos hc]
    rfl
  · rw [List.find?_cons_of_neg (deeper (by decide) (by decide)), List.find?_cons_of_pos hc]
    rfl
  · rw [List.find?_cons_of_neg (deeper (by decide) (by decide)), List.find?_cons_of_neg (deeper (by decide) (by decide)),
      List.find?_cons_of_pos hc]
    rfl
  · rw [List.find?_cons_of_neg (deeper (by decide) (by decide)), List.find?_cons_of_neg (deeper (by decide) (by decide)),
      List.find?_cons_of_neg (deeper (by decide) (by decide)), List.find?_cons_of_pos hc]
    rfl

/-! ### The listening path -/

theorem lsnSleep_shape (s : State) :
    s.lsnSleep = { s with lsn := s.lsnSleep.lsn, blz := s.lsnSleep.blz, regs := s.lsnSleep.regs } := by
  unfold State.lsnSleep
  split
  · split
    · unfold State.lsnStart State.lsnReset
      apply State.ext <;> simp
    · rfl
  · rfl

theorem RegsBut.lsnSleep (own : List Nat) (s : State) : RegsBut own s s.lsnSleep := by
  unfold State.lsnSleep
  split
  · split
    · exact fun _ ho _ => log_rd _ _ _ _ _ _ _ (logReg_off ho)
    · exact RegsBut.refl _ s
  · exact RegsBut.refl _ s

/-! ### The effect -/

/-- The next known event as a SLEEP that commits now takes it (R389, R391). -/
abbrev State.sleepNext (s : State) (p : SleepP) : Option DT :=
  (s.nextKnown s.time.ts s.time.bdt (if p.hasUntil then some p.untilDt else none)).1

/-- The state that a SLEEP which commits now chooses; 0 for none. -/
abbrev State.sleepChoice (s : State) (p : SleepP) : Nat :=
  s.chooseState p.maxState (s.entryDt s.time.ts s.time.bdt 0) (s.sleepNext p)

/-- The state once the next known event is shown (R389). -/
abbrev State.nextShown (s : State) (p : SleepP) : State :=
  s.wr64 Reg.PWR_NEXT_LO Reg.PWR_NEXT_HI ((s.sleepNext p).getD (BitVec.ofNat 64 (2 ^ 64 - 1)))

/-- The state once a SLEEP with a deep choice has written its result early (R393). -/
def State.sleepSaid (s : State) (h : Hdr) (p : SleepP) : State :=
  if decide (3 ≤ s.sleepChoice p) then
    (s.nextShown p).complete h 0x0202 .ok s.time.ts s.time.bdt (sleepR0 (s.sleepChoice p) 0xFF 0) (sleepR1 0xFF 0) 0 true
  else s.nextShown p

/-- The sleep that a SLEEP begins which commits now: the host rings vote first (R392, R413). -/
def State.sleepBegun (s : State) (h : Hdr) (p : SleepP) : SleepSt := {
  hdr := h, t := s.time.ts, tdt := s.time.bdt, chosen := s.sleepChoice p, untilDt := if p.hasUntil then some p.untilDt else none,
  hold := 0, holding := decide (3 ≤ s.sleepChoice p), turn := 1, convOn := false, early := decide (3 ≤ s.sleepChoice p),
  next := s.sleepNext p,
  nextSrc := (s.nextKnown s.time.ts s.time.bdt (if p.hasUntil then some p.untilDt else none)).2,
  arm := (s.nextShown p).rd Reg.WAK_ARM, armSap := (s.nextShown p).rd Reg.WAK_SAP, armGpio := (s.nextShown p).rd Reg.WAK_GPIO,
  entry := s.time.bdt, ready := false, inNs := 0, back := none }

/-- The state in which the vote has begun. -/
def State.sleepEntering (s : State) (h : Hdr) (p : SleepP) : State := { s.sleepSaid h p with
  pwr := { (s.sleepSaid h p).pwr with state := .entering, sleep := some (s.sleepBegun h p), wake := none, lost := 0 } }

theorem sleepEffect_stays (hc : s.sleepChoice p = 0) : (sleepEffect h p s).st = s.nextShown p := congrArg Done.st (if_pos hc)

theorem sleepEffect_starts (hc : s.sleepChoice p ≠ 0) : (sleepEffect h p s).st = (s.sleepEntering h p).lsnSleep :=
  congrArg Done.st (if_neg hc)

theorem sleepSaid_shape (s : State) (h : Hdr) (p : SleepP) :
    s.sleepSaid h p = { s with host := (s.sleepSaid h p).host, blz := (s.sleepSaid h p).blz, regs := (s.sleepSaid h p).regs } := by
  unfold State.sleepSaid
  split
  · exact complete_shape ..
  · rfl

theorem sleepSaid_regsBut (s : State) (h : Hdr) (p : SleepP) : RegsBut wbRegs (s.nextShown p) (s.sleepSaid h p) := by
  unfold State.sleepSaid
  split
  · exact RegsBut.complete _ _ _ _ _ _ _ _ _ _
  · exact RegsBut.refl _ _

theorem nextShown_regsBut (s : State) (p : SleepP) : RegsBut [Reg.PWR_NEXT_LO, Reg.PWR_NEXT_HI] s (s.nextShown p) :=
  RegsBut.wr64 s _ (.head _) (.tail _ (.head _))

theorem sleepEffect_shape (s : State) (h : Hdr) (p : SleepP) :
    (sleepEffect h p s).st = { s with
      pwr := (sleepEffect h p s).st.pwr, lsn := (sleepEffect h p s).st.lsn, host := (sleepEffect h p s).st.host,
      blz := (sleepEffect h p s).st.blz, regs := (sleepEffect h p s).st.regs } := by
  by_cases hc : s.sleepChoice p = 0
  · rw [sleepEffect_stays hc]
    rfl
  · rw [sleepEffect_starts hc, lsnSleep_shape, State.sleepEntering, sleepSaid_shape]

theorem sleepEffect_regsBut (s : State) (h : Hdr) (p : SleepP) : RegsBut wbRegs (s.nextShown p) (sleepEffect h p s).st := by
  by_cases hc : s.sleepChoice p = 0
  · rw [sleepEffect_stays hc]
    exact RegsBut.refl _ _
  · rw [sleepEffect_starts hc]
    exact ((sleepSaid_regsBut s h p).trans (t := s.sleepEntering h p) (RegsBut.of_regs rfl)).trans (RegsBut.lsnSleep _ _)

theorem sleepEffect_pwr_starts (hc : s.sleepChoice p ≠ 0) :
    (sleepEffect h p s).st.pwr = { s.pwr with state := .entering, sleep := some (s.sleepBegun h p), wake := none, lost := 0 } := by
  rw [sleepEffect_starts hc, lsnSleep_shape, State.sleepEntering, sleepSaid_shape]

/-! ### The command -/

/-- The state that a SLEEP which commits now leaves. -/
abbrev State.slept (s : State) (h : Hdr) (p : SleepP) : State := State.finish h 0x0202 false (sleepEffect h p s)

theorem exec_sleep_ready (r : Ready s h) (hv : sleepValid s p = true) (hk : sleepRefusal s = .ok) :
    exec (.sleep h p) s = .next (s.slept h p) := by
  refine congrArg _ (runCmd_ready r _ _ _ _ hv rfl hk ?_)
  rw [sleepEffect_shape]
  exact admit_same rfl rfl rfl rfl rfl rfl rfl rfl

theorem slept_stays (hc : s.sleepChoice p = 0) : (s.slept h p).pwr = s.pwr ∧ (s.slept h p).lsn = s.lsn := by
  rw [State.slept, finish_shape, sleepEffect_stays hc]
  exact ⟨rfl, rfl⟩

theorem slept_pwr (hc : s.sleepChoice p ≠ 0) :
    (s.slept h p).pwr = { s.pwr with state := .entering, sleep := some (s.sleepBegun h p), wake := none, lost := 0 } := by
  rw [State.slept, finish_shape, ← sleepEffect_pwr_starts hc]

theorem slept_regsBut_shown (s : State) (h : Hdr) (p : SleepP) : RegsBut wbRegs (s.nextShown p) (s.slept h p) :=
  (sleepEffect_regsBut s h p).trans (RegsBut.finish _ _ _ _)

theorem slept_next (s : State) (h : Hdr) (p : SleepP) :
    (s.slept h p).rd64 Reg.PWR_NEXT_LO Reg.PWR_NEXT_HI = (s.sleepNext p).getD (BitVec.ofNat 64 (2 ^ 64 - 1)) := by
  rw [(slept_regsBut_shown s h p).rd64_eq (by decide) (by decide), rd64_wr64 s (by decide)]

theorem slept_regsBut (s : State) (h : Hdr) (p : SleepP) :
    RegsBut (Reg.PWR_NEXT_LO :: Reg.PWR_NEXT_HI :: wbRegs) s (s.slept h p) :=
  ((nextShown_regsBut s p).mono (by simp)).trans ((slept_regsBut_shown s h p).mono fun _ ho => .tail _ (.tail _ ho))

theorem slept_only (s : State) (h : Hdr) (p : SleepP) :
    { s.slept h p with pwr := s.pwr, lsn := s.lsn, host := s.host, blz := s.blz, regs := s.regs } = s := by
  rw [State.slept, finish_shape, sleepEffect_shape]

/-- What is armed at the commit is what the wake sources are judged by (R413). -/
theorem sleepBegun_armed (s : State) (h : Hdr) (p : SleepP) :
    (s.sleepBegun h p).arm = s.rd Reg.WAK_ARM ∧ (s.sleepBegun h p).armSap = s.rd Reg.WAK_SAP
      ∧ (s.sleepBegun h p).armGpio = s.rd Reg.WAK_GPIO :=
  ⟨nextShown_regsBut s p _ (by decide) (by decide), nextShown_regsBut s p _ (by decide) (by decide),
    nextShown_regsBut s p _ (by decide) (by decide)⟩

end Sys2Proof.Machine
end

section
/-! The state factors of the outputs: one ramp for every channel, and nothing beside the outputs (Table AO-6). -/
open Sys2Proof Sys2Proof.Safety
namespace Sys2Proof.Machine

theorem updAout_aoutCh (s : State) (n m : Nat) (f : AoutCh → AoutCh) :
    (s.updAout n f).aoutCh m = if m = n then f (s.aoutCh n) else s.aoutCh m := by
  simp [State.updAout, State.setAout, State.aoutCh, smGet_set]

theorem foldl_updAout_aoutCh (f : AoutCh → AoutCh) {l : List Nat} (hl : l.Nodup) (s : State) (m : Nat) :
    (l.foldl (fun s n => s.updAout n f) s).aoutCh m = if m ∈ l then f (s.aoutCh m) else s.aoutCh m := by
  induction l generalizing s with
  | nil => rfl
  | cons n l ih =>
    obtain ⟨hn, hl⟩ := List.nodup_cons.mp hl
    rw [List.foldl_cons, ih hl, updAout_aoutCh]
    by_cases e : m = n
    · subst e
      simp [hn]
    · simp [e]

theorem foldl_updAout_shape (f : AoutCh → AoutCh) (l : List Nat) (s : State) :
    ∃ a, l.foldl (fun s n => s.updAout n f) s = { s with aout := a } := by
  induction l generalizing s with
  | nil => exact ⟨s.aout, rfl⟩
  | cons n l ih => exact ih (s.updAout n f)

theorem updSpk_shape (s : State) (n : Nat) (f : SpkCh → SpkCh) : ∃ k, s.updSpk n f = { s with spk := k } := by
  unfold State.updSpk State.setSpk
  split <;> exact ⟨_, rfl⟩

theorem stateFactors_shape (s : State) (tgt : Rat) (n : Nat) :
    ∃ a k, s.stateFactors tgt n = { s with aout := a, spk := k } := by
  unfold State.stateFactors State.aoutFactors
  dsimp only [List.foldl_cons, List.foldl_nil]
  obtain ⟨a, ha⟩ := foldl_updAout_shape (fun c => { c with state := facGo c.state tgt n }) (List.range 12) s
  rw [ha]
  obtain ⟨k, hk⟩ := updSpk_shape { s with aout := a } 0 fun c => { c with state := facGo c.state tgt n }
  rw [hk]
  obtain ⟨k', hk'⟩ := updSpk_shape { s with aout := a, spk := k } 1 fun c => { c with state := facGo c.state tgt n }
  exact ⟨a, k', hk'⟩

theorem updSpk_aoutCh (s : State) (n m : Nat) (f : SpkCh → SpkCh) : (s.updSpk n f).aoutCh m = s.aoutCh m := by
  unfold State.updSpk State.setSpk
  split <;> rfl

theorem stateFactors_aoutCh (s : State) (tgt : Rat) (n : Nat) {i : Nat} (h : i < 12) :
    ((s.stateFactors tgt n).aoutCh i).state = facGo (s.aoutCh i).state tgt n := by
  unfold State.stateFactors State.aoutFactors
  dsimp only [List.foldl_cons, List.foldl_nil]
  rw [updSpk_aoutCh, updSpk_aoutCh, foldl_updAout_aoutCh _ List.nodup_range, if_pos (List.mem_range.mpr h)]

end Sys2Proof.Machine
end

section
/-! The vote: a turn whose tick has come, and what its yes does (R392, R394). -/
open Sys2Proof Sys2Proof.Safety
namespace Sys2Proof.Machine

variable {s : State} {z : SleepSt}

/-- The sleep with the next known event as its turn sees it (R394). -/
def State.judged (s : State) (z : SleepSt) : SleepSt :=
  { z with next := (s.nextKnown z.t z.tdt z.untilDt).1, nextSrc := (s.nextKnown z.t z.tdt z.untilDt).2 }

/-- The chosen state fits no longer, or a ramp of the converters bars it (R29, R394). -/
def State.voteBarred (s : State) (z : SleepSt) : Bool :=
  !s.stateFits z.chosen (s.entryDt z.t z.tdt z.hold) (s.nextKnown z.t z.tdt z.untilDt).1
    || s.rampBars z.chosen (s.entryDt z.t z.tdt z.hold) z.t z.tdt (s.convRamps false)

/-- The reason for which the block of the turn refuses, 0 for yes (R394, Table PW-4). -/
def State.voteAnswer (s : State) (z : SleepSt) : Nat := if s.voteBarred z then 9 else s.voteReason z

/-- The vote is at a turn whose tick has come (R392). -/
structure VoteDue (s : State) (z : SleepSt) : Prop where
  sleep    : s.pwr.sleep = some z
  entering : s.pwr.state = .entering
  released : z.holding = false
  turn     : z.turn < 7
  tick     : (turnTk z.turn : Int) ≤ tsDiff s.time.ts (z.t + BitVec.ofNat 32 z.hold)

theorem VoteDue.not_waiting (d : VoteDue s z) : ¬ (s.pwr.state ≠ .entering ∨ z.holding = true ∨ 7 ≤ z.turn
    ∨ tsDiff s.time.ts (z.t + BitVec.ofNat 32 z.hold) < turnTk z.turn) := by
  obtain ⟨-, hs, hh, ht, hd⟩ := d
  simp only [hs, hh, ne_eq, not_true_eq_false, Bool.false_eq_true, false_or]
  omega

theorem VoteDue.voteTurn_eq (d : VoteDue s z) (hc : ¬ (z.turn = 5 ∧ z.convOn = true)) :
    s.voteTurn =
      if s.voteAnswer z ≠ 0 then (s.setSleep (s.judged z)).sleepRefuse (s.judged z) (s.voteAnswer z)
      else if z.turn = 5 then ((s.setSleep (s.judged z)).stateFactors 0 32).setSleep { s.judged z with convOn := true }
      else (s.setSleep (s.judged z)).voteYes (s.judged z) := by
  unfold State.voteTurn
  rw [d.sleep]
  dsimp only
  rw [if_neg d.not_waiting, if_neg hc]
  change (if s.voteBarred z = true then (s.setSleep (s.judged z)).sleepRefuse (s.judged z) 9
    else if s.voteReason z ≠ 0 then (s.setSleep (s.judged z)).sleepRefuse (s.judged z) (s.voteReason z) else _) = _
  unfold State.voteAnswer
  by_cases hb : s.voteBarred z = true
  · simp [hb]
  · simp only [hb]
    rfl

theorem VoteDue.voteTurn_converters (d : VoteDue s z) (hc : z.turn = 5 ∧ z.convOn = true) :
    s.voteTurn = if tsDiff s.time.ts (z.t + BitVec.ofNat 32 z.hold) < 36 then s else s.voteYes z := by
  unfold State.voteTurn
  rw [d.sleep]
  dsimp only
  rw [if_neg d.not_waiting, if_pos hc]

theorem voteYes_of_ne (h4 : z.turn ≠ 4) (h6 : z.turn ≠ 6) : s.voteYes z = s.setSleep { z with turn := z.turn + 1 } := by
  unfold State.voteYes
  dsimp only
  split
  · contradiction
  · contradiction
  · rfl

theorem voteYes_engines (h4 : z.turn = 4) :
    s.voteYes z = { s.setSleep { z with turn := z.turn + 1 } with inter := [], interOld := [], inter2 := [] } := by
  unfold State.voteYes
  simp only [h4]

theorem voteYes_memory (h6 : z.turn = 6) :
    s.voteYes z = s.setSleep { z with turn := z.turn + 1 } ∨
      ∃ v, s.voteYes z = (s.setSleep { z with turn := z.turn + 1 }).wr Reg.MEM_STATUS v := by
  unfold State.voteYes
  simp only [h6]
  split
  · exact .inr ⟨_, rfl⟩
  · exact .inl rfl

/-- A yes gives the turn to the next block; beside it the engines' interchange empties and the memory's status may change. -/
theorem voteYes_only (s : State) (z : SleepSt) :
    (s.voteYes z).pwr = { s.pwr with sleep := some { z with turn := z.turn + 1 } }
      ∧ RegsBut [Reg.MEM_STATUS] s (s.voteYes z)
      ∧ (z.turn = 4 → (s.voteYes z).inter = [] ∧ (s.voteYes z).inter2 = [])
      ∧ { s.voteYes z with pwr := s.pwr, inter := s.inter, interOld := s.interOld, inter2 := s.inter2, regs := s.regs } = s := by
  by_cases h4 : z.turn = 4
  · rw [voteYes_engines h4]
    exact ⟨rfl, RegsBut.of_regs rfl, fun _ => ⟨rfl, rfl⟩, rfl⟩
  by_cases h6 : z.turn = 6
  · obtain h | ⟨v, h⟩ := voteYes_memory h6 (s := s) <;> rw [h]
    · exact ⟨rfl, RegsBut.of_regs rfl, fun e => absurd e h4, rfl⟩
    · exact ⟨rfl, (RegsBut.of_regs rfl).trans (RegsBut.wr _ v (.head _)), fun e => absurd e h4, rfl⟩
  · rw [voteYes_of_ne h4 h6]
    exact ⟨rfl, RegsBut.of_regs rfl, fun e => absurd e h4, rfl⟩

theorem aoutCh_setSleep (s : State) (z : SleepSt) (i : Nat) : (s.setSleep z).aoutCh i = s.aoutCh i := rfl

/-- The converters' turn begins: every output ramps to zero over 32 ticks (R115). -/
theorem convertersBegin_only (s : State) (y z : SleepSt) :
    let t := ((s.setSleep y).stateFactors 0 32).setSleep z
    t.pwr = { s.pwr with sleep := some z } ∧ (∀ i, i < 12 → (t.aoutCh i).state = facGo (s.aoutCh i).state 0 32)
      ∧ { t with pwr := s.pwr, aout := s.aout, spk := s.spk } = s := by
  intro t
  obtain ⟨a, k, hshape⟩ := stateFactors_shape (s.setSleep y) 0 32
  have ht : t = { s with pwr := { s.pwr with sleep := some z }, aout := a, spk := k } := congrArg (State.setSleep · z) hshape
  refine ⟨by rw [ht], fun i hi => ?_, by rw [ht]⟩
  rw [aoutCh_setSleep, stateFactors_aoutCh _ _ _ hi, aoutCh_setSleep]

theorem voteAnswer_eq (s : State) (z : SleepSt) :
    s.voteAnswer z =
      if s.stateFits z.chosen (s.entryDt z.t z.tdt z.hold) (s.nextKnown z.t z.tdt z.untilDt).1
        && !s.rampBars z.chosen (s.entryDt z.t z.tdt z.hold) z.t z.tdt (s.convRamps false) then s.voteReason z else 9 := by
  unfold State.voteAnswer State.voteBarred
  generalize s.stateFits z.chosen _ _ = fits
  generalize s.rampBars z.chosen _ _ _ _ = barred
  cases fits <;> cases barred <;> rfl

end Sys2Proof.Machine
end

section
/-! The vote: what a refusal does (R394, R395). -/
open Sys2Proof Sys2Proof.Safety
namespace Sys2Proof.Machine

variable {s t : State} {z : SleepSt}

/-! ### What the log becomes -/

theorem blz_ite (c : Prop) [Decidable c] (a b : State) : (if c then a else b).blz = if c then a.blz else b.blz := by
  split <;> rfl

theorem countDrop_blz_congr (hb : t.blz = s.blz) (e : Ev) (staged : Bool) :
    (t.countDrop e staged).blz = (s.countDrop e staged).blz := by
  unfold State.countDrop
  cases staged <;> simp [hb]

theorem stage_blz_congr (hb : t.blz = s.blz) (hc : t.coreDown = s.coreDown) (e : Ev) : (t.stage e).blz = (s.stage e).blz := by
  unfold State.stage
  simp only [hb, hc]
  generalize stageInto _ _ _ = x
  obtain ⟨q, dropped, co⟩ := x
  cases dropped with
  | none => simp [blz_ite]
  | some d => exact countDrop_blz_congr (by simp [blz_ite]) d true

theorem log_blz_setSleep (s : State) (z : SleepSt) (src code sev : Nat) (p0 p1 p2 : Word) :
    ((s.setSleep z).log src code sev p0 p1 p2).blz = (s.log src code sev p0 p1 p2).blz :=
  stage_blz_congr (s := s) (t := s.setSleep z) rfl rfl _

/-! ### The refusal -/

/-- The registers that the refusal of a block writes (R395). -/
abbrev refuseRegs (block : Nat) : List Nat :=
  [Reg.PWR_ABORTCNT, Reg.PWR_REFUSE block, Reg.PWR_LAST_REFUSE, Reg.PWR_LAST_REFUSE_TS32]

/-- The state with the refusal counted and its place, reason and tick shown, before its record. -/
def State.refuseCounted (s : State) (z : SleepSt) (reason : Nat) : State :=
  (((s.bump Reg.PWR_ABORTCNT).bump (Reg.PWR_REFUSE (z.turn - 1))).wr Reg.PWR_LAST_REFUSE
    (wN (z.turn - 1 + 256 * z.chosen + 65536 * reason))).wr Reg.PWR_LAST_REFUSE_TS32 s.time.ts

/-- The same with its record. -/
def State.refuseLogged (s : State) (z : SleepSt) (reason : Nat) : State :=
  (s.refuseCounted z reason).log Src.PWR 0x2004 2 (wN (z.turn - 1)) (wN reason) (wN z.chosen)

theorem sleepRefuse_eq (s : State) (z : SleepSt) (reason : Nat) :
    s.sleepRefuse z reason = { s.refuseLogged z reason with pwr := { (s.refuseLogged z reason).pwr with
      state := .rolling,
      sleep := some { z with back := some ⟨(s.refuseLogged z reason).time.ts + 1, z.turn - 1, reason, z.turn - 1⟩ } } } := by
  unfold State.sleepRefuse State.setSleep State.refuseLogged
  rfl

theorem refuseLogged_keeps (s : State) (z : SleepSt) (reason : Nat) :
    (s.refuseLogged z reason).pwr = s.pwr ∧ (s.refuseLogged z reason).time = s.time := by
  simp [State.refuseLogged, State.refuseCounted]

theorem sleepRefuse_pwr (s : State) (z : SleepSt) (reason : Nat) :
    (s.sleepRefuse z reason).pwr = { s.pwr with
      state := .rolling, sleep := some { z with back := some ⟨s.time.ts + 1, z.turn - 1, reason, z.turn - 1⟩ } } := by
  obtain ⟨hpwr, htime⟩ := refuseLogged_keeps s z reason
  rw [sleepRefuse_eq, hpwr, htime]

theorem refuseCounted_keeps (s : State) (z : SleepSt) (reason : Nat) :
    (s.refuseCounted z reason).blz = s.blz ∧ (s.refuseCounted z reason).pwr = s.pwr
      ∧ (s.refuseCounted z reason).time = s.time := ⟨rfl, rfl, rfl⟩

theorem sleepRefuse_blz (s : State) (z : SleepSt) (reason : Nat) :
    (s.sleepRefuse z reason).blz = (s.log Src.PWR 0x2004 2 (wN (z.turn - 1)) (wN reason) (wN z.chosen)).blz := by
  obtain ⟨hblz, hpwr, htime⟩ := refuseCounted_keeps s z reason
  rw [sleepRefuse_eq]
  unfold State.refuseLogged State.log
  rw [htime]
  exact logAt_blz_congr hblz hpwr (by rw [htime]) ..

theorem sleepRefuse_rd (s : State) (z : SleepSt) (reason : Nat) {o : Nat} (ho : o < 0x13020 ∨ 0x13040 < o) :
    (s.sleepRefuse z reason).rd o = (s.refuseCounted z reason).rd o := by
  rw [sleepRefuse_eq]
  exact log_rd _ _ _ _ _ _ _ ho

/-- A block's counter of refusals is none of the registers that show the last one. -/
theorem pwrRefuse_ne (block : Nat) : Reg.PWR_REFUSE block ≠ Reg.PWR_ABORTCNT ∧ Reg.PWR_REFUSE block ≠ Reg.PWR_LAST_REFUSE
    ∧ Reg.PWR_REFUSE block ≠ Reg.PWR_LAST_REFUSE_TS32 := by
  refine ⟨?_, ?_, ?_⟩ <;> simp only [Reg.PWR_REFUSE, Reg.PWR_ABORTCNT, Reg.PWR_LAST_REFUSE, Reg.PWR_LAST_REFUSE_TS32] <;> omega

theorem sleepRefuse_counts (s : State) (z : SleepSt) (reason : Nat) (ht : z.turn < 7) :
    (s.sleepRefuse z reason).rd Reg.PWR_ABORTCNT = satInc (s.rd Reg.PWR_ABORTCNT) 1
      ∧ (s.sleepRefuse z reason).rd (Reg.PWR_REFUSE (z.turn - 1)) = satInc (s.rd (Reg.PWR_REFUSE (z.turn - 1))) 1
      ∧ (s.sleepRefuse z reason).rd Reg.PWR_LAST_REFUSE = wN (z.turn - 1 + 256 * z.chosen + 65536 * reason)
      ∧ (s.sleepRefuse z reason).rd Reg.PWR_LAST_REFUSE_TS32 = s.time.ts := by
  obtain ⟨habort, hlast, htick⟩ := pwrRefuse_ne (z.turn - 1)
  have counter : (Reg.PWR_REFUSE (z.turn - 1)) < 0x13020 := by simp only [Reg.PWR_REFUSE]; omega
  refine ⟨?_, ?_, ?_, ?_⟩
  · rw [sleepRefuse_rd s z reason (by decide), State.refuseCounted, State.rd_wr_ne _ (by decide), State.rd_wr_ne _ (by decide),
      State.bump, State.bumpBy, State.rd_wr_ne _ habort.symm]
    exact State.rd_wr_self ..
  · rw [sleepRefuse_rd s z reason (.inl counter), State.refuseCounted, State.rd_wr_ne _ htick, State.rd_wr_ne _ hlast]
    refine (State.rd_wr_self ..).trans ?_
    rw [State.bump, State.bumpBy, State.rd_wr_ne _ habort]
  · rw [sleepRefuse_rd s z reason (by decide), State.refuseCounted, State.rd_wr_ne _ (by decide), State.rd_wr_self]
  · rw [sleepRefuse_rd s z reason (by decide), State.refuseCounted, State.rd_wr_self]

theorem sleepRefuse_regsBut (s : State) (z : SleepSt) (reason : Nat) :
    RegsBut (refuseRegs (z.turn - 1)) s (s.sleepRefuse z reason) := by
  intro o hl ho
  rw [sleepRefuse_rd s z reason (logReg_off hl)]
  simp only [List.mem_cons, List.not_mem_nil, or_false, not_or] at ho
  obtain ⟨habort, hrefuse, hlast, htick⟩ := ho
  simp only [State.refuseCounted, State.bump, State.bumpBy, State.rd_wr, habort, hrefuse, hlast, htick, if_false]

theorem sleepRefuse_shape (s : State) (z : SleepSt) (reason : Nat) :
    s.sleepRefuse z reason = { s with
      pwr := (s.sleepRefuse z reason).pwr, blz := (s.sleepRefuse z reason).blz, regs := (s.sleepRefuse z reason).regs } := by
  rw [sleepRefuse_eq]
  apply State.ext <;> simp [State.refuseLogged, State.refuseCounted]

/-- A vote that is refused changes power, Blaze and the registers alone. -/
theorem setSleep_sleepRefuse_only (s : State) (y z : SleepSt) (reason : Nat) :
    { (s.setSleep y).sleepRefuse z reason with pwr := s.pwr, blz := s.blz, regs := s.regs } = s := by
  rw [sleepRefuse_shape]
  rfl

end Sys2Proof.Machine
end

section
/-! Performance levels, SLEEP and the vote (O44). -/
open Sys2Proof Sys2Proof.Safety
namespace Sys2Proof.Machine

variable {s : State} {z : SleepSt}

theorem sleepLinkHoldEnd_of_ended {away : Bool} (hz : s.pwr.sleep = some z) (hh : z.holding = true)
    (hl : away = true → s.host.speed = 0)
    (hw : away = false → z.tdt.toNat + s.fld Fl.PWR_SLEEP_CFG.LINK_WAIT * 1000000 ≤ s.time.dt.toNat) :
    exec (.sleepLinkHoldEnd away) s
      = .next (s.setSleep { z with holding := false, hold := (tsDiff s.time.ts z.t).toNat }) := by
  change execSleepLinkHoldEnd away s = _
  unfold execSleepLinkHoldEnd
  rw [hz]
  refine if_pos ⟨hh, ?_⟩
  cases away with
  | false => simpa using hw rfl
  | true => simpa using hl rfl

/-- Settles O44: the commands by what they leave once they have run, the vote by the reason that its turn answers. -/
theorem perfAndSleep : Obligations.PerfAndSleep := by
  refine ⟨?_, fun s p hp => ⟨_, rfl, fun ha => ?_, fun ha => ?_⟩, fun s => rfl, ?_, ?_, ?_, fun s z away => sleepLinkHoldEnd_of_ended⟩
  · intro s h level r hv hk
    refine ⟨_, exec_perfLevel_ready r hv hk, ?_⟩
    rw [finish_perfLevel_pwr, perfLevelEffect_pwr]
    refine ⟨fun e => if_pos e, fun e => ?_, fun e => ?_, ?_, ?_⟩
    · rw [if_neg (by omega), if_pos e]
    · rw [if_neg (by omega), if_neg (by omega)]
    · exact (perfLevelEffect_regsBut wbRegs level s).trans (RegsBut.finish _ _ _ _)
    · rw [finish_shape, perfLevelEffect_shape]
  · rw [levelSwitch_at hp, if_pos ha]
  · rw [levelSwitch_at hp, if_neg (by omega)]
  · intro s h p r hv hk next fits
    have unfit {c : Nat} (hc : ¬ fits c) : s.choosable p.maxState (s.entryDt s.time.ts s.time.bdt 0) next c = false :=
      Bool.eq_false_iff.mpr fun e => hc (choosable_iff.mp e)
    refine ⟨s.slept h p, exec_sleep_ready r hv hk, fun hno => ?_, fun c h1 h4 hc hd => ?_, slept_next s h p, slept_regsBut s h p,
      slept_only s h p⟩
    · exact slept_stays (chooseState_none fun c h1 h4 => unfit (hno c h1 h4))
    · have chosen : s.sleepChoice p = c := chooseState_deepest h1 h4 (choosable_iff.mpr hc) fun d hcd hd4 => unfit (hd d hcd hd4)
      rw [slept_pwr (by omega)]
      exact ⟨rfl, rfl, s.sleepBegun h p, rfl, rfl, chosen, rfl, rfl, rfl, chosen ▸ rfl, chosen ▸ rfl, rfl, sleepBegun_armed s h p⟩
  · intro s z hz hs hh ht hd hc n y te r
    have hr : r = s.voteAnswer z := (voteAnswer_eq s z).symm
    have turn := VoteDue.voteTurn_eq ⟨hz, hs, hh, ht, hd⟩ hc
    rw [hr]
    refine ⟨s.voteTurn, rfl, fun yes h5 => ?_, fun yes h5 => ?_, fun no => ?_⟩
    · rw [turn, if_neg (not_not_intro yes), if_neg h5]
      obtain ⟨hpwr, hregs, hinter, honly⟩ := voteYes_only (s.setSleep y) y
      exact ⟨hpwr, hregs, hinter, congrArg (fun t : State => { t with pwr := s.pwr }) honly⟩
    · rw [turn, if_neg (not_not_intro yes), if_pos h5]
      exact convertersBegin_only s y _
    · rw [turn, if_pos no]
      obtain ⟨habort, hrefuse, hlast, htick⟩ := sleepRefuse_counts (s.setSleep y) y (s.voteAnswer z) ht
      refine ⟨sleepRefuse_pwr _ _ _, habort, hrefuse, hlast, htick, ?_, ?_, ?_⟩
      · exact (sleepRefuse_blz _ _ _).trans (log_blz_setSleep ..)
      · exact sleepRefuse_regsBut (s.setSleep y) y _
      · exact setSleep_sleepRefuse_only s y y _
  · intro s z hz hs hh ht hc hd
    have turn := VoteDue.voteTurn_converters (s := s) (z := z) ⟨hz, hs, hh, by omega, ht ▸ hd⟩ ⟨ht, hc⟩
    refine ⟨s.voteTurn, rfl, fun he => ?_, fun he => ?_⟩
    · rw [turn, if_pos he]
    · rw [turn, if_neg (by omega), voteYes_of_ne (by omega) (by omega), ht]
      rfl

end Sys2Proof.Machine
end

section
/-! The inputs' tables under an update of one entry, and the log behind it: one channel changes, and nothing beside the inputs. -/
open Sys2Proof Sys2Proof.Safety
namespace Sys2Proof.Machine

variable {s t : State} {n : Nat}

theorem ainCh_congr (h : t.ain.ch = s.ain.ch) (m : Nat) : t.ainCh m = s.ainCh m := congrArg (smGet · m AinCh.init) h

theorem pdmCh_congr (h : t.ain.pdm = s.ain.pdm) (m : Nat) : t.pdmCh m = s.pdmCh m := congrArg (smGet · m PdmCh.init) h

/-- Inputs that differ in one analog input's entry. -/
theorem setAin_only {c : AinCh} (h : t.ain = (s.setAin n c).ain) :
    t.ainCh n = c ∧ (∀ m, m ≠ n → t.ainCh m = s.ainCh m) ∧ { t.ain with ch := s.ain.ch } = s.ain := by
  have hch : t.ain.ch = (s.setAin n c).ain.ch := congrArg AinSt.ch h
  refine ⟨?_, fun m hm => ?_, by rw [h]; rfl⟩
  · rw [ainCh_congr hch, setAin_ainCh]
  · rw [ainCh_congr hch, setAin_ainCh_ne s hm]

/-- Inputs that differ in one PDM channel's entry. -/
theorem setPdm_only {c : PdmCh} (h : t.ain = (s.setPdm n c).ain) :
    t.pdmCh n = c ∧ (∀ m, m ≠ n → t.pdmCh m = s.pdmCh m) ∧ { t.ain with pdm := s.ain.pdm } = s.ain := by
  have hpdm : t.ain.pdm = (s.setPdm n c).ain.pdm := congrArg AinSt.pdm h
  refine ⟨?_, fun m hm => ?_, by rw [h]; rfl⟩
  · rw [pdmCh_congr hpdm, setPdm_pdmCh]
  · rw [pdmCh_congr hpdm, setPdm_pdmCh_ne s hm]

theorem logAt_ain (s : State) (src code sev : Nat) (dt : DT) (p0 p1 p2 : Word) :
    (s.logAt src code sev dt p0 p1 p2).ain = s.ain := by simp

theorem finish_ain (h : Hdr) (op : Nat) (late : Bool) (d : Done) : (State.finish h op late d).ain = d.st.ain := by simp

end Sys2Proof.Machine
end

section
/-! AIN_SET and PDM_SET (R98 to R104). -/
open Sys2Proof Sys2Proof.Safety
namespace Sys2Proof.Machine

variable {s : State} {h : Hdr} {p : CfgSetP}

/-! ### AIN_SET -/

/-- The configuration that an AIN_SET leaves (R103). -/
abbrev State.ainMerged (s : State) (p : CfgSetP) : Word := mergeAin p.mask (s.rd (Reg.AIN_CFG p.chan)) p.image

/-- The analog circuit changes on an input that is or becomes enabled (R98). -/
def feStarts (old new : Word) : Bool := feChanged old new && (cfgEn old || cfgEn new)

theorem ainSet_off_lt (hv : ainSetValid s p = true) : Reg.AIN_CFG p.chan < 0x10000 := by
  simp only [ainSetValid, Bool.and_eq_true, decide_eq_true_eq] at hv
  obtain ⟨⟨⟨hchan, -⟩, -⟩, -⟩ := hv
  simp only [Reg.AIN_CFG]
  omega

/-- AIN_SET writes the merged configuration and one input's entry; a front-end change adds its record (R106). -/
theorem ainSetEffect_cases (s : State) (p : CfgSetP) :
    (feStarts (s.rd (Reg.AIN_CFG p.chan)) (s.ainMerged p) = false ∧
      ∃ c, (ainSetEffect p s).st = (s.wr (Reg.AIN_CFG p.chan) (s.ainMerged p)).setAin p.chan c) ∨
    (∃ c : AinCh, c.seq = some ⟨true, s.time.ts, s.rd (Reg.AIN_CFG p.chan), false⟩ ∧ c.fault.tgt = 0 ∧
      (ainSetEffect p s).st = ((s.wr (Reg.AIN_CFG p.chan) (s.ainMerged p)).setAin p.chan c).logAt Src.AIN 0x3008 1 s.time.bdt
        (wN p.chan) (s.rd (Reg.AIN_CFG p.chan)) (s.ainMerged p)) := by
  unfold ainSetEffect
  dsimp only
  split
  case isTrue off =>
    obtain ⟨hold, hnew⟩ : cfgEn (s.rd (Reg.AIN_CFG p.chan)) = false ∧ cfgEn (s.ainMerged p) = false := by simpa using off
    exact .inl ⟨by simp [feStarts, hold, hnew], _, rfl⟩
  case isFalse =>
    split
    case isTrue => exact .inr ⟨_, rfl, rfl, rfl⟩
    case isFalse same =>
      refine .inl ⟨by simp [feStarts, same], ?_⟩
      split <;> exact ⟨_, rfl⟩

/-- The entry that AIN_SET leaves at its input, and the frame of its effect. -/
theorem ainSetEffect_only (s : State) (p : CfgSetP) :
    (∃ c : AinCh, (ainSetEffect p s).st.ain = (s.setAin p.chan c).ain ∧
      (feStarts (s.rd (Reg.AIN_CFG p.chan)) (s.ainMerged p) = true →
        c.seq = some ⟨true, s.time.ts, s.rd (Reg.AIN_CFG p.chan), false⟩ ∧ c.fault.tgt = 0)) ∧
    RegsBut [] (s.wr (Reg.AIN_CFG p.chan) (s.ainMerged p)) (ainSetEffect p s).st ∧
    (ainSetEffect p s).st = { s with
      ain := (ainSetEffect p s).st.ain, blz := (ainSetEffect p s).st.blz, regs := (ainSetEffect p s).st.regs } := by
  obtain ⟨hno, c, hst⟩ | ⟨c, hseq, hfault, hst⟩ := ainSetEffect_cases s p <;> rw [hst]
  · exact ⟨⟨c, rfl, fun yes => absurd (hno.symm.trans yes) Bool.false_ne_true⟩, RegsBut.of_regs rfl, rfl⟩
  · refine ⟨⟨c, logAt_ain .., fun _ => ⟨hseq, hfault⟩⟩, ?_, ?_⟩
    · exact (RegsBut.of_regs rfl).trans (RegsBut.logAt [] _ _ _ _ _ _ _ _)
    · rw [logAt_shape]
      rfl

theorem exec_ainSet_ready (r : Ready s h) (hv : ainSetValid s p = true) (hk : ainSetRefusal s p = .ok) :
    exec (.ainSet h p) s = .next (State.finish h 0x0301 false (ainSetEffect p s)) := by
  obtain ⟨-, -, shape⟩ := ainSetEffect_only s p
  refine congrArg _ (runCmd_ready r _ _ _ _ hv rfl hk ?_)
  rw [shape]
  exact admit_same rfl rfl rfl rfl rfl rfl rfl rfl

/-! ### PDM_SET -/

/-- The configuration that a PDM_SET leaves (R104). -/
abbrev State.pdmMerged (s : State) (p : CfgSetP) : Word := mergePdm p.mask (s.rd (Reg.AIN_PDMCH p.chan)) p.image

theorem pdmSet_off_lt (hv : pdmSetValid s p = true) : Reg.AIN_PDMCH p.chan < 0x10000 := by
  simp only [pdmSetValid, Bool.and_eq_true, decide_eq_true_eq] at hv
  obtain ⟨⟨⟨hchan, -⟩, -⟩, -⟩ := hv
  simp only [Reg.AIN_PDMCH]
  omega

/-- PDM_SET writes the merged configuration and one channel's entry. -/
theorem pdmSetEffect_only (s : State) (p : CfgSetP) :
    ∃ c : PdmCh, (pdmSetEffect p s).st = (s.wr (Reg.AIN_PDMCH p.chan) (s.pdmMerged p)).setPdm p.chan c ∧
      (cfgFilt (s.rd (Reg.AIN_PDMCH p.chan)) ≠ cfgFilt (s.pdmMerged p) → cfgEn (s.pdmMerged p) = true →
        c.seq = some ⟨false, s.time.ts, s.rd (Reg.AIN_PDMCH p.chan), false⟩ ∧ c.filt.tgt = 0) := by
  unfold pdmSetEffect
  dsimp only
  split
  case isTrue => exact ⟨_, rfl, fun _ _ => ⟨rfl, rfl⟩⟩
  case isFalse same => exact ⟨_, rfl, fun hfilt hen => absurd (by simp [hfilt, hen]) same⟩

theorem exec_pdmSet_ready (r : Ready s h) (hv : pdmSetValid s p = true) (hk : pdmSetRefusal s p = .ok) :
    exec (.pdmSet h p) s = .next (State.finish h 0x0302 false (pdmSetEffect p s)) := by
  obtain ⟨c, hst, -⟩ := pdmSetEffect_only s p
  refine congrArg _ (runCmd_ready r _ _ _ _ hv rfl hk ?_)
  rw [hst]
  exact admit_same rfl rfl rfl rfl rfl rfl rfl rfl

/-! ### The register of the configuration -/

/-- A register below the host interface's is none of the log's counters and none that a write-back touches. -/
theorem not_written_back {o : Nat} (ho : o < 0x10000) : logReg o = false ∧ o ∉ wbRegs := by
  constructor
  · simp only [logReg, Bool.and_eq_false_iff, decide_eq_false_iff_not]
    omega
  · simp only [List.mem_cons, List.not_mem_nil, or_false, Reg.HST_ERR, Reg.HST_WIN_VIOLCNT, Reg.HST_ERR_RING]
    omega

/-- A configuration that is written, and behind it only what a write-back may touch. -/
theorem RegsBut.of_wr {t : State} {o : Nat} {v : Word} (k : RegsBut wbRegs (s.wr o v) t) (ho : o < 0x10000) :
    t.rd o = v ∧ RegsBut (o :: wbRegs) s t := by
  obtain ⟨hlog, hwb⟩ := not_written_back ho
  exact ⟨(k o hlog hwb).trans (s.rd_wr_self o v),
    (RegsBut.wr s v (.head _)).trans (k.mono fun _ m => .tail _ m)⟩

/-- Settles O7: the command writes its register and one entry, the front-end change being the one case with a record; the
write-back behind it touches neither. -/
theorem inputSetCompletes : Obligations.InputSetCompletes := by
  constructor
  · intro s h p r hv hk
    obtain ⟨⟨c, hain, hfe⟩, hregs, hshape⟩ := ainSetEffect_only s p
    obtain ⟨hself, hothers, hrest⟩ := setAin_only ((finish_ain h 0x0301 false _).trans hain)
    obtain ⟨hcfg, hframe⟩ := RegsBut.of_wr ((hregs.mono (List.nil_subset _)).trans (RegsBut.finish h 0x0301 false _))
      (ainSet_off_lt hv)
    refine ⟨_, exec_ainSet_ready r hv hk, hcfg, fun hch hen => ?_, hothers, (congrArg AinSt.pdm hrest :),
      (congrArg AinSt.jack0 hrest :), (congrArg AinSt.jack1 hrest :), hframe, ?_⟩
    · rw [hself]
      rw [hcfg] at hch hen
      exact hfe (by simp [feStarts, hch, hen])
    · rw [finish_shape, hshape]
  · intro s h p r hv hk
    obtain ⟨c, hst, hfilt⟩ := pdmSetEffect_only s p
    have hain : (State.finish h 0x0302 false (pdmSetEffect p s)).ain = (s.setPdm p.chan c).ain :=
      (finish_ain h 0x0302 false _).trans (by rw [hst]; rfl)
    obtain ⟨hself, hothers, hrest⟩ := setPdm_only hain
    have hregs : RegsBut wbRegs (s.wr (Reg.AIN_PDMCH p.chan) (s.pdmMerged p)) (pdmSetEffect p s).st := .of_regs (by rw [hst]; rfl)
    obtain ⟨hcfg, hframe⟩ := RegsBut.of_wr (hregs.trans (RegsBut.finish h 0x0302 false _)) (pdmSet_off_lt hv)
    refine ⟨_, exec_pdmSet_ready r hv hk, hcfg, fun hch hen => ?_, hothers, (congrArg AinSt.ch hrest :),
      (congrArg AinSt.jack0 hrest :), (congrArg AinSt.jack1 hrest :), hframe, ?_⟩
    · rw [hself]
      rw [hcfg] at hch hen
      exact hfilt hch hen
    · rw [finish_shape, hst]
      rfl

end Sys2Proof.Machine
end

section
/-! The fault events of the inputs: an event sets one flag of AIN_FAULT, changes one entry and may log (R82, R89). -/
open Sys2Proof Sys2Proof.Safety
namespace Sys2Proof.Machine

variable {s : State} {n : Nat} {dt : DT}

/-! ### A flag of AIN_FAULT -/

theorem RegsBut.setBit {l : List Nat} (s : State) {o : Nat} (i : Nat) (h : o ∈ l) : RegsBut l s (s.setBit o i) :=
  RegsBut.wr s _ h

/-- The state at an event's DT with flag i of AIN_FAULT set and the inputs as the event leaves them. -/
def State.faulted (s : State) (dt : DT) (i : Nat) (a : AinSt) : State :=
  { (s.advance dt).setBit Reg.AIN_FAULT i with ain := a }

theorem faulted_only (s : State) (dt : DT) {i : Nat} (hi : i < 32) (a : AinSt) :
    (s.faulted dt i a).bit Reg.AIN_FAULT i = true ∧ RegsBut [Reg.AIN_FAULT] s (s.faulted dt i a)
      ∧ { s.faulted dt i a with ain := s.ain, blz := s.blz, regs := s.regs } = s.advance dt :=
  ⟨bit_setBit (s.advance dt) Reg.AIN_FAULT i hi, RegsBut.setBit (s.advance dt) i (.head _), rfl⟩

/-- The event's record lies on the log as it stood, and touches neither the flag nor the inputs. -/
theorem faulted_logged (s : State) (dt : DT) {i : Nat} (hi : i < 32) (a : AinSt) (code sev : Nat) (p0 p1 p2 : Word) :
    let t := (s.faulted dt i a).logAt Src.AIN code sev dt p0 p1 p2
    t.bit Reg.AIN_FAULT i = true ∧ t.ain = a ∧ t.blz = (s.logAt Src.AIN code sev dt p0 p1 p2).blz
      ∧ RegsBut [Reg.AIN_FAULT] s t ∧ { t with ain := s.ain, blz := s.blz, regs := s.regs } = s.advance dt := by
  obtain ⟨hbit, hregs, hframe⟩ := faulted_only s dt hi a
  have hblz := logAt_blz_congr (s := s) (t := s.faulted dt i a) rfl rfl rfl
  refine ⟨?_, logAt_ain .., hblz .., hregs.trans (RegsBut.logAt _ _ _ _ _ _ _ _ _), ?_⟩
  · rw [logAt_bit _ _ _ _ _ _ _ _ _ _ (by decide)]
    exact hbit
  · rw [logAt_shape]
    exact hframe

/-! ### The bias (R82) -/

theorem execBiasLimit_begins (hn : n < 8) (hb : cfgBias (s.ainCh n).analog ≠ 0) (ho : (s.ainCh n).off = false)
    (hl : (s.ainCh n).lim = none) :
    let u := s.faulted dt (8 + n) (s.setAin n { s.ainCh n with lim := some dt }).ain
    exec (.biasLimit n dt) s = .next (if s.bit Reg.AIN_FAULT (8 + n) then u
      else u.logAt Src.AIN 0x3003 3 dt (wN n) (wN (cfgBias (s.ainCh n).analog)) 0) := by
  change execBiasLimit n dt s = _
  unfold execBiasLimit
  refine (if_pos ⟨hn, hb, ho, hl⟩).trans ?_
  dsimp only
  rw [setAin_ainCh]
  rfl

theorem execBiasLimitEnd_ends :
    exec (.biasLimitEnd n dt) s = .next ((s.advance dt).setAin n { s.ainCh n with lim := none }) := rfl

theorem execBiasOff_held {t0 : DT} (hl : (s.ainCh n).lim = some t0) (ht : t0.toNat + 100000000 ≤ dt.toNat) :
    exec (.biasOff n dt) s = .next ((s.faulted dt (16 + n)
      (s.setAin n { s.ainCh n with off := true, lim := none, bias := facZero, fault := facGo (s.ainCh n).fault 0 32 }).ain).logAt
        Src.AIN 0x3004 4 dt (wN n) (wN (cfgBias (s.ainCh n).analog)) 0) := by
  change execBiasOff n dt s = _
  unfold execBiasOff
  simp only [ainCh_advance, hl]
  exact if_pos ht

/-! ### PDM data (R89) -/

theorem execPdmStuck_clocked {level : Nat} (hn : n < 8) (hc : s.pdmClocked (n / 2) = true) (hs : (s.pdmCh n).stuck = none) :
    exec (.pdmStuck n level dt) s = .next ((s.faulted dt (24 + n)
      (s.setPdm n { s.pdmCh n with stuck := some level, fault := facGo (s.pdmCh n).fault 0 8 }).ain).logAt
        Src.AIN 0x3007 3 dt (wN n) (wN level) 0) := by
  change execPdmStuck n level dt s = _
  unfold execPdmStuck
  exact if_pos ⟨hn, hc, hs⟩

theorem execPdmRecover_stuck {level : Nat} (hs : (s.pdmCh n).stuck = some level) :
    exec (.pdmRecover n dt) s
      = .next ((s.advance dt).setPdm n { s.pdmCh n with stuck := none, fault := facGo (s.pdmCh n).fault 1 32 }) := by
  change execPdmRecover n dt s = _
  unfold execPdmRecover
  exact congrArg _ (if_pos (by simp [hs]))

end Sys2Proof.Machine
end

section
/-! A clip event of an input (R96), and the reset of a modulator, which is one (R97). -/
open Sys2Proof Sys2Proof.Safety
namespace Sys2Proof.Machine

variable {s : State} {n : Nat} {dt : DT} {dig : Bool}

/-- The flag of a clip event: analog or digital. -/
abbrev clipBit (n : Nat) (dig : Bool) : Nat := if dig then 10 + n else n

/-- The flag of a clip event set, and the event logged when both flags were clear (R96). -/
def State.clipFlagged (s : State) (n : Nat) (dig : Bool) : State :=
  let t := s.setBit Reg.AIN_CLIP (clipBit n dig)
  if !s.bit Reg.AIN_CLIP n && !s.bit Reg.AIN_CLIP (10 + n) then t.log Src.AIN 0x3001 3 (wN n) (wN (wB dig)) 0 else t

/-- The tick of a clip event counted, with its pulse of a pin (R96, R528). -/
def State.clipCounted (s : State) (n : Nat) : State :=
  let t := s.pinPulse 6 n (s.time.bdt + BitVec.ofNat 64 100000000)
  (t.bump (Reg.AIN_CLIPCNT n)).setAin n { t.ainCh n with clipTs := some t.time.ts }

theorem clipFlagged_only (s : State) (n : Nat) (dig : Bool) :
    s.clipFlagged n dig = { s with blz := (s.clipFlagged n dig).blz, regs := (s.clipFlagged n dig).regs }
      ∧ RegsBut [Reg.AIN_CLIP] s (s.clipFlagged n dig) := by
  have hflag : RegsBut [Reg.AIN_CLIP] s (s.setBit Reg.AIN_CLIP (clipBit n dig)) := RegsBut.setBit s _ (.head _)
  unfold State.clipFlagged
  dsimp only
  split
  · exact ⟨logAt_shape (s.setBit Reg.AIN_CLIP (clipBit n dig)) .., hflag.trans (RegsBut.log _ _ _ _ _ _ _ _)⟩
  · exact ⟨rfl, hflag⟩

theorem clipFlagged_bit (s : State) (h : clipBit n dig < 32) :
    (s.clipFlagged n dig).bit Reg.AIN_CLIP (clipBit n dig) = true := by
  have hflag := bit_setBit s Reg.AIN_CLIP _ h
  unfold State.clipFlagged
  dsimp only
  split
  · exact (logAt_bit _ _ _ _ _ _ _ _ _ _ (by decide)).trans hflag
  · exact hflag

theorem pinPulse_shape (s : State) (f k : Nat) (t : DT) : s.pinPulse f k t = { s with pin := (s.pinPulse f k t).pin } := by
  apply State.ext <;> simp

theorem clipCounted_only (s : State) (n : Nat) :
    s.clipCounted n = { s with
        ain := (s.setAin n { s.ainCh n with clipTs := some s.time.ts }).ain, pin := (s.clipCounted n).pin,
        regs := (s.clipCounted n).regs }
      ∧ RegsBut [Reg.AIN_CLIPCNT n] s (s.clipCounted n) := by
  unfold State.clipCounted
  rw [pinPulse_shape]
  exact ⟨rfl, RegsBut.bump { s with pin := _ } (.head _)⟩

/-- A clip event sets its flag, and counts once in a tick. -/
theorem ainClip_eq (s : State) (n : Nat) (dig : Bool) :
    s.ainClip n dig =
      if (s.ainCh n).clipTs != some s.time.ts then (s.clipFlagged n dig).clipCounted n else s.clipFlagged n dig := by
  obtain ⟨hshape, -⟩ := clipFlagged_only s n dig
  have hts : (s.clipFlagged n dig).time = s.time := by rw [hshape]
  have hch : (s.clipFlagged n dig).ainCh n = s.ainCh n := ainCh_congr (by rw [hshape]) n
  rw [← hts, ← hch]
  rfl

/-- What a clip event may change: its input's entry, but for the tick of the last reset; a pin; the log; its registers. -/
theorem ainClip_only (s : State) (n : Nat) (dig : Bool) :
    ((s.ainClip n dig).ainCh n).modTs = (s.ainCh n).modTs ∧ (∀ m, m ≠ n → (s.ainClip n dig).ainCh m = s.ainCh m)
      ∧ { (s.ainClip n dig).ain with ch := s.ain.ch } = s.ain
      ∧ RegsBut [Reg.AIN_CLIP, Reg.AIN_CLIPCNT n] s (s.ainClip n dig)
      ∧ { s.ainClip n dig with ain := s.ain, blz := s.blz, regs := s.regs, pin := s.pin } = s := by
  obtain ⟨hflag, hflagRegs⟩ := clipFlagged_only s n dig
  obtain ⟨hcount, hcountRegs⟩ := clipCounted_only (s.clipFlagged n dig) n
  have hflagAin : (s.clipFlagged n dig).ain = s.ain := by rw [hflag]
  have hflagCh (m : Nat) : (s.clipFlagged n dig).ainCh m = s.ainCh m := ainCh_congr (congrArg _ hflagAin) m
  have hflagRegs : RegsBut [Reg.AIN_CLIP, Reg.AIN_CLIPCNT n] s (s.clipFlagged n dig) := hflagRegs.mono (by simp)
  rw [ainClip_eq]
  split
  · obtain ⟨hself, hothers, hrest⟩ := setAin_only (congrArg State.ain hcount :)
    refine ⟨?_, fun m hm => (hothers m hm).trans (hflagCh m), ?_, hflagRegs.trans (hcountRegs.mono (by simp)), ?_⟩
    · rw [hself, ← hflagCh]
    · rw [← hflagAin]
      exact hrest
    · rw [hcount, hflag]
  · exact ⟨congrArg _ (hflagCh n), fun m _ => hflagCh m, by rw [hflagAin], hflagRegs, by rw [hflag]⟩

theorem clipCounted_bit (s : State) (n i : Nat) : (s.clipCounted n).bit Reg.AIN_CLIP i = s.bit Reg.AIN_CLIP i := by
  obtain ⟨-, hregs⟩ := clipCounted_only s n
  have hne : Reg.AIN_CLIP ∉ [Reg.AIN_CLIPCNT n] := by simp only [List.mem_singleton, Reg.AIN_CLIP, Reg.AIN_CLIPCNT]; omega
  unfold State.bit
  rw [hregs _ (by decide) hne]

theorem ainClip_bit (s : State) (h : clipBit n dig < 32) : (s.ainClip n dig).bit Reg.AIN_CLIP (clipBit n dig) = true := by
  rw [ainClip_eq]
  split
  · rw [clipCounted_bit, clipFlagged_bit s h]
  · exact clipFlagged_bit s h

/-- A reset is a clip event of its input, and the tick in force is its entry's last reset (R97). -/
def State.modded (s : State) (n : Nat) (dt : DT) : State :=
  ((s.advance dt).setAin n { s.ainCh n with modTs := some s.time.ts }).ainClip n false

theorem modded_only (s : State) (n : Nat) (dt : DT) :
    ((s.modded n dt).ainCh n).modTs = some s.time.ts ∧ (∀ m, m ≠ n → (s.modded n dt).ainCh m = s.ainCh m)
      ∧ { (s.modded n dt).ain with ch := s.ain.ch } = s.ain
      ∧ RegsBut [Reg.AIN_CLIP, Reg.AIN_CLIPCNT n] s (s.modded n dt)
      ∧ { s.modded n dt with ain := s.ain, blz := s.blz, regs := s.regs, pin := s.pin } = s.advance dt := by
  obtain ⟨hself, hothers, hrest, hregs, hframe⟩ :=
    ainClip_only ((s.advance dt).setAin n { s.ainCh n with modTs := some s.time.ts }) n false
  rw [setAin_ainCh] at hself
  exact ⟨hself, fun m hm => (hothers m hm).trans (setAin_ainCh_ne _ hm _),
    congrArg (fun a : AinSt => { a with ch := s.ain.ch }) hrest, hregs,
    congrArg (fun t : State => { t with ain := s.ain }) hframe⟩

theorem execModReset_stretch (hn : n < 10) :
    exec (.modReset n dt) s = .next (if (s.ainCh n).modTs = some s.time.ts ∨ (s.ainCh n).modTs = some (s.time.ts - 1)
      then s.modded n dt else (s.modded n dt).logAt Src.AIN 0x3002 3 dt (wN n) 0 0) := by
  change execModReset n dt s = _
  unfold execModReset
  exact if_pos hn

/-- Settles O9: an event's record and its flag stand apart, and the entry that it names is the one that it changes. -/
theorem inputFaultEvents : Obligations.InputFaultEvents := by
  refine ⟨?_, ?_, ?_, ?_, ?_, ?_⟩
  · intro s n dt hn hb ho hl
    refine ⟨_, execBiasLimit_begins hn hb ho hl, ?_⟩
    have hi : 8 + n < 32 := by omega
    split
    · obtain ⟨hbit, hregs, hframe⟩ := faulted_only s dt hi (s.setAin n { s.ainCh n with lim := some dt }).ain
      obtain ⟨hself, hothers, hrest⟩ := setAin_only (s := s) (t := s.faulted dt (8 + n) _) rfl
      exact ⟨hbit, hself, rfl, hothers, hrest, hregs, hframe⟩
    · obtain ⟨hbit, hain, hblz, hregs, hframe⟩ :=
        faulted_logged s dt hi (s.setAin n { s.ainCh n with lim := some dt }).ain 0x3003 3
          (wN n) (wN (cfgBias (s.ainCh n).analog)) 0
      obtain ⟨hself, hothers, hrest⟩ := setAin_only hain
      exact ⟨hbit, hself, hblz, hothers, hrest, hregs, hframe⟩
  · intro s n dt
    obtain ⟨hself, hothers, hrest⟩ := setAin_only (s := s) (t := (s.advance dt).setAin n { s.ainCh n with lim := none }) rfl
    exact ⟨_, execBiasLimitEnd_ends, hself, hothers, hrest, rfl⟩
  · intro s n dt t0 hn hl ht
    obtain ⟨hbit, hain, hblz, hregs, hframe⟩ := faulted_logged s dt (i := 16 + n) (by omega) _ 0x3004 4
      (wN n) (wN (cfgBias (s.ainCh n).analog)) 0
    obtain ⟨hself, hothers, hrest⟩ := setAin_only hain
    exact ⟨_, execBiasOff_held hl ht, hbit, hself, hblz, hothers, hrest, hregs, hframe⟩
  · intro s n level dt hn hc hs
    obtain ⟨hbit, hain, hblz, hregs, hframe⟩ := faulted_logged s dt (i := 24 + n) (by omega) _ 0x3007 3 (wN n) (wN level) 0
    obtain ⟨hself, hothers, hrest⟩ := setPdm_only hain
    exact ⟨_, execPdmStuck_clocked hn hc hs, hbit, hself, hblz, hothers, hrest, hregs, hframe⟩
  · intro s n level dt hs
    refine ⟨_, execPdmRecover_stuck hs, ?_⟩
    obtain ⟨hself, hothers, hrest⟩ := setPdm_only (s := s) (t := (s.advance dt).setPdm n _) rfl
    exact ⟨hself, hothers, hrest, rfl⟩
  · intro s n dt hn
    refine ⟨_, execModReset_stretch hn, ?_⟩
    obtain ⟨hself, hothers, hrest, hregs, hframe⟩ := modded_only s n dt
    have hbit : (s.modded n dt).bit Reg.AIN_CLIP n = true := ainClip_bit (dig := false) _ (by change n < 32; omega)
    split
    · exact ⟨hbit, hself, hothers, hrest, hregs, hframe⟩
    · have hlogged := (logAt_bit (s.modded n dt) Src.AIN 0x3002 3 dt (wN n) 0 0 Reg.AIN_CLIP n (by decide)).trans hbit
      have hregs := hregs.trans (RegsBut.logAt _ (s.modded n dt) Src.AIN 0x3002 3 dt (wN n) 0 0)
      rw [logAt_shape] at hlogged hregs ⊢
      exact ⟨hlogged, hself, hothers, hrest, hregs, hframe⟩

end Sys2Proof.Machine
end

section
/-! The sequence of a front-end or filter change, and the gain moves (R79, R98, R99). -/
open Sys2Proof Sys2Proof.Safety
namespace Sys2Proof.Machine

variable {s : State} {n : Nat} {q : AinSeq}

/-! ### The gain -/

theorem gainIncrement_due {c : AinCh} (h : c.due = true) :
    gainIncrement c = { c with due := false, gain :=
      (if c.gain < cfgGain c.analog then c.gain + 1 else if cfgGain c.analog < c.gain then c.gain - 1 else c.gain) } := by
  unfold gainIncrement
  rw [h]
  rfl

theorem gainIncrement_not_due {c : AinCh} (h : c.due = false) : gainIncrement c = c := by
  unfold gainIncrement
  rw [h]
  rfl

theorem execGainMoveIncrement_eq : exec (.gainMoveIncrement n) s = .next (s.setAin n (gainIncrement (s.ainCh n))) := rfl

/-! ### The front end -/

/-- The zeros of the listening source begin where its front end switches (R418). -/
def State.gapStart (s : State) (n : Nat) : State :=
  if s.lsnClaims n && cfgEn (s.rd (Reg.AIN_CFG n)) then
    { s with lsn := { s.lsn with gaps := (s.time.bdt, none) :: s.lsn.gaps } } else s

/-- Only the gaps of the listening source differ. -/
def GapsOnly (s t : State) : Prop := ∃ l, t = { s with lsn := { s.lsn with gaps := l } }

theorem gapStart_only (s : State) (n : Nat) : GapsOnly s (s.gapStart n) := by
  unfold State.gapStart
  split
  · exact ⟨_, rfl⟩
  · exact ⟨s.lsn.gaps, rfl⟩

theorem gapEnd_only (s : State) (n : Nat) : GapsOnly s (s.gapEnd n) := by
  unfold State.gapEnd
  split
  · split
    · exact ⟨_, rfl⟩
    · exact ⟨s.lsn.gaps, rfl⟩
  · exact ⟨s.lsn.gaps, rfl⟩

/-- One input's entry set behind a change of the gaps. -/
theorem GapsOnly.setAin {t : State} (k : GapsOnly s t) (n : Nat) (c : AinCh) :
    (t.setAin n c).ainCh n = c ∧ (∀ m, m ≠ n → (t.setAin n c).ainCh m = s.ainCh m)
      ∧ { (t.setAin n c).ain with ch := s.ain.ch } = s.ain
      ∧ { (t.setAin n c).lsn with gaps := s.lsn.gaps } = s.lsn ∧ { t.setAin n c with ain := s.ain, lsn := s.lsn } = s := by
  obtain ⟨l, rfl⟩ := k
  exact ⟨setAin_ainCh .., fun m hm => setAin_ainCh_ne _ hm c, rfl, rfl, rfl⟩

/-- The entry of an input whose new configuration has just switched in (Table AI-8). -/
def State.feSwitched (s : State) (n : Nat) : AinCh :=
  biasGo { s.ainCh n with
    analog := s.rd (Reg.AIN_CFG n), gain := cfgGain (s.rd (Reg.AIN_CFG n)), steps := 0, due := false, sign := none,
    fault := facZero, dcThk := .zero, dcTrl := .zero } s.clk.rate

/-- The same entry with what is left of the sequence: the settling of an input that stays enabled. -/
def State.feSwitchEntry (s : State) (n : Nat) (q : AinSeq) : AinCh :=
  if cfgEn (s.rd (Reg.AIN_CFG n)) then { s.feSwitched n with seq := some { q with switched := true }, noClip := true }
  else { s.feSwitched n with seq := none }

theorem feSwitchEntry_eq (s : State) (n : Nat) (q : AinSeq) :
    s.feSwitchEntry n q = { s.feSwitched n with
      seq := if cfgEn (s.rd (Reg.AIN_CFG n)) then some { q with switched := true } else none,
      noClip := cfgEn (s.rd (Reg.AIN_CFG n)) || (s.ainCh n).noClip } := by
  unfold State.feSwitchEntry
  cases cfgEn (s.rd (Reg.AIN_CFG n)) <;> rfl

theorem execAinFeSwitch_due (hq : (s.ainCh n).seq = some q) (hfe : q.fe = true) (hsw : q.switched = false)
    (ht : 0 ≤ tsDiff s.time.ts (q.t + 32)) :
    exec (.ainFeSwitch n) s = .next ((s.gapStart n).setAin n (s.feSwitchEntry n q)) := by
  have hrate : (s.gapStart n).clk.rate = s.clk.rate := by
    obtain ⟨l, hgap⟩ := gapStart_only s n
    rw [hgap]
  change execAinFeSwitch n s = _
  unfold execAinFeSwitch
  simp only [hq]
  refine (if_pos (by rw [hfe, hsw, decide_eq_true ht]; rfl)).trans ?_
  unfold State.feSwitchEntry State.feSwitched
  rw [← hrate]
  rfl

theorem execAinFeSettled_due (hq : (s.ainCh n).seq = some q) (hfe : q.fe = true) (hsw : q.switched = true)
    (hc : (s.ainCh n).noClip = true) (ht : 0 ≤ tsDiff s.time.ts (q.t + BitVec.ofNat 32 (32 + settleTk s.clk.rate))) :
    exec (.ainFeSettled n) s
      = .next ((s.gapEnd n).setAin n { s.ainCh n with fault := s.faultUp n (s.ainCh n), noClip := false }) := by
  change execAinFeSettled n s = _
  unfold execAinFeSettled
  simp only [hq]
  exact if_pos (by rw [hfe, hsw, hc, decide_eq_true ht]; rfl)

/-! ### The filters -/

theorem execAinFiltSwitch_ain_due (hq : (s.ainCh n).seq = some q) (hfe : q.fe = false) (hsw : q.switched = false)
    (ht : 0 ≤ tsDiff s.time.ts (q.t + 32)) :
    exec (.ainFiltSwitch false n) s
      = .next (s.setAin n { s.ainCh n with seq := some { q with switched := true }, filt := facZero }) := by
  change execAinFiltSwitch false n s = _
  unfold execAinFiltSwitch
  simp only [hq, Bool.false_eq_true, if_false]
  exact if_pos (by rw [hfe, hsw, decide_eq_true ht]; rfl)

theorem execAinFiltSwitch_pdm_due (hq : (s.pdmCh n).seq = some q) (hsw : q.switched = false)
    (ht : 0 ≤ tsDiff s.time.ts (q.t + 32)) :
    exec (.ainFiltSwitch true n) s
      = .next (s.setPdm n { s.pdmCh n with seq := some { q with switched := true }, filt := facZero }) := by
  change execAinFiltSwitch true n s = _
  unfold execAinFiltSwitch
  simp only [hq, if_true]
  exact if_pos (by rw [hsw, decide_eq_true ht]; rfl)

/-- Settles O8: each row of the sequence sets one entry; the front end's two rows note the listening source's gap behind it. -/
theorem frontEndSequence : Obligations.FrontEndSequence := by
  refine ⟨?_, ?_, ?_, ?_, ?_⟩
  · intro s n
    obtain ⟨hself, hothers, hrest⟩ := setAin_only (s := s) (t := s.setAin n (gainIncrement (s.ainCh n))) rfl
    refine ⟨_, execGainMoveIncrement_eq, fun hdue => ?_, fun hdue => ?_, hothers, hrest, rfl⟩
    · rw [hself, gainIncrement_due hdue]
    · rw [hself, gainIncrement_not_due hdue]
  · intro s n q hq hfe hsw ht
    obtain ⟨hself, hothers, hrest, hlsn, hframe⟩ := (gapStart_only s n).setAin n (s.feSwitchEntry n q)
    refine ⟨_, execAinFeSwitch_due hq hfe hsw ht, ?_, ?_, ?_, ?_, ?_, hothers, hrest, hlsn, hframe⟩ <;>
      rw [hself, feSwitchEntry_eq] <;> rfl
  · intro s n q hq hfe hsw hc ht
    exact ⟨_, execAinFeSettled_due hq hfe hsw hc ht, (gapEnd_only s n).setAin n _⟩
  · intro s n q hq hfe hsw ht
    obtain ⟨hself, hothers, hrest⟩ := setAin_only (s := s) (t := s.setAin n _) rfl
    exact ⟨_, execAinFiltSwitch_ain_due hq hfe hsw ht, hself, hothers, hrest, rfl⟩
  · intro s n q hq hsw ht
    obtain ⟨hself, hothers, hrest⟩ := setPdm_only (s := s) (t := s.setPdm n _) rfl
    exact ⟨_, execAinFiltSwitch_pdm_due hq hsw ht, hself, hothers, hrest, rfl⟩

end Sys2Proof.Machine
end

section
/-! The input jacks: presence, the jack factor behind it, and AIN_STATUS.JACK (R101, R102). -/
open Sys2Proof Sys2Proof.Safety
namespace Sys2Proof.Machine

variable {s : State} {j : Nat} {b : Bool} {dt since : DT}

/-! ### A jack and its factor -/

theorem wB_true_cast : (wB true : Rat) = 1 := rfl

theorem wB_false_cast : (wB false : Rat) = 0 := rfl

theorem setAinJack_ainJack (s : State) (j : Nat) (b : Bool) : (s.setAinJack j b).ainJack j = b := by
  unfold State.ainJack State.setAinJack
  split <;> rfl

theorem setAinJack_only (s : State) (j : Nat) (b : Bool) :
    (s.setAinJack j b).ain.ch = s.ain.ch ∧ (s.setAinJack j b).ain.pdm = s.ain.pdm
      ∧ s.setAinJack j b = { s with ain := (s.setAinJack j b).ain } := by
  unfold State.setAinJack
  split <;> exact ⟨rfl, rfl, rfl⟩

/-- Where a jack factor goes: up while a jack is present or ACT is clear (R102). -/
theorem ainJackGo_eq {up : Bool} (h : (s.ainJack j || !s.ainAct j) = up) :
    s.ainJackGo j = if (s.ainCh j).jack.tgt = (wB up : Rat) then s
      else s.setAin j { s.ainCh j with jack := facGo (s.ainCh j).jack (wB up : Rat) (if up then 32 else 8) } := by
  unfold State.ainJackGo
  dsimp only
  rw [h]

theorem ainJackGo_only (s : State) (j : Nat) :
    (∀ m, m ≠ j → (s.ainJackGo j).ainCh m = s.ainCh m) ∧ { (s.ainJackGo j).ain with ch := s.ain.ch } = s.ain
      ∧ s.ainJackGo j = { s with ain := (s.ainJackGo j).ain } := by
  rw [ainJackGo_eq rfl]
  split
  · exact ⟨fun _ _ => rfl, rfl, rfl⟩
  · exact ⟨fun m hm => setAin_ainCh_ne s hm _, rfl, rfl⟩

theorem ainJackGo_jack {up : Bool} (h : (s.ainJack j || !s.ainAct j) = up) :
    ((s.ainJackGo j).ainCh j).jack = if (s.ainCh j).jack.tgt = (wB up : Rat) then (s.ainCh j).jack
      else facGo (s.ainCh j).jack (wB up : Rat) (if up then 32 else 8) := by
  rw [ainJackGo_eq h, apply_ite (State.ainCh · j), apply_ite AinCh.jack, setAin_ainCh]

theorem ainJackGo_there {up : Bool} (h : (s.ainJack j || !s.ainAct j) = up) (ht : (s.ainCh j).jack.tgt = (wB up : Rat)) :
    s.ainJackGo j = s := by
  rw [ainJackGo_eq h, if_pos ht]

/-! ### The decision -/

/-- The state at a decision's DT in which jack j is present or absent, with its factor on its way. -/
def State.jackDecided (s : State) (j : Nat) (b : Bool) (dt : DT) : State := ((s.advance dt).setAinJack j b).ainJackGo j

theorem jackDecided_shape (s : State) (j : Nat) (b : Bool) (dt : DT) :
    s.jackDecided j b dt = { s.advance dt with ain := (s.jackDecided j b dt).ain } := by
  obtain ⟨-, -, hset⟩ := setAinJack_only (s.advance dt) j b
  obtain ⟨-, -, hgo⟩ := ainJackGo_only ((s.advance dt).setAinJack j b) j
  exact hgo.trans (congrArg (fun t : State => { t with ain := (s.jackDecided j b dt).ain }) hset)

theorem setAinJack_ainAct (s : State) (j : Nat) (b : Bool) (dt : DT) :
    ((s.advance dt).setAinJack j b).ainAct j = s.ainAct j := by
  obtain ⟨-, -, hset⟩ := setAinJack_only (s.advance dt) j b
  rw [hset]
  rfl

theorem jackDecided_ainJack (s : State) (j : Nat) (b : Bool) (dt : DT) : (s.jackDecided j b dt).ainJack j = b := by
  obtain ⟨-, hrest, -⟩ := ainJackGo_only ((s.advance dt).setAinJack j b) j
  refine Eq.trans ?_ (setAinJack_ainJack (s.advance dt) j b)
  unfold State.ainJack
  rw [← hrest]
  rfl

/-- Every other input, and the PDM channels. -/
theorem jackDecided_others (s : State) (j : Nat) (b : Bool) (dt : DT) :
    (∀ m, m ≠ j → (s.jackDecided j b dt).ainCh m = s.ainCh m) ∧ (s.jackDecided j b dt).ain.pdm = s.ain.pdm := by
  obtain ⟨hch, hpdm, -⟩ := setAinJack_only (s.advance dt) j b
  obtain ⟨hothers, hrest, -⟩ := ainJackGo_only ((s.advance dt).setAinJack j b) j
  refine ⟨fun m hm => (hothers m hm).trans (ainCh_congr hch m), ?_⟩
  exact (congrArg AinSt.pdm hrest :).trans hpdm

/-- While ACT is set the factor goes with the jack. -/
theorem jackDecided_jack_of_act (ha : s.ainAct j = true) :
    ((s.jackDecided j b dt).ainCh j).jack = if (s.ainCh j).jack.tgt = (wB b : Rat) then (s.ainCh j).jack
      else facGo (s.ainCh j).jack (wB b : Rat) (if b then 32 else 8) := by
  obtain ⟨hch, -, -⟩ := setAinJack_only (s.advance dt) j b
  have hup : (((s.advance dt).setAinJack j b).ainJack j || !((s.advance dt).setAinJack j b).ainAct j) = b := by
    rw [setAinJack_ainJack, setAinJack_ainAct, ha]
    simp
  have hself : ((s.advance dt).setAinJack j b).ainCh j = s.ainCh j := ainCh_congr hch j
  rw [← hself]
  exact ainJackGo_jack hup

/-- With ACT clear a factor that is or goes to one stays. -/
theorem jackDecided_ch_of_not_act (ha : s.ainAct j = false) (ht : (s.ainCh j).jack.tgt = 1) :
    (s.jackDecided j b dt).ain.ch = s.ain.ch := by
  obtain ⟨hch, -, -⟩ := setAinJack_only (s.advance dt) j b
  have hup : (((s.advance dt).setAinJack j b).ainJack j || !((s.advance dt).setAinJack j b).ainAct j) = true := by
    rw [setAinJack_ainAct, ha]
    simp
  have hself : ((s.advance dt).setAinJack j b).ainCh j = s.ainCh j := ainCh_congr hch j
  unfold State.jackDecided
  rw [ainJackGo_there hup (by rw [hself, ht, wB_true_cast])]
  exact hch

/-! ### AIN_STATUS -/

theorem foldl_lor_lt {l : List Nat} {n a : Nat} (ha : a < 2 ^ n) (h : ∀ i ∈ l, i < n) :
    l.foldl (fun m i => Nat.lor m (2 ^ i)) a < 2 ^ n := by
  induction l generalizing a with
  | nil => exact ha
  | cons i l ih =>
    have hi : 2 ^ i < 2 ^ n := Nat.pow_lt_pow_right (by decide) (h i (.head _))
    exact ih (Nat.or_lt_two_pow ha hi) fun k hk => h k (.tail _ hk)

theorem maskBy_lt (n : Nat) (f : Nat → Bool) : maskBy n f < 2 ^ n :=
  foldl_lor_lt (Nat.two_pow_pos n) fun _ hi => List.mem_range.mp (List.mem_filter.mp hi).left

theorem wB_lt (b : Bool) : wB b < 2 := by cases b <;> decide

theorem wB_beq_one (b : Bool) : (wB b == 1) = b := by cases b <;> rfl

/-- Bits 12 and 13 of a status word made of two masks above, two bits, and a mask below them. -/
theorem bitN_status (a c m : Nat) (hm : m < 2 ^ 10) (b0 b1 : Bool) :
    bitN (wN (a * 2 ^ 24 + c * 2 ^ 16 + wB b1 * 2 ^ 13 + wB b0 * 2 ^ 12 + m)).toNat 12 = b0
      ∧ bitN (wN (a * 2 ^ 24 + c * 2 ^ 16 + wB b1 * 2 ^ 13 + wB b0 * 2 ^ 12 + m)).toNat 13 = b1 := by
  have h0 := wB_lt b0
  have h1 := wB_lt b1
  simp only [bitN, wN, BitVec.toNat_ofNat]
  constructor
  · refine (congrArg (· == 1) ?_).trans (wB_beq_one b0)
    omega
  · refine (congrArg (· == 1) ?_).trans (wB_beq_one b1)
    omega

theorem ainStatus_jack (s : State) (hj : j < 2) : bitN s.ainStatus.toNat (12 + j) = s.ainJack j := by
  obtain rfl | rfl : j = 0 ∨ j = 1 := by omega
  · exact (bitN_status _ _ _ (maskBy_lt 10 _) s.ain.jack0 s.ain.jack1).left
  · exact (bitN_status _ _ _ (maskBy_lt 10 _) s.ain.jack0 s.ain.jack1).right

/-! ### The events -/

theorem wakeFire_ain (s : State) (bit num : Nat) (dt : DT) : (s.wakeFire bit num dt).ain = s.ain := by
  obtain ⟨-, h⟩ := wakeFire_only s bit num dt
  exact (congrArg State.ain h :)

/-- A device that does not sleep has no wake sources (R398). -/
theorem wakeFire_awake (h : s.pwr.sleep = none) (bit num : Nat) (dt : DT) : s.wakeFire bit num dt = s := by
  unfold State.wakeFire
  rw [h]

theorem execAinJackIn_held (hj : j < 2) (ha : s.ainJack j = false)
    (ht : since.toNat + s.fld Fl.AIN_JACK_CFG.DEBOUNCE * 1000000 ≤ dt.toNat) :
    exec (.ainJackIn j ⟨since, dt⟩) s
      = .next (((s.jackDecided j true dt).logAt Src.AIN 0x3005 1 dt (wN j) 0 0).wakeFire 8 j dt) := by
  change execAinJackIn j ⟨since, dt⟩ s = _
  unfold execAinJackIn
  exact if_pos ⟨hj, ha, ht⟩

theorem execAinJackOut_held (hj : j < 2) (ha : s.ainJack j = true) (ht : since.toNat + 1000000 ≤ dt.toNat) :
    exec (.ainJackOut j ⟨since, dt⟩) s = .next ((s.jackDecided j false dt).logAt Src.AIN 0x3006 1 dt (wN j) 0 0) := by
  change execAinJackOut j ⟨since, dt⟩ s = _
  unfold execAinJackOut
  exact if_pos ⟨hj, ha, ht⟩

/-- The record carries the decision's DT, and nothing beside the inputs and the log changes (R101). -/
theorem jackDecided_logged (s : State) (j : Nat) (b : Bool) (dt : DT) (code sev : Nat) (p0 p1 p2 : Word) :
    let t := (s.jackDecided j b dt).logAt Src.AIN code sev dt p0 p1 p2
    t.blz = (s.logAt Src.AIN code sev dt p0 p1 p2).blz ∧ RegsBut [] s t
      ∧ { t with ain := s.ain, blz := s.blz, regs := s.regs } = s.advance dt := by
  have hshape := jackDecided_shape s j b dt
  have hregs : RegsBut [] s (s.jackDecided j b dt) := .of_regs (by rw [hshape]; rfl)
  refine ⟨?_, hregs.trans (RegsBut.logAt _ _ _ _ _ _ _ _ _), ?_⟩
  · exact logAt_blz_congr (by rw [hshape]; rfl) (by rw [hshape]; rfl) (by rw [hshape]; rfl) ..
  · rw [logAt_shape, hshape]
    rfl

/-- The jack's side of a decision, in every state whose inputs are as the decision leaves them. -/
theorem jackDecided_ain {t : State} (hj : j < 2) (h : t.ain = (s.jackDecided j b dt).ain) :
    t.ainJack j = b ∧ bitN t.ainStatus.toNat (12 + j) = b
      ∧ (s.ainAct j = true → (t.ainCh j).jack = if (s.ainCh j).jack.tgt = (wB b : Rat) then (s.ainCh j).jack
          else facGo (s.ainCh j).jack (wB b : Rat) (if b then 32 else 8))
      ∧ (s.ainAct j = false → (s.ainCh j).jack.tgt = 1 → t.ain.ch = s.ain.ch)
      ∧ (∀ m, m ≠ j → t.ainCh m = s.ainCh m) ∧ t.ain.pdm = s.ain.pdm := by
  have hch (m : Nat) : t.ainCh m = (s.jackDecided j b dt).ainCh m := ainCh_congr (congrArg _ h) m
  have hjack : t.ainJack j = b := by
    rw [← jackDecided_ainJack s j b dt]
    unfold State.ainJack
    rw [h]
  obtain ⟨hothers, hpdm⟩ := jackDecided_others s j b dt
  refine ⟨hjack, (ainStatus_jack t hj).trans hjack, fun ha => ?_, fun ha ht => ?_,
    fun m hm => (hch m).trans (hothers m hm), ?_⟩
  · rw [hch, jackDecided_jack_of_act ha]
  · rw [h, jackDecided_ch_of_not_act ha ht]
  · rw [h, hpdm]

/-- Settles O10: both events are one decision about the jack with its record; a wake source touches neither. -/
theorem inputJackEvents : Obligations.InputJackEvents := by
  constructor
  · intro s j since dt hj ha ht
    obtain ⟨hblz, hregs, hframe⟩ := jackDecided_logged s j true dt 0x3005 1 (wN j) 0 0
    obtain ⟨hjack, hstatus, hact, hclear, hothers, hpdm⟩ := jackDecided_ain (s := s) (b := true) (dt := dt) hj
      ((wakeFire_ain _ 8 j dt).trans (logAt_ain _ Src.AIN 0x3005 1 dt (wN j) 0 0))
    refine ⟨_, execAinJackIn_held hj ha ht, hjack, hstatus, fun e => ?_, hclear, hothers, hpdm, fun hawake => ?_⟩
    · rw [hact e, wB_true_cast, if_pos rfl]
    · have hsleep : ((s.jackDecided j true dt).logAt Src.AIN 0x3005 1 dt (wN j) 0 0).pwr.sleep = none := by
        rw [logAt_shape, jackDecided_shape]
        exact hawake
      rw [wakeFire_awake hsleep]
      exact ⟨hblz, hregs, hframe⟩
  · intro s j since dt hj ha ht
    obtain ⟨hblz, hregs, hframe⟩ := jackDecided_logged s j false dt 0x3006 1 (wN j) 0 0
    obtain ⟨hjack, hstatus, hact, hclear, hothers, hpdm⟩ := jackDecided_ain (s := s) (b := false) (dt := dt) hj (logAt_ain ..)
    refine ⟨_, execAinJackOut_held hj ha ht, hjack, hstatus, fun e => ?_, hclear, hothers, hpdm, hblz, hregs, hframe⟩
    rw [hact e, wB_false_cast, if_neg Bool.false_ne_true]

end Sys2Proof.Machine
end
